-- ==== Sys2Proof/Word.lean ====
section
/-! DEFINITION. The word types of the device and the plainest arithmetic on them: little- and big-endian byte
strings (R9), bit fields (R7), sorted lists used as sets and as sparse maps. -/

namespace Sys2Proof

/-- One byte. -/
abbrev Byte := BitVec 8
/-- A 32-bit register word, or the encoding of an FP32 value. -/
abbrev Word := BitVec 32
/-- A 64-bit register. -/
abbrev DWord := BitVec 64

/-- Bits `[hi:lo]` of a number (R7). -/
def bits (v hi lo : Nat) : Nat := (v >>> lo) % 2 ^ (hi + 1 - lo)

/-- Bit `i` of a number. -/
def bit (v i : Nat) : Bool := v.testBit i

/-- A Boolean as 0 or 1. -/
def b2n (b : Bool) : Nat := if b then 1 else 0

/-- The little-endian bytes of a number, `n` of them (R9). -/
def leBytes : Nat → Nat → List Byte
  | 0, _ => []
  | n + 1, v => BitVec.ofNat 8 v :: leBytes n (v / 256)

/-- The number that a little-endian byte string holds (R9). -/
def leNat : List Byte → Nat
  | [] => 0
  | b :: r => b.toNat + 256 * leNat r

/-- The number that a big-endian byte string holds (Ethernet wire formats, R9). -/
def beNat (l : List Byte) : Nat := leNat l.reverse

/-- The big-endian bytes of a number (R9). -/
def beBytes (n v : Nat) : List Byte := (leBytes n v).reverse

/-- `n` bytes of a string from offset `o`, zero beyond its end. -/
def sliceB (l : List Byte) (o n : Nat) : List Byte :=
  (List.range n).map fun i => l.getD (o + i) 0

/-- The little-endian field of `n` bytes at offset `o`. -/
def fieldLE (l : List Byte) (o n : Nat) : Nat := leNat (sliceB l o n)

/-- Every byte of `[o, o + n)` is zero. -/
def zeroField (l : List Byte) (o n : Nat) : Bool := (sliceB l o n).all (· == 0)

/-- `v` rounded up to a multiple of `k`. -/
def roundUp (v k : Nat) : Nat := (v + k - 1) / k * k

/-- Quotient rounded up. -/
def ceilDiv (a b : Nat) : Nat := (a + b - 1) / b

/-- A sum that saturates at `2^32 - 1`. -/
def sat32 (v : Nat) : Nat := min v (2 ^ 32 - 1)

/-- A sum that saturates at `2^64 - 1`. -/
def sat64 (v : Nat) : Nat := min v (2 ^ 64 - 1)

/-- The two's complement value of the low `w` bits. -/
def sext (w v : Nat) : Int :=
  if (v % 2 ^ w).testBit (w - 1) then ((v % 2 ^ w : Nat) : Int) - 2 ^ w else (v % 2 ^ w : Nat)

/-- Element `i` of a list replaced by its image. -/
def modAt {α : Type} (l : List α) (i : Nat) (f : α → α) : List α := l.modify i f

/-- Insertion into a sorted list of numbers without repeats (a finite set). -/
def setIns (a : Nat) : List Nat → List Nat
  | [] => [a]
  | b :: r => if a < b then a :: b :: r else if a = b then b :: r else b :: setIns a r

/-- Removal from a finite set. -/
def setDel (a : Nat) (l : List Nat) : List Nat := l.filter (· != a)

/-- The value a sparse map (keys strictly rising) holds at a key. -/
def mapGet {α : Type} (k : Nat) : List (Nat × α) → Option α
  | [] => none
  | (j, v) :: r => if k = j then some v else mapGet k r

/-- A sparse map with one key set. -/
def mapPut {α : Type} (k : Nat) (v : α) : List (Nat × α) → List (Nat × α)
  | [] => [(k, v)]
  | (j, w) :: r =>
    if k < j then (k, v) :: (j, w) :: r else if k = j then (k, v) :: r else (j, w) :: mapPut k v r

/-- A sparse map with one key removed. -/
def mapDel {α : Type} (k : Nat) : List (Nat × α) → List (Nat × α)
  | [] => []
  | (j, w) :: r => if k = j then r else (j, w) :: mapDel k r

/-- A sparse map whose entries never equal the value `d` that an absent key reads as. -/
def mapSet {α : Type} [DecidableEq α] (d : α) (k : Nat) (v : α) (m : List (Nat × α)) : List (Nat × α) :=
  if v = d then mapDel k m else mapPut k v m

/-- Reading a sparse map whose absent keys read as `d`. -/
def mapRd {α : Type} (d : α) (k : Nat) (m : List (Nat × α)) : α := (mapGet k m).getD d

end Sys2Proof
end

