-- ==== Sys2Proof/Syntax.lean ====
section
/-! DEFINITION. The commands of the device: one constructor of `Instr` per row of the operation table, and the
records their operands are made of. An operand is what the outside world supplies to the event: a register value,
the bytes the host answers a read with, a packet, a sensor sample, what the boot ROM reads from the flash layouts
that the manual keeps private, the outcome of a self-test. -/

namespace Sys2Proof

/-- A PCIe function (R105): PF0, VF1 to VF15, or PF1. -/
inductive Func where
  | pf0
  | vf (n : Nat)
  | pf1
deriving DecidableEq, Repr

/-- Who signed an object (R591 to R593). ECDSA P-384 is abstracted to the identity of the signing key: a signature
verifies exactly when its signer is the key that the owning rule requires (log entry 4). -/
inductive Signer where
  | nobody
  | imageKey (k : Nat)
  | provisioning
  | debugKey
  | owner (key : Nat)
deriving DecidableEq, Repr

/-- A retirable or reporting unit, by UNIT_KIND and UNIT_INDEX (R564). -/
structure UnitKey where
  kind : Nat
  index : Nat
deriving DecidableEq, Repr

/-- Reference clock inputs (R40). -/
inductive RefClk where
  | sys | host0 | host1 | link | ing | xtal
deriving DecidableEq, Repr

/-! ### Boot inputs -/

/-- An image of a bank slot: its 256-byte header (R76), whether its payload hashes to the header's SHA-384, and who
signed it. -/
structure Image where
  header : List Byte
  payloadOk : Bool
  signer : Signer
deriving DecidableEq, Repr

/-- A slot of a bank header (R70). -/
structure BankSlot where
  type : Nat
  offset : Nat
  length : Nat
  image : Image
deriving DecidableEq, Repr

/-- A firmware entry of the concord list (R79). -/
structure FwEntry where
  romRev : Nat
  sec : Nat
  ctl : Nat
  wdn : Nat
  mtf : Nat
  haw : Nat
  ing : Nat
deriving DecidableEq, Repr

/-- A driver entry of the concord list (R79): a firmware entry index and a version word laid out as PART_DRV_IFVER. -/
structure DrvEntry where
  fw : Nat
  ifver : Nat
deriving DecidableEq, Repr

/-- The payload of a concord list (R79). -/
structure Concord where
  contentsOk : Bool
  fw : List FwEntry
  drv : List DrvEntry
deriving DecidableEq, Repr

/-- A flash bank as the boot ROM reads it (R70): header CRC, sequence number, declared slot count, slots, concord. -/
structure Bank where
  crcOk : Bool
  seq : Nat
  count : Nat
  slots : List BankSlot
  concord : Concord
deriving DecidableEq, Repr

/-- A port binding of the installation record (R467). -/
structure Binding where
  mac : Nat
  partnerPort : Nat
  vlan : Nat
  prioData : Nat
  prioCtrl : Nat
  used : Nat
  rsvZero : Bool
deriving DecidableEq, Repr

/-- A chip table entry of the installation record (R467). -/
structure ChipEntry where
  serial : Nat
  chip : Nat
  rsvZero : Bool
deriving DecidableEq, Repr

/-- The installation record (R467). -/
structure InstRec where
  magic : Nat
  format : Nat
  count : Nat
  instId : Nat
  sequence : Nat
  rsvZero : Bool
  ports : List Binding
  chips : List ChipEntry
  signer : Signer
deriving DecidableEq, Repr

/-- An override record (R86). `pairs` are version words laid out as PART_DRV_IFVER. -/
structure OverrideRec where
  serial : Nat
  setHash : Nat
  pairs : List Nat
  signer : Signer
deriving DecidableEq, Repr

/-- A golden-update record (R75). -/
structure GoldenRec where
  setHash : Nat
  signer : Signer
deriving DecidableEq, Repr

/-- What memory training finds (R93 to R95, R368): stack serials, whether every stack holds 8.0 Gb/s, the failed
pseudo-channels (stack x 64 + pc), stacks that fail whole, and per pseudo-channel the spare rows left (all banks,
the bank with fewest). -/
structure TrainIn where
  serials : List Nat
  rate8 : Bool
  failedPcs : List Nat
  failedStacks : List Nat
  spareAll : Nat
  spareMin : Nat
deriving DecidableEq, Repr

/-- The inputs of a boot (R88): reference clocks found in use, BOOT_BANK, the flash as the ROM reads it, training,
the units whose built-in self-test fails, the version of the memory map's MTF in use is read from its image. -/
structure BootIn where
  bootBank : Bool
  dirOk : Bool
  mirrorOk : Bool
  bankA : Bank
  bankB : Bank
  instRec : Option InstRec
  train : TrainIn
  selfTestFail : List UnitKey
  wdnOk : Bool
deriving DecidableEq, Repr

/-- The inputs of a warm reset: stacks whose controller is not healthy (R582), 64-byte device-space granules whose
queued stores did not drain (R582), units that fail U1 (R587), and whether HIO0 trains again. -/
structure WarmIn where
  unhealthy : List Nat
  undrained : List Nat
  selfTestFail : List UnitKey
deriving DecidableEq, Repr

/-- How far a host copy got before its first failed request (R143): bytes, and the host's data for a copy toward the
device. -/
structure Progress where
  sq : Nat
  count : Nat
  data : List Byte
deriving DecidableEq, Repr

/-- What a failed host request was for (R143, R151). -/
inductive HostReq where
  | copy (count : Nat) (data : List Byte)
  | descriptor
  | doorbell
deriving DecidableEq, Repr

/-! ### Engine commands -/

/-- The queue a command is issued to: brick, context, stream index (R160). -/
structure Loc where
  brick : Nat
  ctx : Nat
  stream : Nat
deriving DecidableEq, Repr

/-- A wait field (R178). -/
structure Wait where
  kind : Nat
  index : Nat
  base : Nat
  step : Nat
  stepLc : Nat
deriving DecidableEq, Repr

/-- A signal field (R180). -/
structure Sig where
  kind : Nat
  index : Nat
  amount : Nat
  target : Nat
deriving DecidableEq, Repr

/-- What every engine command carries (R178 to R183), the queue it stands in, its index within its stream (R170) and
whether it is the stream's last command (engine code is private, so where a stream ends, and whether the code at this
index decodes at all (R198, 0x1010), is told by the command). -/
structure Cmd where
  loc : Loc
  decodes : Bool
  index : Nat
  last : Bool
  wait0 : Wait
  wait1 : Wait
  sig0 : Sig
  sig1 : Sig
  sel : Nat
deriving DecidableEq, Repr

/-- A scale source and its value (R235). -/
structure Scale where
  src : Nat
  val : Nat
deriving DecidableEq, Repr

/-- The narrowing fields (R220). -/
structure Cvt where
  round : Nat
  ovf : Nat
deriving DecidableEq, Repr

/-- COPY (R194). -/
structure CopyF where
  src : Nat
  dst : Nat
  dstKind : Nat
  trFirst : Nat
  trCount : Nat
  batch : Nat
  cvt : Cvt
deriving DecidableEq, Repr

/-- Where LOOP_BEGIN takes its count (R189). -/
inductive CountSrc where
  | imm (n : Nat)
  | counter (i : Nat)
  | arg (w : Nat)
deriving DecidableEq, Repr

/-- What PRED_SET writes (R187). `cmp`: 0 is at or above, 1 is equal, 2 is below. -/
inductive PredSrc where
  | const (v : Bool)
  | arg (word bit : Nat)
  | flag (i : Nat)
  | cmp (counter op imm : Nat)
  | and (a b : Nat)
  | or (a b : Nat)
deriving DecidableEq, Repr

/-- The prologue, epilogue and reuse fields shared by the matrix commands and CONV2D (R235). Optional operands are
absent where the command does not name them. -/
structure EpiF where
  proFmt : Nat
  proCvt : Cvt
  proScale : Scale
  bias : Option Nat
  epiScale : Scale
  split : Nat
  actL : Nat
  actH : Nat
  red : Nat
  redT : Nat
  gateT : Option Nat
  d : Option Nat
  dCvt : Cvt
  stream : Nat
  reuse : Nat
  reuseBound : Nat
  reuseMaxAge : Nat
  reuseEpoch : Nat
  reuseT : Nat
deriving DecidableEq, Repr

/-- MATMUL, MATMUL_ACC, MATMUL_GATED (R235). -/
structure MatF where
  a : Nat
  b : Nat
  c : Nat
  bLayout : Nat
  batch : Nat
  epi : EpiF
deriving DecidableEq, Repr

/-- ACT (R280). -/
structure ActF where
  x : Nat
  y : Nat
  act : Nat
  scale : Scale
  cvt : Cvt
  batch : Nat
deriving DecidableEq, Repr

/-- NORM_ROW (R282 to R284). -/
structure NormF where
  x : Nat
  y : Nat
  mode : Nat
  eps : Nat
  gamma : Option Nat
  beta : Option Nat
  statT : Option Nat
  cvt : Cvt
deriving DecidableEq, Repr

/-- SOFTMAX_ROW (R291). -/
structure SoftF where
  x : Nat
  y : Nat
  c : Scale
  maskMode : Nat
  maskT : Nat
  statT : Option Nat
  cvt : Cvt
deriving DecidableEq, Repr

/-- ATTN_BLOCK (R293). -/
structure AttnF where
  q : Nat
  kvSrc : Nat
  k : Nat
  v : Nat
  splT : Nat
  seqSrc : Nat
  seq : Nat
  firstToken : Nat
  tokens : Nat
  dv : Nat
  c : Scale
  maskMode : Nat
  maskT : Nat
  oT : Nat
  stateT : Option Nat
  stateIn : Nat
  final : Nat
  y : Nat
  yCvt : Cvt
  batch : Nat
  group : Nat
deriving DecidableEq, Repr

/-- GATHER_PAGES and the SCATTER forms (R314). `form` is the FORM field as the code holds it: the row's own form, or
the reserved encoding 0b11. -/
structure PagesF where
  form : Nat
  splT : Nat
  seqSrc : Nat
  seq : Nat
  firstToken : Nat
  tokens : Nat
  head0 : Nat
  heads : Nat
  kt : Option Nat
  vt : Option Nat
  srcSeqSrc : Nat
  srcSeq : Nat
  firstSlot : Nat
  slots : Nat
deriving DecidableEq, Repr

/-- CONV2D (R324). -/
structure ConvF where
  x : Nat
  f : Nat
  y : Nat
  cin : Nat
  fh : Nat
  fw : Nat
  sh : Nat
  sw : Nat
  dh : Nat
  dw : Nat
  acc : Nat
  batch : Nat
  xIstr : Nat
  yIstr : Nat
  epi : EpiF
deriving DecidableEq, Repr

/-- POOL2D (R334). -/
structure PoolF where
  x : Nat
  y : Nat
  ch : Nat
  fh : Nat
  fw : Nat
  sh : Nat
  sw : Nat
  dh : Nat
  dw : Nat
  mode : Nat
  cvt : Cvt
  batch : Nat
  xIstr : Nat
  yIstr : Nat
deriving DecidableEq, Repr

/-- RESAMPLE (R337). The ratios and origins are FP32 encodings. -/
structure ResampF where
  x : Nat
  y : Nat
  ch : Nat
  kernel : Nat
  rx : Nat
  ry : Nat
  ox : Nat
  oy : Nat
  cvt : Cvt
  batch : Nat
  xIstr : Nat
  yIstr : Nat
deriving DecidableEq, Repr

/-- A 64-bit operand of RNG_FILL: source, argument word, immediate (R352). -/
structure RngSrc where
  src : Nat
  arg : Nat
  imm : Nat
deriving DecidableEq, Repr

/-- RNG_FILL (R352). -/
structure RngF where
  y : Nat
  gen : Nat
  dist : Nat
  p0 : Nat
  p1 : Nat
  seed : RngSrc
  tid : RngSrc
  idx : RngSrc
  idxRow : Nat
  idxBatch : Nat
  idxLsel : Nat
  idxLstr : Nat
  batch : Nat
  cvt : Cvt
deriving DecidableEq, Repr

/-- COLL_REDUCE and COLL_SEND (R491). `op` is the OP field as the code holds it: the row's own operation, or a
reserved encoding. `tagSrc` 0 is the immediate, 1 an argument word. -/
structure CollF where
  op : Nat
  redop : Nat
  groupSrc : Nat
  groupArg : Nat
  tagSrc : Nat
  tag : Nat
  src : Nat
  x : Nat
  y : Nat
  blocks : Nat
  log2V : Nat
  leafSrc : Nat
  leaf : Nat
  leaves : Nat
  root : Nat
  predIn : Nat
  predOut : Nat
  cvt : Cvt
deriving DecidableEq, Repr

/-- SCALE_UPDATE (R502). `mode` is the MODE field as the code holds it: the row's own mode, or a reserved encoding. -/
structure ScaleF where
  mode : Nat
  x : Nat
  src : Nat
  src2 : Nat
  recT : Nat
  r : Nat
  acc : Nat
  out : Option Nat
  maxnorm : Nat
  batch : Nat
deriving DecidableEq, Repr

/-- NONFINITE_VOTE (R508). -/
structure VoteF where
  x : Nat
  pred : Nat
  acc : Nat
  batch : Nat
deriving DecidableEq, Repr

/-! ### Frames, packets, records -/

/-- A received Hawser frame (R474): the port, whether it authenticates (R479), its header fields, its operation
header (16 bytes) and its data. -/
structure HawFrame where
  port : Nat
  authOk : Bool
  last : Bool
  src : Nat
  job : Nat
  psn : Nat
  ackPsn : Nat
  lane : Nat
  keyId : Nat
  op : List Byte
  data : List Byte
deriving DecidableEq, Repr

/-- A received ingest packet (R409, R410): destination acceptance and the results of the frame checks (`fecBad`: a FEC
codeword was uncorrectable), the fields the
classifier matches, and the UDP payload. -/
structure Packet where
  port : Nat
  fcsOk : Bool
  fecBad : Bool
  addressed : Bool
  udp : Bool
  fragment : Bool
  checksumOk : Bool
  bufferFull : Bool
  vlan : Option Nat
  ipv6 : Bool
  dstIp : Nat
  udpPort : Nat
  payload : List Byte
deriving DecidableEq, Repr

/-- An address resolution request (R409). -/
structure ArpReq where
  port : Nat
  ipv6 : Bool
  target : Nat
deriving DecidableEq, Repr

/-- The data set of a PTP Announce message, in the order the best master clock algorithm compares it (R412). -/
structure PtpMaster where
  priority1 : Nat
  clockClass : Nat
  accuracy : Nat
  variance : Nat
  priority2 : Nat
  identity : Nat
  steps : Nat
deriving DecidableEq, Repr

/-- Where an ECC event strikes (R364 to R366): a device-space address in HBM with the controller's row number, or a
line held by a cache slice and way. -/
structure EccSite where
  inCache : Bool
  addr : Nat
  row : Nat
  slice : Nat
  way : Nat
  pinned : Bool
  dirty : Bool
  symbols : Nat
deriving DecidableEq, Repr

/-- What the patrol scrubber finds at the next location (R367). -/
inductive ScrubResult where
  | clean
  | corrected (row symbols : Nat)
  | uncorrectable (retryOk : Bool) (row symbols : Nat)
deriving DecidableEq, Repr

/-- One rail's reading in a power estimate (R538): millivolts, milliamperes, and whether the current read succeeded. -/
structure RailRead where
  mv : Nat
  ma : Nat
  ok : Bool
deriving DecidableEq, Repr

/-- A signal of a test-mux group (R626). -/
structure MuxSig where
  die : Nat
  index : Nat
  group : Nat
  bit : Nat
deriving DecidableEq, Repr

/-! ### The commands -/

/-- The commands: one constructor per row of the operation table, in the table's order. -/
inductive Instr where
  -- resets, power and pins
  | pwrGoodRise (boot : BootIn)
  | coldReset (boot : BootIn)
  | setupColdReq (v : Word) (boot : BootIn)
  | warmResetN (w : WarmIn)
  | setupReset (v : Word) (w : WarmIn)
  | i3cWarmResetRequest (b0 b1 : Byte) (w : WarmIn)
  | perst0N (w : WarmIn)
  | perst1N (p : List Progress)
  | hio0LinkLoss (w : WarmIn)
  | hio1LinkLoss (p : List Progress)
  | flrVf (n : Nat)
  | flrPf0 (w : WarmIn)
  | flrPf1 (p : List Progress)
  | setupPartReset (v : Word)
  | powerLoss
  | thermTrip (die : Nat)
  | referenceLost (r : RefClk) (p : List Progress) (w : WarmIn)
  | meshLinkFail (link : Nat)
  | ptpSync (port domain identity time : Nat)
  | ptpAnnounce (port domain : Nat) (m : PtpMaster)
  | syncTimeout
  | deviceTimeStep
  | ppsInEdge
  | ppsOut
  | seizeN
  | jtagSeize
  | seizeExit (boot : BootIn)
  -- flash and security mailboxes
  | flashRead
  | flashErase
  | flashProgram
  | flashCommandDone (flashOk : Bool)
  | override (r : OverrideRec)
  | goldenUpdate (r : GoldenRec)
  | lifecycleRecord (signer : Signer)
  | debugToken (jtag : Bool) (bytes : List Byte) (signer : Signer)
  | linkSecretRecord (signer : Signer) (unwrapOk : Bool) (secret : Nat)
  | debugLevelRequest (jtag : Bool) (v : Word)
  -- set-up registers
  | partDrvIfver (f : Nat) (v : Word)
  | setupLock (v : Word)
  | functionSetupLock (f : Nat) (v : Word)
  | registerWrite (f : Func) (off size : Nat) (v : DWord)
  | partitionAlloc (n : Nat)
  | allocClearDone (n : Nat)
  | partitionRelease (n : Nat)
  | pinEntryWrite (n e : Nat) (v : Word)
  | reservedRegionWrite (k : Nat) (v : Word)
  | sqEnable (f n : Nat) (v : Word)
  | sqDisable (f n : Nat) (v : Word)
  | cqEnable (f n : Nat) (v : Word)
  | cqDisable (f n : Nat) (v : Word)
  | errRingEnable (f : Nat) (v : Word)
  | errRingDisable (f : Nat) (v : Word)
  | ringSqnRestart (f n : Nat) (v : Word)
  -- host rings
  | doorbellSweep (f : Nat) (block : List Byte)
  | descriptorFetch (f n : Nat) (bytes : List Byte)
  | nop (f n : Nat)
  | runList (f n : Nat)
  | hostCopy (f n : Nat) (data : List Byte)
  | waitRing (f n : Nat)
  | waitEpoch (f n : Nat)
  | timestamp (f n : Nat)
  | pcieErrorResponse (f n : Nat) (r : HostReq) (abort : Bool)
  | pcieCompletionTimeout (f n : Nat) (r : HostReq)
  | completionWrite (f n : Nat)
  | irqTimer (f n : Nat)
  | msixUnmask (f vec : Nat)
  -- lists and engine commands
  | listStart (f n : Nat)
  | contextDeadlock (f n : Nat)
  | copy (c : Cmd) (o : CopyF)
  | loopBegin (c : Cmd) (lc : Nat) (src : CountSrc)
  | loopEnd (c : Cmd) (lc : Nat)
  | predSet (c : Cmd) (p : Nat) (src : PredSrc)
  | fence (c : Cmd)
  | matmul (c : Cmd) (o : MatF)
  | matmulAcc (c : Cmd) (o : MatF)
  | matmulGated (c : Cmd) (o : MatF)
  | epilogueStreamHandoff (l : Loc)
  | act (c : Cmd) (o : ActF)
  | normRow (c : Cmd) (o : NormF)
  | softmaxRow (c : Cmd) (o : SoftF)
  | attnBlock (c : Cmd) (o : AttnF)
  | pinResume (l : Loc)
  | gatherPages (c : Cmd) (o : PagesF)
  | scatterWrite (c : Cmd) (o : PagesF)
  | scatterFork (c : Cmd) (o : PagesF)
  | scatterFree (c : Cmd) (o : PagesF)
  | conv2d (c : Cmd) (o : ConvF)
  | pool2d (c : Cmd) (o : PoolF)
  | resample (c : Cmd) (o : ResampF)
  | rngFill (c : Cmd) (o : RngF)
  | allReduce (c : Cmd) (o : CollF)
  | reduceScatter (c : Cmd) (o : CollF)
  | vetoOr (c : Cmd) (o : CollF)
  | allGather (c : Cmd) (o : CollF)
  | broadcast (c : Cmd) (o : CollF)
  | collTimeout (l : Loc)
  | amax (c : Cmd) (o : ScaleF)
  | sumsq (c : Cmd) (o : ScaleF)
  | push (c : Cmd) (o : ScaleF)
  | clip (c : Cmd) (o : ScaleF)
  | product (c : Cmd) (o : ScaleF)
  | nonfiniteVote (c : Cmd) (o : VoteF)
  -- memory errors and movement
  | eccCorrected (e : EccSite)
  | eccUncorrectable (e : EccSite) (retryOk : Bool)
  | tagCopyError (slice : Nat) (both : Bool)
  | obAmEccError (brick : Nat) (am corrected : Bool) (addr : Nat)
  | engineError (brick : Nat) (recomputeOk : Bool) (l : Loc)
  | patrolScrub (r : ScrubResult)
  | chunkCopyDone (stack : Nat)
  | copyBackChunkDone (stack : Nat)
  | nodeMove (unreadable : List Nat)
  | bucketRefill (mortar : Nat)
  -- ingest
  | ingestPortEnable (q : Nat)
  | ingestEnable
  | sourceWrite (n : Nat) (v : Word)
  | ruleWrite (n : Nat) (v : Word)
  | streamEnable (n : Nat) (v : Word)
  | streamDisable (n : Nat) (v : Word)
  | ingStrmnResume (n : Nat) (v : Word)
  | ingestPacket (p : Packet)
  | arpRequest (r : ArpReq)
  | gatherLimit (n exposure : Nat)
  | fusionStart (n exposure : Nat)
  | epochWritten (n exposure : Nat)
  | ingestLinkLost (q : Nat)
  -- Hawser
  | hawserPortEnable (p : Nat)
  | linkTrained (p : Nat)
  | lldpSend (p : Nat)
  | lldpReceived (p mac partnerPort : Nat) (retry : Bool)
  | bindingTimeout (p : Nat)
  | hawserLinkLost (p : Nat)
  | write (h : HawFrame)
  | readReq (h : HawFrame)
  | readResp (h : HawFrame)
  | collData (h : HawFrame)
  | collCtrl (h : HawFrame)
  | ack (h : HawFrame)
  | nak (h : HawFrame)
  | probe (h : HawFrame)
  | portState (h : HawFrame)
  | hawserReservedFrame (p type : Nat)
  | pfcPause (p prio : Nat) (on : Bool)
  | ackTimer (chip lane : Nat)
  | replayTimer (p : Nat)
  | retransmitTimer (chip lane : Nat)
  | hawJobWrite (n : Nat) (v : Word)
  -- warden and power
  | sensorSample (i raw : Nat)
  | decisionPeriod
  | levelChange (brick : Nat)
  | powerEstimate (rails : List RailRead) (restMw : Nat)
  | avsResponse (ok : Bool)
  | wardenWatchdog
  | idleTimeout
  | dozeTimeout
  | wardenTimeout
  | enterWarden
  | enterOff
  | hostWakeRequest (port : Nat) (memory : Bool)
  | wakeTime
  | railsInRegulation (t : TrainIn) (selfTestFail : List UnitKey)
  | storeDrain (brick : Nat)
  | drainTimeout (brick : Nat) (targets : List Nat)
  -- faults, repair, deadlines
  | errorHandle
  | handlerTimeout
  | bucketLeak (u : UnitKey) (row : Nat)
  | errRetireReq (v : Word)
  | errReadmitReq (v : Word)
  | selfTestDone (pass : Bool)
  | probationEnd (pass : Bool)
  | handOver
  | deadlineTest
  | debugTrigger (edges : List MuxSig)
  -- attestation
  | getVersion
  | getCapabilities
  | negotiateAlgorithms (p384 sha384 : Bool)
  | getDigests
  | getCertificate (slot offset length : Nat)
  | challenge (slot : Nat) (nonce : Nat)
  | getMeasurements (index : Nat) (nonce : Nat)
  | spdmUnsupportedRequest (code : Nat)
  -- further pins, links and mailboxes
  | coldResetNAssert
  | perstNDeassert (n : Nat)
  | pcieLinkTrained (n : Nat)
  | pf1FlrReadiness
  | ingestLinkUp (q : Nat)
  | delayResp (port domain identity delay : Nat)
  | hawserFcsFailure (p : Nat) (fec : Bool)
  | forkResume (l : Loc)
  | secMboxDone (boot : BootIn)
  | registerRead (f : Func) (off size : Nat)
  | ppsOutFall
deriving DecidableEq, Repr

end Sys2Proof
end

