-- ==== Sys2Proof/Decode.lean ====
section
/-! DEFINITION. The command a word of the operation table spells. No row of the table has bits: a command comes with its
operands from outside the device, so no word spells one. -/

namespace Sys2Proof

/-- No row of the table gives bits. -/
def decodeTableWord (_nbits _w : Nat) : Option Instr := none

end Sys2Proof
end

