-- ==== Sys2Proof/Config.lean ====
section
/-! DEFINITION. What the shipped part fixes (FEAT registers, R203; table constants of the manual) and the free values:
opaque constants that stand where the manual gives no value. Nothing in Lean can evaluate a free value. -/

namespace Sys2Proof.Config

/-! ### Free values -/

/-- The words of the security engine's DRBG (R603, R609): fresh random bits, one draw per argument. -/
opaque drbg : Nat → BitVec 64

/-- What a byte of device memory holds after its dirty cache line was dropped (R582): which earlier contents had been
written back is private to the cache's replacement (R385). -/
opaque lostByte : Nat → Byte

/-- The nominal increment of device time is 2/3 ns, held with a 32-bit binary fraction (R42 ff., "Device time"); which of
the two neighbouring fractions the part holds is not stated. -/
opaque incrementUp : Bool

/-- The smaller rate at which the last microsecond of a correction is slewed (R47), in parts per thousand million. -/
opaque fineSlewPpb : Nat

/-- The number R564 leaves private: the UNIT_INDEX of a mesh or attach link. -/
opaque linkNumber : Nat → Nat

/-- The length of the device's certificate chain (R596). -/
opaque certLength : Nat

/-- The bytes of the device's certificate chain, from the one-time store (R596). -/
opaque certByte : Nat → Byte

/-- The SHA-384 of an override record, whose byte layout the manual leaves private (R86, R594): its serial, set hash and
version pairs. -/
opaque overrideHash : Nat → Nat → List Nat → BitVec 384

/-- The body of an SPDM 1.2 response whose bytes the DMTF specification, not the manual, lays out (R595). -/
opaque spdmByte : Nat → Nat → Byte

/-- The part's identity signature over a transcript (R596): the draw, then the byte. -/
opaque signByte : Nat → Nat → Byte

/-- The set points, in 0.25 mV, of VDDC_HBM (0) and VDDQ_HBM (1): the levels JEDEC HBM4 sets for the fitted stacks
(02, "Supply rails"). -/
opaque hbmRail : Nat → Nat

/-- How many 64-byte accesses of a transfer reach HBM on a stack (R385, R403): replacement is private to the cache. The
draw, then the stack. -/
opaque hbmAccesses : Nat → Nat → Nat

/-- Whether the bank of a failing row still has a spare row, when some banks of its pseudo-channel have one and some have
none; and whether it is the bank with fewest: which rows share a bank is private (R362, R368). -/
opaque bankSpare : Nat → Bool
opaque fewestBank : Nat → Bool

/-- What the record of an epoch without any reference strip holds as its reference source and EXPOSURE_TS (R452, R454). -/
opaque noReference : Nat → Nat

/-- The minor that PART_DRV_CLASS holds for an interface whose majors differ, where none is agreed (R81, R99): the
driver's version, then CTL's, each as major and minor. -/
opaque disagreedMinor : Nat → Nat → Byte

/-! ### The shipped part (R203) -/

def contexts : Nat := 4
def bricks : Nat := 16
def obBytes : Nat := 32768 * 1024
def amBytes : Nat := 16384 * 1024
def maxMN : Nat := 1024
def mnGranule : Nat := 32
def kGranule : Nat := 32
def maxDilation : Nat := 4
def maxFilter : Nat := 15
def kvPageTokens : Nat := 256
def reuseTiles : Nat := 4096
def maxBundleBytes : Nat := 64 * 2 ^ 20
def maxLog2V : Nat := 13
def deadlineSlots : Nat := 256
def usableGiB : Nat := 372
def gib : Nat := 2 ^ 30
/-- First device-space offset that is not backed (R363). -/
def deviceEnd : Nat := usableGiB * gib

end Sys2Proof.Config
end

