-- ==== Sys2Proof/Machine/Types.lean ====
section
/-! DEFINITION. The records the machine's state is made of. -/

namespace Sys2Proof.Machine

/-! ### Memory -/

/-- A byte memory (device memory, OB or AM). `cells` lists the bytes that are not zero, by strictly rising address:
an unlisted byte reads as zero (R205, R375). `written` is the set of granules whose written bit is set (R204, R373),
`poison` the set of 64-byte locations that are poisoned (R366, R646). -/
structure Mem where
  cells : List Host.Cell
  written : List Nat
  poison : List Nat
deriving DecidableEq, Repr

/-! ### Lists, contexts and streams -/

/-- A 32-byte tile descriptor (R175). -/
structure TileDesc where
  base : Nat
  rows : Nat
  cols : Nat
  rowStride : Nat
  batchStride : Nat
  loopStride : Int
  mem : Nat
  fmt : Nat
  loopSel : Nat
  argSel : Nat
  scaleOff : Nat
deriving DecidableEq, Repr

/-- A loop register (R190, R193): the stream that holds it, its iteration index and the count read by LOOP_BEGIN. -/
structure LoopReg where
  holder : Option Nat
  idx : Nat
  count : Nat
deriving DecidableEq, Repr

/-- A finished output block handed to CX (R260). -/
structure CxBlock where
  member : Nat
  brow : Nat
  bcol : Nat
  rows : Nat
  cols : Nat
  fmt : Nat
  data : List Nat
deriving DecidableEq, Repr

/-- Bytes a command stores: memory (0 OB, 1 AM, 2 device), the brick, the address, the bytes. -/
structure Store where
  mem : Nat
  brick : Nat
  addr : Nat
  bytes : List Byte
deriving DecidableEq, Repr

/-- One output block's effects at E5 to E8 (R248): its linear index, the stores, the block streamed to CX, whether it
counts as eligible and as reused. -/
structure BlockOut where
  index : Nat
  stores : List Store
  cx : Option CxBlock
  eligible : Bool
  reused : Bool
deriving DecidableEq, Repr

/-- A tile operand as a command read it at issue (R177): register, effective base, descriptor. -/
structure Opnd where
  reg : Nat
  base : Nat
  desc : TileDesc
deriving DecidableEq, Repr

/-- What a command that is held inside its execution still has to do: pin further slots (R310), fork further slots
(R315), hand over blocks (R261; `fail` is the code and
address its next block would fault with), wait for
remote frames, perhaps with pages pinned (R480, R312), for the other participants (R489), or for the commands of
other streams (R188). `tiles` are the tile registers as it read them at issue (R177), `far` what it has read from another chip, `spl` the splice header. -/
inductive HeldOp where
  | pinAttn (o : AttnF) (tiles : List (Nat × TileDesc)) (far : Mem) (spl parity slot : Nat) (pinned : List Nat)
  | pinGather (o : PagesF) (tiles : List (Nat × TileDesc)) (spl parity slot : Nat) (pinned : List Nat)
  | fork (o : PagesF) (spl slot : Nat)
  | e8 (queue : Nat) (blocks : List BlockOut) (fail : Option (Nat × Nat))
  | remote (spl : Nat) (pinned : List Nat)
  | coll (need : Nat) (taken : List CxBlock)
  | fence (waiting : List Nat)
deriving DecidableEq, Repr

/-- What a stream does: nothing, held at C3 since a device time (R184, R200), or a command held in its execution, with
the tile registers it names. -/
inductive StreamBusy where
  | idle
  | c3 (since : Nat)
  | exec (c : Cmd) (regs : List Nat) (h : HeldOp)
deriving DecidableEq, Repr

/-- One loop a stream is in: the loop register, and whether its body is being passed over (R191). -/
structure LoopFrame where
  lc : Nat
  skip : Bool
deriving DecidableEq, Repr

/-- One instruction stream (R160): whether it has passed its last command, what holds it, its loops, innermost first. -/
structure StreamS where
  ended : Bool
  busy : StreamBusy
  loops : List LoopFrame
deriving DecidableEq, Repr

/-- A strand's 128-bit state (R343). -/
structure Strand where
  s0 : DWord
  s1 : DWord
deriving DecidableEq, Repr

/-- One context of a brick while a list holds it (R159, R207). -/
structure Ctx where
  owner : Nat
  part : Nat
  rank : Nat
  strict : Bool
  obBase : Nat
  obSize : Nat
  amBase : Nat
  amSize : Nat
  reuseCount : Nat
  tiles : List (Nat × TileDesc)
  flags : List Nat
  counters : List Nat
  loops : List LoopReg
  preds : List Bool
  args : List Nat
  streams : List StreamS
  cxIn : List (List CxBlock)
  seedState : Strand
  strands : List (Nat × Strand)
deriving DecidableEq, Repr

/-- A bundle deadline entry (R170), with the ranks that have completed its command for the last time. -/
structure DlnEntry where
  stream : Nat
  command : Nat
  offset : Nat
  done : List Nat
deriving DecidableEq, Repr

/-- A command list from its start to its completion (R163 to R165, R273). -/
structure RunningList where
  owner : Nat
  part : Nat
  ctx : Nat
  bricks : List Nat
  startTime : Nat
  statsAddr : Nat
  reusable : Bool
  dlns : List DlnEntry
  lastActive : Nat
  eligible : Nat
  reused : Nat
  voids : Nat
deriving DecidableEq, Repr

/-! ### Rings -/

/-- How a descriptor ended (R140). -/
structure Ending where
  status : Nat
  detail : Nat
  code : Nat
  result : Nat
  degraded : Bool
  needRec : Bool
  errIndex : Option Nat
  time : Nat
deriving DecidableEq, Repr

/-- A fetched submission descriptor (R134): the index it was fetched at, its fields, the DETAIL it is MALFORMED with, if
any, whether its ring stopped before it started (R151, R639), and whether it was fetched while step reuse was off (R87).
A deadline of its own that it missed while it was held marks it `missed` or ends it with `aborted` (R131, R139). -/
structure Desc where
  index : Nat
  type : Nat
  flags : Nat
  tag : Nat
  dlnMode : Nat
  chain : Nat
  deadline : Nat
  body : List Byte
  fetchTime : Nat
  malformed : Option Nat
  stopped : Bool
  plain : Bool
  missed : Bool
  aborted : Option Ending
deriving DecidableEq, Repr

/-- The descriptor in flight on a ring: running while `out` is none, due when it is set; `missed` marks a
report-only deadline miss (R139). -/
structure InFlight where
  desc : Desc
  out : Option Ending
  missed : Bool
deriving DecidableEq, Repr

/-- Ring states (R151). -/
inductive RingState where
  | disabled | enabled | error
deriving DecidableEq, Repr

/-- A submission ring (R126 to R131, R151): its registers, the control word it was enabled with, the producer index last
read, the count fetched F, the count completed, the fetched descriptors that have not started, the one in flight. -/
structure Sq where
  base : Nat
  ctrl : Nat
  inUse : Nat
  state : RingState
  reason : Nat
  producer : Nat
  fetched : Nat
  completed : Nat
  queue : List Desc
  cur : Option InFlight
  disabling : Bool
  restart : Bool
deriving DecidableEq, Repr

/-- A completion ring with its moderation (R131, R148, R149). -/
structure Cq where
  base : Nat
  ctrl : Nat
  enabled : Bool
  produced : Nat
  consumer : Nat
  irq : Nat
  unsignalled : Nat
  oldest : Nat
deriving DecidableEq, Repr

/-- One MSI-X table entry (R147). -/
structure MsixEntry where
  addr : Nat
  data : Nat
  masked : Bool
  pending : Bool
deriving DecidableEq, Repr

/-- An error record before its ring fields are known (R144, R565). -/
structure ErrRec where
  code : Nat
  severity : Nat
  nested : Bool
  escalated : Bool
  permanent : Bool
  retired : Bool
  copy : Bool
  die : Nat
  kind : Nat
  index : Nat
  time : Nat
  part : Nat
  sq : Nat
  tag : Nat
  sqIndex : Nat
  command : Nat
  engine : Nat
  queue : Nat
  chain : Nat
  addr : Nat
  lastTile : Nat
  dropped : Nat
  deadline : Nat
  bucket : Nat
  threshold : Nat
  retries : Nat
  queued : Nat
  detail : List Byte
  seq : Nat
deriving DecidableEq, Repr

/-- A function page (R110, R151, R632). -/
structure Page where
  locked : Bool
  ifver : Nat
  ifverSet : Bool
  cls : Nat
  dbBase : Nat
  errBase : Nat
  errCtrl : Nat
  errEnabled : Bool
  errProduced : Nat
  errConsumer : Nat
  errHeld : List ErrRec
  errDropped : Nat
  errSeq : Nat
  wrIgnored : Nat
  wrLast : Nat
  sqs : List (Nat × Sq)
  cqs : List (Nat × Cq)
  msix : List (Nat × MsixEntry)
  sweepInterval : Nat
  sweepAt : Nat
  changedAt : Nat
  lowWords : List (Nat × Nat)
  highLatch : List (Nat × Nat)
deriving DecidableEq, Repr

/-- An open chain (R137, R141): opening ring and index, whether a descriptor of it did not complete OK, whether its
closing descriptor was fetched. -/
structure Chain where
  part : Nat
  id : Nat
  sq : Nat
  sqIndex : Nat
  policy : Nat
  aborted : Bool
  closing : Bool
  members : Nat
deriving DecidableEq, Repr

/-! ### Deadlines -/

/-- What a deadline slot is bound to (R577): a descriptor, a chain, or a bundle entry of a list. -/
inductive DlnItem where
  | desc (sq index : Nat)
  | chain (id : Nat)
  | entry (sq i : Nat)
deriving DecidableEq, Repr

/-- A deadline slot that is not free (R575): `armed` holds the device time it was armed at. A report-only miss keeps
the slot until its item ends (R580). `offset` is the DEADLINE of a mode 3 descriptor, or a bundle entry's COMMAND. -/
structure Slot where
  part : Nat
  kind : Nat
  item : DlnItem
  policy : Nat
  ring : Nat
  sqIndex : Nat
  bySq : Nat
  byIndex : Nat
  tag : Nat
  chain : Nat
  offset : Nat
  stream : Nat
  exposure : Nat
  armed : Option Nat
  deadline : Nat
  missed : Bool
deriving DecidableEq, Repr

/-! ### Errors and units -/

/-- The descriptor whose completion waits for an error's record: the one in flight on a ring, or one still held (R562). -/
inductive ErrScope where
  | none
  | desc (f sq : Nat)
  | queued (f sq index : Nat)
deriving DecidableEq, Repr

/-- A detected error (R566): its record, the unit it strikes, what completion waits for it. -/
structure ErrEvt where
  rec0 : ErrRec
  unit : UnitKey
  row : Nat
  scope : ErrScope
deriving DecidableEq, Repr

/-- A unit's repair state (R584, R587, R644). -/
inductive UnitState where
  | inService | retiring | retired | readmitting
deriving DecidableEq, Repr

/-- A leaky bucket (R557): its count and the device time up to which it has leaked. -/
structure Bucket where
  count : Nat
  at_ : Nat
deriving DecidableEq, Repr

/-- Where the one readmission in progress stands (R587): self-test, probation, or waiting for the lists that ran when
probation ended. -/
inductive ReadmitStep where
  | selfTest
  | linkUp
  | probation (until_ : Nat)
  | handOver (lists : List Nat)
deriving DecidableEq, Repr

/-- The readmission in progress (R587). -/
structure Readmit where
  unit : UnitKey
  step : ReadmitStep
deriving DecidableEq, Repr

/-- An entry of the cache's node table (R384); HOME is the node number mod 8. -/
structure NodeEnt where
  current : Nat
  forward : Bool
  donor : Nat
  rank : Nat
deriving DecidableEq, Repr

/-- A slice movement waiting or running (R394, R399, R400): the slice, whether it is a readmission, and the node moves
still to do with their recipients. -/
structure SliceMove where
  slice : Nat
  back : Bool
  nodes : List Nat
  turn : Nat
deriving DecidableEq, Repr

/-- A pseudo-channel migration or copy-back of one stack (R369 to R372): remaining chunks in order. -/
structure Migration where
  pc : Nat
  back : Bool
  chunks : List Nat
deriving DecidableEq, Repr

/-- A remap entry (R369): slot, source pseudo-channel, chunk, all within one stack. -/
structure RemapEnt where
  stack : Nat
  slot : Nat
  src : Nat
  chunk : Nat
deriving DecidableEq, Repr

/-! ### Partitions and windows -/

/-- A partition's allocation (R113 to R116, R638): the settings in force are those latched at allocation. -/
structure Partition where
  allocated : Bool
  clearing : Bool
  reason : Nat
  resetting : Bool
  flr : Bool
  bricks : Nat
  base : Nat
  size : Nat
  cache : Nat
  bwr : Nat
  quota : Nat
  pinReason : Nat
  pinEntry : Nat
  keyless : Bool
deriving DecidableEq, Repr

/-- An entry of the address window table (R377): whole GiB, the generation of the XTS keys in its key slot (R609), none
when unencrypted, and whether those keys were zeroised, so that the window is KEYLESS (R607, R610, R612). -/
structure Window where
  valid : Bool
  base : Nat
  limit : Nat
  owner : Nat
  key : Option Nat
  lost : Bool
deriving DecidableEq, Repr

/-- One bandwidth regulator (R402, R403): tokens and the two BWR_STAT counts. -/
structure Regulator where
  tokens : Nat
  charged : Nat
  borrowed : Nat
deriving DecidableEq, Repr

/-! ### Ingest -/

/-- A frame gathered within an epoch (R427, R430): source, its first strip's EXPOSURE_TS, the strips received, those
marked BAD, arrival times, and its TAB extent. -/
structure Frame where
  source : Nat
  ts : Nat
  strips : List Nat
  badStrips : List Nat
  expected : Nat
  first : Nat
  last : Nat
  extent : Nat
  size : Nat
deriving DecidableEq, Repr

/-- Epoch states with life (R429); FREE, WRITTEN and ABANDONED leave no record. -/
inductive EpochState where
  | gathering | closing | fusing
deriving DecidableEq, Repr

/-- What the fusion unit reached for an epoch (R433, R454). -/
structure FusionOut where
  level : Nat
  statuses : List Nat
  contested : Nat
  unresolved : Nat
  outvoted : Nat
  covered3 : List Nat
  rejected : List Nat
  blockMap : List Nat
deriving DecidableEq, Repr

/-- An open epoch (R429 to R434). -/
structure Epoch where
  exposure : Nat
  state : EpochState
  tOpen : Nat
  stamp : Nat
  tClose : Nat
  reason : Nat
  ref : Option Nat
  frames : List Frame
  out : Option FusionOut
deriving DecidableEq, Repr

/-- What a stream remembers of a recently closed exposure (R430, R456); level 5 means abandoned. -/
structure ClosedEpoch where
  exposure : Nat
  level : Nat
  ts : Nat
  written : Bool
deriving DecidableEq, Repr

/-- A fusion stream's running state (R423 to R431, R455): `overflown` names the frames that could not be reserved, by
exposure and source. Whether it is enabled is the EN bit of its first word. -/
structure IngStream where
  reason : Nat
  halted : Bool
  late : Nat
  refConflict : Nat
  epochs : List Epoch
  closed : List ClosedEpoch
  overflown : List (Nat × Nat)
deriving DecidableEq, Repr

/-- An ingest port's running state (R408, R410, R459, R460). `handOver` is set from a readmission's hand-over on: the
arrival of its first accepted strip, 0 while none has come. -/
structure IngPort where
  linkUp : Bool
  drops : List Nat
  handOver : Option Nat
deriving DecidableEq, Repr

/-! ### Hawser -/

/-- Hawser port states (R473). -/
inductive PortSt where
  | down | training | binding | up | held | retired | probation
deriving DecidableEq, Repr

/-- A frame outside the sequence that a pause holds back (R471): chip, lane, type, job, header, data. -/
structure TxHeld where
  chip : Nat
  lane : Nat
  type : Nat
  job : Nat
  op : List Byte
  data : List Byte
deriving DecidableEq, Repr

/-- A Hawser port (R472, R475, R479). -/
structure HawPort where
  state : PortSt
  retry : Bool
  paused : List Nat
  replayCount : Nat
  authFail : Nat
  replays : Nat
  retrans : Nat
  bindAt : Nat
  probed : List Nat
  txCount : Nat
  held : List TxHeld
deriving DecidableEq, Repr

/-- A frame sent and not yet acknowledged (R476, R477). -/
structure TxFrame where
  psn : Nat
  type : Nat
  owner : Nat
  tag : Nat
  job : Nat
  op : List Byte
  data : List Byte
  attempts : Nat
deriving DecidableEq, Repr

/-- A connection: one lane toward one chip (R476). -/
structure Conn where
  chip : Nat
  lane : Nat
  plane : Nat
  txPsn : Nat
  unacked : List TxFrame
  rxNext : Nat
  rxOwed : Nat
  rxSince : Nat
deriving DecidableEq, Repr

/-- A command waiting on another chip (R480, R483): the queue it holds, its tile registers as it read them at issue,
the tags of the frames it still waits for, the address each read asked for, the data that has come back, and whether
its results are on their way. -/
structure RemoteOp where
  cmd : Cmd
  instr : Instr
  owner : Nat
  tiles : List (Nat × TileDesc)
  waiting : List Nat
  reads : List (Nat × Nat)
  far : Mem
  writing : Bool
deriving DecidableEq, Repr

/-- A collective's key (R488). -/
structure CollKey where
  group : Nat
  tag : Nat
  rank : Nat
  list : Nat
deriving DecidableEq, Repr

/-- What a participant states in its handshake (R489). -/
structure CollShake where
  op : Nat
  redop : Nat
  log2V : Nat
  root : Nat
  rows : Nat
  cols : Nat
  fmt : Nat
  yRows : Nat
  yCols : Nat
  yFmt : Nat
  leaf : Nat
  leaves : Nat
  ranks : Nat
  crc : Nat
deriving DecidableEq, Repr

/-- One participant of an instance: chip and rank, its handshake, its PRED_IN when known, and for a local one the
command it issued, its operands as read at issue, and whether its data has gone into the instance. -/
structure CollMember where
  chip : Nat
  rank : Nat
  shake : CollShake
  pred : Option Bool
  cmd : Option (Cmd × CollF)
  src : Option Opnd
  dst : Option Opnd
  given : Bool
deriving DecidableEq, Repr

/-- A fragment of a block of a leaf, a tree node or a participant's source (R474, R493): FP32 encodings. -/
structure CollNode where
  level : Nat
  index : Nat
  block : Nat
  frag : Nat
  data : List Nat
deriving DecidableEq, Repr

/-- An open collective (R486 to R491): its chips in descriptor order, none before a local command has named them;
`agreed` once the handshake is complete; `progress` is when it last went on. -/
structure Coll where
  key : CollKey
  chips : List Nat
  rankwise : Bool
  members : List CollMember
  agreed : Bool
  nodes : List CollNode
  progress : Nat
deriving DecidableEq, Repr

/-! ### The warden -/

/-- A sensor's history (R522, R523): its last five valid samples, newest first, the filtered value, the run of
invalid samples. -/
structure Sensor where
  samples : List Int
  y : Int
  invalid : Nat
  failed : Bool
  lowSince : Option Nat
  emergSince : Option Nat
deriving DecidableEq, Repr

/-- A pair of thermal sensors (R525 to R528). -/
structure Pair where
  since : Option Nat
  d0 : Int
  n0 : Int
  lost : Bool
  agreeSince : Option Nat
  kept : Option Nat
deriving DecidableEq, Repr

/-- A brick's level control (R531 to R537): present level, thermal, power and voltage caps, step-up counters, and the
level a change under way leads to. -/
structure BrickPower where
  level : Nat
  thermalCap : Nat
  thermalUp : Nat
  powerCap : Nat
  powerUp : Nat
  voltCap : Nat
  voltGood : Option Nat
  next : Option Nat
deriving DecidableEq, Repr

/-- Power states (R540). -/
inductive PwrSt where
  | run | idle | doze | warden | off
deriving DecidableEq, Repr

/-- Why a brick's queued stores are draining (R582). -/
inductive DrainWhy where
  | reset (part : Nat)
  | doze
  | retire
deriving DecidableEq, Repr

/-- A brick: OB, AM, and the drain in progress (R204, R582). -/
structure BrickS where
  ob : Mem
  am : Mem
  drain : Option DrainWhy
  powered : Bool
deriving DecidableEq, Repr

/-- A last-gasp record (R574) and its copy mark (R517). -/
structure LastGasp where
  cause : Nat
  pwr : Nat
  time : Nat
  code : Nat
  code2 : Nat
  die : Nat
  kind : Nat
  index : Nat
  powerMw : Nat
  tempMax : Int
  tempDie : Nat
  recs : List (List Byte)
  seq : Nat
  copied : Bool
deriving DecidableEq, Repr

/-! ### Security -/

/-- Lifecycle states (R597). -/
inductive Lifecycle where
  | blank | provisioned | owned | decommissioned
deriving DecidableEq, Repr

/-- An owner slot of the fuses (R591). -/
structure OwnerSlot where
  key : Nat
  valid : Bool
  revoked : Bool
deriving DecidableEq, Repr

/-- A debug token as placed (R604) with the path it came by and its signer. -/
structure Token where
  bytes : List Byte
  signer : Signer
deriving DecidableEq, Repr

/-- A link secret the engine holds (R613, R615). -/
structure LinkSecret where
  gen : Nat
  secret : Nat
deriving DecidableEq, Repr

/-- Seize status (R621). -/
inductive SeizeSt where
  | none | seizing | open_
deriving DecidableEq, Repr

/-- Device-time states (R45). -/
inductive TimeSt where
  | free | acquire | stepPending | locked | holdover | refused
deriving DecidableEq, Repr

/-- Boot outcomes (R97). -/
inductive BootOutcome where
  | inProgress | concord | tolerated | overridden | recovery | failed
deriving DecidableEq, Repr

/-- What the device as a whole is doing: held in reset, up, stopped until a cold reset with the recovery window served
(RECOVERY, FAILED, after Z5), stopped dark (R41, R55, R533, R571), or seized (R622). -/
inductive Phase where
  | held | up | recovery | failed | stopped | dark | seized
deriving DecidableEq, Repr

/-- A flash mailbox command in progress (R636). -/
inductive FlashCmd where
  | read (addr : Nat)
  | erase (addr : Nat)
  | program (addr : Nat) (data : List Byte)
deriving DecidableEq, Repr

/-- An entry written to the boot-log ring of the flash (R648). -/
inductive LogEntry where
  | boot (stage outcome aCause bCause : Nat)
  | seizeRefused (time : Nat)
  | failure (stage : Nat)
  | lastGasp (g : LastGasp)
deriving DecidableEq, Repr

/-! ### Outputs -/

/-- What the device sends or writes outside itself, in the order it does so. -/
inductive Out where
  | completion (f cq index tag sq flags status detail code sqHead errIndex time result : Nat)
  | errRecord (f index : Nat) (r : ErrRec)
  | msix (f vec : Nat)
  | hostWrite (f port addr : Nat) (data : List Byte)
  | hostRead (f port addr len : Nat)
  | regRead (f : Func) (off size : Nat) (v : DWord)
  | haw (port chip lane type txc psn ack job : Nat) (resent : Bool) (op data : List Byte)
  | lldp (port : Nat)
  | pfc (port prio : Nat) (on : Bool)
  | eth (port : Nat) (ipv6 : Bool)
  | spdm (code : Nat) (body : List Byte)
  | i3cInterrupt
  | avs (rail mv4 : Nat)
  | ptpDelayReq (port : Nat)
  | traceStart | traceStop | counterSnapshot
deriving DecidableEq, Repr

end Sys2Proof.Machine
end

