-- ==== Sys2Proof/Machine/State.lean ====
section
/-! DEFINITION. The machine's state: every register, ring, table, buffer, counter, mode and pin the manual gives the
device, and the queue of commands that wait. Each field's docstring names its rule and its value at reset. -/

namespace Sys2Proof.Machine

/-- Fuses and fixed identity (R591, R3). They outlive every reset. -/
structure Fuses where
  /-- Mode fuse: true for VF-4016-S (R3, R4). -/
  solitary : Bool
  /-- Lifecycle state (R597). -/
  lifecycle : Lifecycle
  /-- Revocation bits of the four image keys (R591). -/
  revoked : List Bool
  /-- Owner slots (R591). -/
  owners : List OwnerSlot
  /-- Identity seed fused to all ones (R597). -/
  seedGone : Bool
  /-- Certificate chain written to the one-time store (R596, R597). -/
  certified : Bool
  /-- Chip serial (ID_SERIAL). -/
  serial : Nat
  /-- ID_SILICON_REV, ID_ROM_VERSION, ID_ENGINE_GEN and ID_ROM_IFACE (18, ID_): fixed per silicon revision. Firmware
  entries name ID_ROM_VERSION as the ROM revision (R79); ID_ROM_IFACE holds the versions of R78. -/
  siliconRev : Nat
  romVersion : Nat
  engineGen : Nat
  romIface : Nat
deriving DecidableEq, Repr

/-- External signals (02, "External signals"). True is high. -/
structure PinS where
  pwrGood : Bool
  coldResetN : Bool
  /-- PERST0_N, PERST1_N. -/
  perstN : List Bool
  fatalN : Bool
  alertN : Bool
  thermTripN : Bool
  ppsOut : Bool
  /-- Reference clocks declared lost and not yet usable again (R41, R42). -/
  lostClks : List RefClk
deriving DecidableEq, Repr

/-- Device time (R42 to R51). -/
structure TimeS where
  /-- Nanoseconds (R10). -/
  now : Nat
  /-- Fraction below a nanosecond, in units of 2^-32 ns. -/
  frac : Nat
  /-- State (R45). -/
  st : TimeSt
  /-- Correction still to slew, in units of 2^-32 ns (R47). -/
  slewLeft : Int
  /-- The step held in STEP_PENDING, ns (R45, R46). -/
  step : Nat
  /-- Device time is stepped at most once after a cold reset (R46). -/
  stepped : Bool
  /-- Offset recorded at the last PPS edge (R51). -/
  ppsOffset : Int
  /-- When PTP_PPS_OUT rose (R51). -/
  ppsRose : Nat
deriving DecidableEq, Repr

/-- The PTP slave clock (R412). -/
structure PtpS where
  master : Option PtpMaster
  delay : Option Nat
  lastSync : Nat
deriving DecidableEq, Repr

/-- What the boot left (R97, R80, R99, R467 ff. excepted). -/
structure BootS where
  ready : Bool
  fallback : Bool
  bankB : Bool
  sticky : Bool
  bankBInvalid : Bool
  rate64 : Bool
  outcome : BootOutcome
  aCause : Nat
  bCause : Nat
  stage : Nat
  /-- ID_IMG_VER1 to ID_IMG_VER7 (18, ID_). -/
  imgVer : List Nat
  /-- Firmware entry in use (R80). -/
  fwEntry : Option Nat
  /-- Driver entries of the concord list in use (R79). -/
  drivers : List DrvEntry
  /-- SHA-384 of the booted set's headers (R86). -/
  setHash : Nat
  /-- Version pairs of the override in force (R87, R99). -/
  overridePairs : List Nat
  /-- CTL's declared HOSTRING and ERRREC versions, laid out as PART_DRV_IFVER (R98). -/
  ctlIfver : Nat
  /-- CTL's declared OPBA version: major x 256 + minor (R168, FEAT_9). -/
  opba : Nat
  /-- The set that booted CONCORD from bank A since the last cold reset still stands there (R75). -/
  concordFromA : Bool
  /-- MTF major version in use (R95). -/
  mtfMajor : Nat
deriving DecidableEq, Repr

/-- The SPI NOR flash (R68) and its mailbox (R636). -/
structure FlashS where
  /-- Bytes that are not erased (0xFF), by rising offset. -/
  cells : List Host.Cell
  /-- Stored override records (R87). -/
  overrides : List OverrideRec
  /-- Cached training results: the serials and MTF major they carry (R95). -/
  training : Option (List Nat × Nat)
  /-- Soft row repairs recorded for hard repair (R368): pseudo-channel and row. -/
  softRepairs : List (Nat × Nat)
  /-- The boot-log ring, newest first (R648). -/
  log : List LogEntry
  /-- Per-chip sequence number of log entries (R648). -/
  logSeq : Nat
  /-- TXC bound B (R616). -/
  txcBound : Nat
  /-- The accepted link secrets, newest first, at most two (R613). -/
  secrets : List LinkSecret
  /-- SETUP_FLASH_ADDR. -/
  addr : Nat
  /-- SETUP_FLASH_BUF, bytes that are not zero. -/
  buf : List Host.Cell
  /-- Command in progress; BUSY while it is set. -/
  cmd : Option FlashCmd
  /-- SETUP_FLASH_STATUS[7:4]. -/
  result : Nat
deriving DecidableEq, Repr

/-- The Mortar dies: node table, movements, regulators, remapping (R360 to R405). -/
structure MortarS where
  nodes : List NodeEnt
  moves : List SliceMove
  /-- Regulators, Mortar die m and partition n at 16 m + n (R401). -/
  regs : List Regulator
  /-- Valid remap entries (R369). -/
  remap : List RemapEnt
  /-- Movements of each stack, oldest first (R370). -/
  migr : List (List Migration)
  /-- Spare rows left per pseudo-channel, when they differ from what training read (R368). -/
  spare : List (Nat × (Nat × Nat))
  spareAll : Nat
  spareMin : Nat
  /-- Dirty 128-byte lines, by line index (R383, R387). -/
  dirty : List Nat
  /-- Ways that pin areas keep skipping (R590): slice x 16 + way. -/
  skipWays : List Nat
  /-- Ways that retired with their slice (R560): slice x 16 + way. -/
  withSlice : List Nat
  /-- Stacks throttled by temperature (R531). -/
  throttled : List Nat
  /-- The scrubber's next location (R367). -/
  scrubAt : Nat
deriving DecidableEq, Repr

/-- Error handling, buckets and repair (R552 to R590). -/
structure RepairS where
  inHand : Option ErrEvt
  queue : List ErrEvt
  /-- When handling last made progress (R572). -/
  handledAt : Nat
  /-- Leaky buckets that are not empty, by UNIT_KIND x 65536 + UNIT_INDEX (R557). -/
  buckets : List (Nat × Bucket)
  /-- HBM row buckets, by pseudo-channel and row (R558). -/
  rowBuckets : List ((Nat × Nat) × Bucket)
  /-- Units not in service (R584). -/
  units : List (UnitKey × UnitState)
  readmit : Option Readmit
  /-- ERR_READMIT_STATUS (R586). -/
  status : Nat
  /-- ERR_WARM_LOST (R582). -/
  warmLost : Option Nat
  /-- ERR_QUERY (R644). -/
  query : Nat
  /-- First 16 bytes of the last 8 error records, newest first (R574). -/
  lastRecs : List (List Byte)
  /-- Errors dropped for want of queue room, per function (R568). -/
  dropped : List (Nat × Nat)
deriving DecidableEq, Repr

/-- The ingest die (R408 to R462). -/
structure IngS where
  ports : List IngPort
  /-- ING_RULE_BAD (R420): the rules whose bit is set. -/
  ruleBad : List Nat
  /-- ING_CLS_MULTI counts that are not zero, by rule (R421). -/
  clsMulti : List (Nat × Nat)
  streams : List IngStream
deriving DecidableEq, Repr

/-- The Hawser dies (R463 to R498). -/
structure HawS where
  /-- HAW_INST_STATUS: own chip number and record state (R469). -/
  chip : Nat
  instState : Nat
  instId : Nat
  chips : List Nat
  bindings : List Binding
  ports : List HawPort
  conns : List Conn
  /-- Planes in service per chip (R492). -/
  planes : List (Nat × List Nat)
  remote : List RemoteOp
  nextTag : Nat
  colls : List Coll
  secrets : List LinkSecret
  /-- TXC epoch, end of the reservation, and whether the epochs are exhausted (R616). -/
  epoch : Nat
  epochEnd : Nat
  exhausted : Bool
  jobReason : Nat
  jobPart : Nat
  reserved : Nat
deriving DecidableEq, Repr

/-- The Golow warden (R517 to R550). -/
structure WdnS where
  st : PwrSt
  /-- A transition is in progress (PWR_STATE[3]). -/
  busy : Bool
  sensors : List Sensor
  pairs : List Pair
  bricks : List BrickPower
  /-- Course rail set points, 0.25 mV (R534). -/
  course : List Nat
  /-- Die effective temperatures at the last decision (R526). -/
  eff : List Int
  /-- Consecutive decision periods at or above 110 C, per die (R531). -/
  hot : List Nat
  /-- Dies that cap their bricks at P3 (R528, R529). -/
  capP3 : List Nat
  /-- The last package power estimates, newest first, at most 1,000, in mW (R538). -/
  power : List Nat
  /-- Last good current readings per rail select (R550). -/
  lastMa : List Nat
  budgetMiss : Nat
  budgetTold : Bool
  idleSince : Nat
  dozeSince : Nat
  railReq : Nat
  reqReason : Nat
  /-- A wake event is latched (W1 of R547). -/
  waking : Bool
  gasp : List LastGasp
  gaspSeq : Nat
  /-- The AVSBus transaction in progress: rail, set point in 0.25 mV, attempts made (R549, R550). -/
  avs : Option (Nat × Nat × Nat)
  /-- Dies in a thermal episode, from 97 C until below 95 C; and dies at or above 105 C (R531). -/
  hotDies : List Nat
  crit : List Nat
  /-- Last power of each rail select, in uW (R536). -/
  railUw : List Nat
deriving DecidableEq, Repr

/-- The security engine (R591 to R616). -/
structure SecS where
  /-- MR0 to MR8, as 384-bit numbers (R594). -/
  mrs : List Nat
  level : Nat
  cause : Nat
  nonce : BitVec 64
  /-- The token last placed by each path (R605). -/
  mboxToken : Option Token
  jtagToken : Option Token
  mboxBuf : List Host.Cell
  /-- Result a mailbox command will report (R642); BUSY while it is set. -/
  mboxCmd : Option Nat
  mboxStatus : Nat
  /-- The fuses as an accepted lifecycle record left them: they govern from the cold reset that follows (R599). -/
  fused : Option Fuses
  keyGen : Nat
deriving DecidableEq, Repr

/-- Debug facilities (R618 to R627). -/
structure DbgS where
  seize : SeizeSt
  seizeTime : Nat
  refused : Nat
  tracing : Bool
  /-- Debug counters that are not zero (DBG_CNTn). -/
  counters : List (Nat × Nat)
deriving DecidableEq, Repr

/-- Who stops a run in this model: nothing. Every command of the table has an effect that the manual gives, so this
type has no constructor (log entry 1). -/
inductive Fault where
deriving DecidableEq, Repr

/-- Refusals. `notModelled` is raised by an arm of `exec` whose command has no meaning yet; no arm is. Safe. -/
inductive Refusal where
  | notModelled (mnemonic : String)
deriving DecidableEq, Repr

/-- The device. -/
structure State where
  /-- Commands that wait, first in, first out. Reset: empty. -/
  pending : List Instr
  /-- What the device has sent or written outside itself, newest first. Reset: empty. -/
  outs : List Out
  /-- Free values drawn so far: the model's own counter, not the manual's. Reset: 0. -/
  free : Nat
  /-- What the device as a whole is doing. Reset: held in reset (R59). -/
  phase : Phase
  fuses : Fuses
  pins : PinS
  time : TimeS
  ptp : PtpS
  boot : BootS
  flash : FlashS
  /-- RW and RWL words of PF0 BAR0 that differ from their reset value, by offset (R629). Reset: empty. -/
  regs : List (Nat × Word)
  /-- Low words written and not yet taken, by function x 2^28 + offset (R630). Reset: empty. -/
  lowWords : List (Nat × Word)
  /-- High words latched by a read of the low word, by function x 2^28 + offset (R630). Reset: empty. -/
  latches : List (Nat × Word)
  /-- Device-wide SETUP_LOCK (R634). Reset: 0. -/
  locked : Bool
  /-- SETUP_WR_IGNORED (R632). Reset: 0. -/
  wrIgnored : Nat
  /-- SETUP_WR_LAST (R632). Reset: 0. -/
  wrLast : Nat
  /-- Partitions 0 to 15 (R113). -/
  parts : List Partition
  /-- Function pages of PF0 and VF1 to VF15 (R110). -/
  pages : List Page
  /-- PF1 is resetting, or HIO1's link is down: its copies fault with this code (R156, R158). -/
  hio1Down : Option Nat
  /-- HIO0's link is trained (R90, R158). -/
  hio0Up : Bool
  /-- VF Enable of PF0 (R155). -/
  vfEnable : Bool
  chains : List Chain
  /-- Deadline slots that are not free, by slot number (R575). -/
  slots : List (Nat × Slot)
  /-- Lists from their start to their completion. -/
  lists : List RunningList
  /-- Contexts held by lists, by brick x 4 + context (R159). -/
  ctxs : List (Nat × Ctx)
  bricks : List BrickS
  /-- Device memory, as the Mortar coherence point shows it (R382). -/
  mem : Mem
  windows : List Window
  /-- MEM_RESV_STATUS (R378). -/
  resvStatus : Nat
  mortar : MortarS
  repair : RepairS
  ing : IngS
  haw : HawS
  wdn : WdnS
  sec : SecS
  dbg : DbgS
deriving DecidableEq, Repr

/-! ### Reset values -/

def Mem.empty : Mem := { cells := [], written := [], poison := [] }

def Fuses.reset : Fuses :=
  { solitary := false, lifecycle := .owned, revoked := [false, false, false, false]
    owners := [{ key := 0, valid := true, revoked := false }], seedGone := false, certified := true
    serial := 1, siliconRev := 0, romVersion := 0, engineGen := 0, romIface := 0 }

def PinS.reset : PinS :=
  { pwrGood := true, coldResetN := false, perstN := [true, true], fatalN := true
    alertN := true, thermTripN := true, ppsOut := false, lostClks := [] }

def TimeS.reset : TimeS :=
  { now := 0, frac := 0, st := .free, slewLeft := 0, step := 0, stepped := false
    ppsOffset := 0, ppsRose := 0 }

def PtpS.reset : PtpS := { master := none, delay := none, lastSync := 0 }

def BootS.reset : BootS :=
  { ready := false, fallback := false, bankB := false, sticky := false, bankBInvalid := false
    rate64 := false, outcome := .inProgress, aCause := 0, bCause := 0, stage := 0
    imgVer := [0, 0, 0, 0, 0, 0, 0], fwEntry := none, drivers := [], setHash := 0, overridePairs := []
    ctlIfver := 0, opba := 0, concordFromA := false, mtfMajor := 0 }

def FlashS.reset : FlashS :=
  { cells := [], overrides := [], training := none, softRepairs := []
    log := [], logSeq := 0, txcBound := 0, secrets := [], addr := 0, buf := [], cmd := none, result := 0 }

def Partition.reset : Partition :=
  { allocated := false, clearing := false, reason := 0, resetting := false, flr := false, bricks := 0
    base := 0, size := 0, cache := 0, bwr := 0, quota := 0, pinReason := 0, pinEntry := 0, keyless := false }

def Sq.reset : Sq :=
  { base := 0, ctrl := 0, inUse := 0, state := .disabled, reason := 0, producer := 0, fetched := 0, completed := 0
    queue := [], cur := none, disabling := false, restart := false }

def Cq.reset : Cq :=
  { base := 0, ctrl := 0, enabled := false, produced := 0, consumer := 0, irq := 0, unsignalled := 0
    oldest := 0 }

/-- An MSI-X entry at reset: masked, as PCIe defines. -/
def MsixEntry.reset : MsixEntry := { addr := 0, data := 0, masked := true, pending := false }

def Page.reset : Page :=
  { locked := false, ifver := 0, ifverSet := false, cls := 0, dbBase := 0, errBase := 0, errCtrl := 0
    errEnabled := false, errProduced := 0, errConsumer := 0, errHeld := [], errDropped := 0, errSeq := 0
    wrIgnored := 0, wrLast := 0, sqs := [], cqs := [], msix := [], sweepInterval := 500, sweepAt := 0
    changedAt := 0, lowWords := [], highLatch := [] }

def NodeEnt.reset (n : Nat) : NodeEnt :=
  { current := n % 8, forward := false, donor := 0, rank := n / 8 }

def MortarS.reset : MortarS :=
  { nodes := (List.range 256).map NodeEnt.reset, moves := []
    regs := List.replicate 128 { tokens := 0, charged := 0, borrowed := 0 }
    remap := [], migr := List.replicate 8 [], spare := [], spareAll := 0, spareMin := 0, dirty := []
    skipWays := [], withSlice := [], throttled := [], scrubAt := 0 }

def RepairS.reset : RepairS :=
  { inHand := none, queue := [], handledAt := 0, buckets := [], rowBuckets := [], units := []
    readmit := none, status := 0, warmLost := none, query := 0, lastRecs := [], dropped := [] }

def IngPort.reset : IngPort :=
  { linkUp := false, drops := List.replicate 12 0, handOver := none }

def IngStream.reset : IngStream :=
  { reason := 0, halted := false, late := 0, refConflict := 0, epochs := [], closed := [], overflown := [] }

def IngS.reset : IngS :=
  { ports := List.replicate 4 IngPort.reset, ruleBad := [], clsMulti := [], streams := List.replicate 8 IngStream.reset }

def HawPort.reset : HawPort :=
  { state := .down, retry := false, paused := [], replayCount := 0, authFail := 0, replays := 0
    retrans := 0, bindAt := 0, probed := [], txCount := 0, held := [] }

def HawS.reset : HawS :=
  { chip := 0, instState := 0, instId := 0, chips := [], bindings := [], ports := List.replicate 16 HawPort.reset
    conns := [], planes := [], remote := [], nextTag := 0, colls := [], secrets := [], epoch := 0, epochEnd := 0
    exhausted := false, jobReason := 0, jobPart := 0, reserved := 0 }

def Sensor.reset : Sensor :=
  { samples := [], y := 0, invalid := 0, failed := false, lowSince := none, emergSince := none }

def Pair.reset : Pair :=
  { since := none, d0 := 0, n0 := 0, lost := false, agreeSince := none, kept := none }

/-- A brick's level at boot: P1 (R535). -/
def BrickPower.reset : BrickPower :=
  { level := 1, thermalCap := 0, thermalUp := 0, powerCap := 0, powerUp := 0, voltCap := 0
    voltGood := none, next := none }

def WdnS.reset : WdnS :=
  { st := .run, busy := false, sensors := List.replicate 144 Sensor.reset, pairs := List.replicate 48 Pair.reset
    bricks := List.replicate 16 BrickPower.reset, course := [3520, 3520, 3520, 3520]
    eff := List.replicate 40 0, hot := List.replicate 40 0, capP3 := [], power := []
    lastMa := List.replicate 7 0, budgetMiss := 0, budgetTold := false, idleSince := 0, dozeSince := 0
    railReq := 0x3FF, reqReason := 0, waking := false, gasp := [], gaspSeq := 0, avs := none
    hotDies := [], crit := [], railUw := List.replicate 7 0 }

def SecS.reset : SecS :=
  { mrs := List.replicate 9 0, level := 0, cause := 0, nonce := 0, mboxToken := none
    jtagToken := none, mboxBuf := [], mboxCmd := none, mboxStatus := 0, fused := none, keyGen := 0 }

def DbgS.reset : DbgS := { seize := .none, seizeTime := 0, refused := 0, tracing := false, counters := [] }

def BrickS.reset : BrickS := { ob := Mem.empty, am := Mem.empty, drain := none, powered := true }

def Window.reset : Window := { valid := false, base := 0, limit := 0, owner := 0, key := none, lost := false }

/-- The device held in reset with its rails in regulation (R59): every field at its reset value, the flash erased, no
command waiting. A COLD_RESET then boots it. The values the manual does not give are those of log entries 2 and 3. -/
def State.reset : State :=
  { pending := [], outs := [], free := 0, phase := .held, fuses := Fuses.reset, pins := PinS.reset
    time := TimeS.reset, ptp := PtpS.reset, boot := BootS.reset, flash := FlashS.reset, regs := []
    lowWords := [], latches := [], locked := false, wrIgnored := 0, wrLast := 0
    parts := List.replicate 16 Partition.reset, pages := List.replicate 16 Page.reset, hio1Down := none
    hio0Up := true, vfEnable := false, chains := [], slots := [], lists := [], ctxs := []
    bricks := List.replicate 16 BrickS.reset, mem := Mem.empty, windows := List.replicate 32 Window.reset
    resvStatus := 0, mortar := MortarS.reset, repair := RepairS.reset, ing := IngS.reset, haw := HawS.reset
    wdn := WdnS.reset, sec := SecS.reset, dbg := DbgS.reset }

end Sys2Proof.Machine
end

