-- ==== Sys2Proof/Machine/Ops.lean ====
section
/-! DEFINITION. The named operations that the meanings share: byte memories, register words, outputs, ring and page
access, error detection with its buckets and queue (R557, R566 to R571), lists and their ends. -/

namespace Sys2Proof.Machine

/-- The outcome of a step of this machine. -/
abbrev Res := Host.Outcome State Fault Refusal

/-! ### Byte memories (R204, R205, R373 to R376, R646) -/

/-- Granule of the written bit in OB and AM (R204) and in device memory (R373). -/
def obGranule : Nat := 256
def devGranule : Nat := 64

/-- One byte; a byte no cell lists reads as zero (R205, R375). -/
def Mem.rd (m : Mem) (a : Nat) : Byte := mapRd 0 a m.cells

/-- `n` bytes from `a`. -/
def Mem.read (m : Mem) (a n : Nat) : List Byte :=
  let w := m.cells.filter fun c => decide (a ≤ c.1) && decide (c.1 < a + n)
  (List.range n).map fun i => mapRd 0 (a + i) w

/-- The cells of a run of bytes: zero bytes are not listed. -/
def runCells (a : Nat) : List Byte → List Host.Cell
  | [] => []
  | b :: r => if b = 0 then runCells (a + 1) r else (a, b) :: runCells (a + 1) r

/-- The keys of a sorted list in `[lo, hi)` replaced by `new`. -/
def setSplice (lo hi : Nat) (new l : List Nat) : List Nat :=
  l.filter (fun x => decide (x < lo)) ++ new ++ l.filter (fun x => decide (hi ≤ x))

/-- The cells in `[lo, hi)` replaced by `new`. -/
def cellSplice (lo hi : Nat) (new l : List Host.Cell) : List Host.Cell :=
  l.filter (fun x => decide (x.1 < lo)) ++ new ++ l.filter (fun x => decide (hi ≤ x.1))

/-- A store of bytes: it marks every granule it touches as written (R204, R375); only a store of all 64 bytes of a
location clears its poison (R366, R646). `g` is the granule. -/
def Mem.put (g : Nat) (m : Mem) (a : Nat) (bs : List Byte) : Mem :=
  if bs.length = 0 then m else
  { cells := cellSplice a (a + bs.length) (runCells a bs) m.cells
    written := setSplice (a / g) ((a + bs.length - 1) / g + 1)
      (List.range' (a / g) ((a + bs.length - 1) / g + 1 - a / g)) m.written
    poison := m.poison.filter fun p => ! (decide (a ≤ 64 * p) && decide (64 * p + 64 ≤ a + bs.length)) }

/-- A granule-aligned range put back to never written: zero, written bit and poison clear (R115, R204, R374). -/
def Mem.wipe (g : Nat) (m : Mem) (a n : Nat) : Mem :=
  { cells := cellSplice a (a + n) [] m.cells
    written := setSplice (a / g) ((a + n) / g) [] m.written
    poison := setSplice (a / 64) ((a + n) / 64) [] m.poison }

/-- A 64-byte location marked poisoned (R366, R646). -/
def Mem.poisonAt (m : Mem) (loc : Nat) : Mem := { m with poison := setIns loc m.poison }

/-- Some location of `[a, a + n)` is poisoned. -/
def Mem.poisoned (m : Mem) (a n : Nat) : Bool :=
  m.poison.any fun p => decide (a < 64 * p + 64) && decide (64 * p < a + n)

/-- Some granule of `[a, a + n)` has its written bit clear. -/
def Mem.unwritten (g : Nat) (m : Mem) (a n : Nat) : Bool :=
  decide (0 < n) && decide
    ((m.written.filter fun w => decide (a / g ≤ w) && decide (w ≤ (a + n - 1) / g)).length <
      (a + n - 1) / g + 1 - a / g)

/-- Keys of a list of pairs rise strictly. -/
def risesFst {α : Type} : List (Nat × α) → Bool
  | [] => true
  | [_] => true
  | a :: b :: r => decide (a.1 < b.1) && risesFst (b :: r)

/-- A list of numbers rises strictly. -/
def rises : List Nat → Bool
  | [] => true
  | [_] => true
  | a :: b :: r => decide (a < b) && rises (b :: r)

/-- The canonical form of a byte memory: cells by strictly rising address, none zero; sets strictly rising. -/
def Mem.wf (m : Mem) : Bool :=
  risesFst m.cells && m.cells.all (fun c => c.2 != 0) && rises m.written && rises m.poison

/-! ### Plain accessors -/

/-- Device time (R10, R44). -/
abbrev State.now (s : State) : Nat := s.time.now

/-- Something the device sends or writes outside itself. -/
def State.emit (s : State) (o : Out) : State := { s with outs := o :: s.outs }

/-- One free value drawn: the model's own counter moves on. -/
def State.drew (s : State) (n : Nat) : State := { s with free := s.free + n }

def State.page (s : State) (f : Nat) : Page := s.pages.getD f Page.reset
def State.modPage (s : State) (f : Nat) (g : Page → Page) : State := { s with pages := modAt s.pages f g }
def State.part (s : State) (n : Nat) : Partition := s.parts.getD n Partition.reset
def State.modPart (s : State) (n : Nat) (g : Partition → Partition) : State :=
  { s with parts := modAt s.parts n g }
def State.brick (s : State) (b : Nat) : BrickS := s.bricks.getD b BrickS.reset
def State.modBrick (s : State) (b : Nat) (g : BrickS → BrickS) : State :=
  { s with bricks := modAt s.bricks b g }
def Page.sq (p : Page) (n : Nat) : Sq := mapRd Sq.reset n p.sqs
def Page.cq (p : Page) (n : Nat) : Cq := mapRd Cq.reset n p.cqs
def Page.msixAt (p : Page) (v : Nat) : MsixEntry := mapRd MsixEntry.reset v p.msix
def Page.modSq (p : Page) (n : Nat) (g : Sq → Sq) : Page :=
  { p with sqs := mapSet Sq.reset n (g (p.sq n)) p.sqs }
def Page.modCq (p : Page) (n : Nat) (g : Cq → Cq) : Page :=
  { p with cqs := mapSet Cq.reset n (g (p.cq n)) p.cqs }
def Page.modMsix (p : Page) (v : Nat) (g : MsixEntry → MsixEntry) : Page :=
  { p with msix := mapSet MsixEntry.reset v (g (p.msixAt v)) p.msix }
def State.sq (s : State) (f n : Nat) : Sq := (s.page f).sq n
def State.modSq (s : State) (f n : Nat) (g : Sq → Sq) : State := s.modPage f fun p => p.modSq n g

/-- A context, by brick x 4 + context (R159). -/
def State.ctx (s : State) (k : Nat) : Option Ctx := mapGet k s.ctxs
def State.modCtx (s : State) (k : Nat) (g : Ctx → Ctx) : State :=
  match mapGet k s.ctxs with
  | some c => { s with ctxs := mapPut k (g c) s.ctxs }
  | none => s

def State.list? (s : State) (owner : Nat) : Option RunningList := s.lists.find? (·.owner == owner)
def State.modList (s : State) (owner : Nat) (g : RunningList → RunningList) : State :=
  { s with lists := s.lists.map fun l => if l.owner = owner then g l else l }

/-- Fold an update over a list of keys. -/
def forAll {α : Type} (l : List α) (g : State → α → State) (s : State) : State := l.foldl g s

/-! ### Register words of PF0 BAR0 kept as plain words (R629, R633) -/

/-- Reset values of plain words (18, tables). -/
def regDefault (off : Nat) : Word :=
  if off = 0x20024 then 4 else if off = 0x200000 then 24 else if off = 0x400004 then 4
  else if off = 0x500004 then 100 else if off = 0x60081C then 2400 else if off = 0x600824 then 100 else 0

def State.reg (s : State) (off : Nat) : Word := mapRd (regDefault off) off s.regs
def State.regN (s : State) (off : Nat) : Nat := (s.reg off).toNat
def State.setReg (s : State) (off : Nat) (v : Word) : State :=
  { s with regs := mapSet (regDefault off) off v s.regs }
/-- A 64-bit register kept as two words. -/
def State.reg64 (s : State) (off : Nat) : Nat := s.regN off + 2 ^ 32 * s.regN (off + 4)

/-! ### Modes -/

/-- Restricted mode (R84). -/
def State.restricted (s : State) : Bool := s.boot.outcome == .tolerated

/-- The driver class of a function is TOLERATED (R99, R101). -/
def State.classTolerated (s : State) (f : Nat) : Bool := (s.page f).cls == 2

/-- Bricks partition `n` owns. -/
def State.partBricks (s : State) (n : Nat) : List Nat :=
  if (s.part n).allocated then (List.range 16).filter fun b => bit (s.part n).bricks b else []

def State.unit (s : State) (u : UnitKey) : UnitState :=
  ((s.repair.units.find? (·.1 == u)).map (·.2)).getD .inService

def setUnit (l : List (UnitKey × UnitState)) (u : UnitKey) (st : UnitState) : List (UnitKey × UnitState) :=
  let r := l.filter fun p => p.1 != u
  if st = .inService then r else (u, st) :: r

def State.setUnit (s : State) (u : UnitKey) (st : UnitState) : State :=
  { s with repair := { s.repair with units := Machine.setUnit s.repair.units u st } }

def brickUnit (b : Nat) : UnitKey := { kind := 1, index := b }
def wayUnit (slice way : Nat) : UnitKey := { kind := 2, index := slice * 16 + way }
def sliceUnit (k : Nat) : UnitKey := { kind := 3, index := k }
def rowUnit (pc : Nat) : UnitKey := { kind := 4, index := pc }
def pcUnit (pc : Nat) : UnitKey := { kind := 5, index := pc }
def hawUnit (p : Nat) : UnitKey := { kind := 6, index := p }
def ingUnit (q : Nat) : UnitKey := { kind := 7, index := q }
def noUnit : UnitKey := { kind := 0, index := 0 }

/-- Out of service: retiring, retired or readmitting (R584, R585, R587). -/
def State.outOfService (s : State) (u : UnitKey) : Bool := s.unit u != .inService

/-- The partition's live bricks (R585). -/
def State.liveBricks (s : State) (n : Nat) : List Nat :=
  (s.partBricks n).filter fun b => ! s.outOfService (brickUnit b)

/-- The partition that owns a brick. -/
def State.brickOwner (s : State) (b : Nat) : Option Nat :=
  (List.range 16).find? fun n => (s.part n).allocated && bit (s.part n).bricks b

/-- The partition whose range holds a device-space offset. -/
def State.rangeOwner (s : State) (d : Nat) : Option Nat :=
  (List.range 16).find? fun n =>
    (s.part n).allocated && decide ((s.part n).base * Config.gib ≤ d) &&
      decide (d < ((s.part n).base + (s.part n).size) * Config.gib)

/-! ### Interleave (R360, R383) -/

/-- Stack x 64 + pseudo-channel of a device-space offset (R360). -/
def pcOf (d : Nat) : Nat :=
  let g := d >>> 8
  (bits g 2 0 ^^^ bits g 11 9 ^^^ bits g 20 18) * 64 + (bits g 8 3 ^^^ bits g 17 12)

/-- Local address within its pseudo-channel (R360). -/
def localOf (d : Nat) : Nat := (d >>> 17) * 256 + bits d 7 0

/-- Node of a line index (R383). -/
def nodeOf (line : Nat) : Nat :=
  bits line 7 0 ^^^ bits line 15 8 ^^^ bits line 23 16 ^^^ bits line 31 24 ^^^ bits line 39 32 ^^^ bits line 40 40

/-- The slice that serves a line (R382). -/
def State.sliceOf (s : State) (line : Nat) : Nat :=
  (s.mortar.nodes.getD (nodeOf line) (NodeEnt.reset 0)).current

/-! ### Messages (R147 to R150) -/

/-- A function raises a vector: the message goes out, or a masked vector sets its pending bit (R149). -/
def State.msix (s : State) (f v : Nat) : State :=
  if ((s.page f).msixAt v).masked then s.modPage f fun p => p.modMsix v fun e => { e with pending := true }
  else s.emit (.msix f v)

/-- A device event: vector 33 of PF0 (R147). -/
def State.deviceEvent (s : State) : State := s.msix 0 33

/-! ### Error records (R144, R565) -/

/-- Class detail from a list of (bytes, value) fields, 56 bytes in all (R565). -/
def detailOf (fs : List (Nat × Nat)) : List Byte :=
  let b := (fs.map fun p => leBytes p.1 p.2).flatten
  (b ++ List.replicate 56 0).take 56

/-- The class detail of a record that names nothing: the command class has 0xFF for each tile register (R565). -/
def noDetail (code : Nat) : List Byte :=
  if code / 4096 = 1 then List.replicate 4 0 ++ List.replicate 8 0xFF ++ List.replicate 44 0 else List.replicate 56 0

/-- The class detail a unit gives by itself: its stack and pseudo-channel, slice and way, port, stream, sensor or image type
(R564, R565). -/
def unitDetail (code : Nat) (u : UnitKey) : List Byte :=
  let i := u.index
  match code / 4096, u.kind with
  | 2, 2 => detailOf [(1, 0), (1, 0), (1, i / 16), (1, i % 16)]
  | 2, 3 => detailOf [(1, 0), (1, 0), (1, i)]
  | 2, 4 => detailOf [(1, i / 64), (1, i % 64)]
  | 2, 5 => detailOf [(1, i / 64), (1, i % 64)]
  | 3, 6 => detailOf [(1, i)]
  | 4, 7 => detailOf [(1, i)]
  | 4, 0x0C => detailOf [(1, 0), (1, i)]
  | 5, 9 => detailOf [(2, i)]
  | 7, 0x0A => detailOf [(1, i)]
  | 8, 0x0D => detailOf [(1, i)]
  | _, _ => noDetail code

/-- A record with no field of its own yet but its unit: no ring, command, engine or tile. -/
def ErrRec.mk0 (now code severity die : Nat) (u : UnitKey) (part : Nat) : ErrRec :=
  { code := code, severity := severity, nested := false, escalated := false, permanent := false
    retired := false, copy := false, die := die, kind := u.kind, index := u.index, time := now, part := part
    sq := 0xFF, tag := 0, sqIndex := 0, command := 0xFFFFFFFF, engine := 0xFF, queue := 0, chain := 0
    addr := 0, lastTile := 0xFFFFFFFF, dropped := 0, deadline := 0, bucket := 0, threshold := 0, retries := 0
    queued := 0, detail := unitDetail code u, seq := 0 }

/-- The die a unit belongs to (R24, R564). -/
def dieOf (u : UnitKey) : Nat :=
  match u.kind with
  | 1 => u.index
  | 2 => 0x10 + u.index / 16
  | 3 => 0x10 + u.index
  | 4 => 0x18 + u.index / 64
  | 5 => 0x18 + u.index / 64
  | 6 => 0x20 + u.index / 4
  | 7 => 0x26
  | 0x0C => 0x26
  | _ => 0x27

/-- The bytes of an error record (R144) but for its CRC, which is over them. -/
def ErrRec.bytes (r : ErrRec) (phase : Nat) : List Byte :=
  leBytes 2 r.code ++ leBytes 1 r.severity ++
  leBytes 1 (phase + 2 * b2n r.nested + 4 * b2n r.escalated + 8 * b2n r.permanent + 16 * b2n r.retired + 32 * b2n r.copy)
  ++ leBytes 1 r.die ++ leBytes 1 r.kind ++ leBytes 2 r.index ++ leBytes 8 r.time ++ leBytes 1 r.part
  ++ leBytes 1 r.sq ++ leBytes 2 r.tag ++ leBytes 4 r.sqIndex ++ leBytes 4 r.command ++ leBytes 1 r.engine
  ++ leBytes 1 r.queue ++ leBytes 2 r.chain ++ leBytes 8 r.addr ++ leBytes 4 r.lastTile ++ leBytes 4 r.dropped
  ++ leBytes 8 r.deadline ++ leBytes 2 r.bucket ++ leBytes 2 r.threshold ++ leBytes 1 r.retries
  ++ leBytes 1 r.queued ++ leBytes 2 0 ++ r.detail ++ leBytes 4 r.seq

/-! ### Buckets (R557, R558) -/

/-- Threshold and leak interval (ns) of a unit kind (R558). -/
def bucketRule (kind : Nat) : Nat × Nat :=
  match kind with
  | 4 => (8, 3600000000000)
  | 5 => (256, 10000000000)
  | 2 => (32, 1000000000)
  | 3 => (32, 86400000000000)
  | 1 => (64, 1000000000)
  | 6 => (64, 10000000000)
  | 7 => (64, 10000000000)
  | _ => (0, 1)

/-- A bucket's count at a device time: one less at each whole multiple of its interval since it was last counted. -/
def Bucket.at (b : Bucket) (interval now : Nat) : Nat := b.count - (now / interval - b.at_ / interval)

def unitNum (u : UnitKey) : Nat := u.kind * 65536 + u.index

def State.bucketCount (s : State) (u : UnitKey) : Nat :=
  match mapGet (unitNum u) s.repair.buckets with
  | some b => b.at (bucketRule u.kind).2 s.now
  | none => 0

def setBucket (l : List (Nat × Bucket)) (k c now : Nat) : List (Nat × Bucket) :=
  if c = 0 then mapDel k l else mapPut k { count := c, at_ := now } l

/-- A weight added to a unit's bucket. -/
def State.bucketAdd (s : State) (u : UnitKey) (w : Nat) : State :=
  { s with repair := { s.repair with
      buckets := setBucket s.repair.buckets (unitNum u) (s.bucketCount u + w) s.now } }

def State.bucketClear (s : State) (u : UnitKey) : State :=
  { s with repair := { s.repair with buckets := mapDel (unitNum u) s.repair.buckets } }

def rowGet (l : List ((Nat × Nat) × Bucket)) (k : Nat × Nat) : Option Bucket :=
  (l.find? (·.1 == k)).map (·.2)

def State.rowCount (s : State) (pc row : Nat) : Nat :=
  match rowGet s.repair.rowBuckets (pc, row) with
  | some b => b.at (bucketRule 4).2 s.now
  | none => 0

def setRow (l : List ((Nat × Nat) × Bucket)) (k : Nat × Nat) (c now : Nat) : List ((Nat × Nat) × Bucket) :=
  let r := l.filter fun p => p.1 != k
  if c = 0 then r else (k, { count := c, at_ := now }) :: r

def State.rowSet (s : State) (pc row c : Nat) : State :=
  { s with repair := { s.repair with rowBuckets := setRow s.repair.rowBuckets (pc, row) c s.now } }

/-! ### Last-gasp records (R574) -/

/-- The dies' highest effective temperature and its die. -/
def State.hottest (s : State) : Int × Nat :=
  (s.wdn.eff.zip (List.range s.wdn.eff.length)).foldl (fun a p => if a.1 < p.1 then p else a) (s.wdn.eff.headD 0, 0)

/-- The number of the power state (R540). -/
def PwrSt.code : PwrSt → Nat
  | .run => 0 | .idle => 1 | .doze => 2 | .warden => 3 | .off => 4

/-- The warden writes a last-gasp record: sixteen are kept, used in turn (R574). -/
def State.lastGasp (s : State) (cause code code2 die : Nat) (u : UnitKey) : State :=
  let h := s.hottest
  let g : LastGasp :=
    { cause := cause, pwr := s.wdn.st.code, time := s.now, code := code, code2 := code2, die := die
      kind := u.kind, index := u.index, powerMw := s.wdn.power.headD 0, tempMax := h.1, tempDie := h.2
      recs := s.repair.lastRecs.reverse, seq := s.wdn.gaspSeq, copied := false }
  { s with wdn := { s.wdn with gasp := (g :: s.wdn.gasp).take 16, gaspSeq := s.wdn.gaspSeq + 1 } }

/-- FATAL_N asserted: low until cold reset. -/
def State.fatal (s : State) : State := { s with pins := { s.pins with fatalN := false } }

/-- The warden stops every island, writes a last-gasp record and asserts FATAL_N (R41, R533, R571). -/
def State.wardenStop (s : State) (ph : Phase) (cause code code2 die : Nat) (u : UnitKey) : State :=
  { (s.lastGasp cause code code2 die u).fatal with phase := ph }

/-! ### Detection, queueing and escalation (R566 to R571) -/

/-- One step up in the order CORRECTED, UNIT, PARTITION, DEVICE; DEFERRED counts as CORRECTED (R569). -/
def stepUp (sev : Nat) : Nat := if sev ≤ 1 then 2 else if sev = 2 then 3 else 4

/-- The severity the handling in progress follows: that of the last escalated error of the same unit (R569). -/
def RepairS.handling (r : RepairS) : Option (UnitKey × Nat) :=
  match r.inHand with
  | none => none
  | some h =>
    let es := r.queue.filter fun e => e.unit == h.unit && e.rec0.escalated
    some (h.unit, (es.getLast?.map (·.rec0.severity)).getD h.rec0.severity)

def addDropped (l : List (Nat × Nat)) (f n : Nat) : List (Nat × Nat) := mapSet 0 f (mapRd 0 f l + n) l

/-- The two units are one, as R569 counts them; no unit at all is never a second error in the same unit. -/
def sameUnit (a b : ErrEvt) : Bool := a.unit == b.unit && a.unit.kind != 0 && (a.unit.kind != 4 || a.row == b.row)

/-- An error is detected while the queue is full (R568). -/
def State.overflow (s : State) (h e : ErrEvt) : State :=
  if e.rec0.severity = 0 then
    { s with repair := { s.repair with dropped := addDropped s.repair.dropped e.rec0.part 1 } }
  else
    let waiting := h :: s.repair.queue
    let r0 := ErrRec.mk0 s.now 0x8011 4 0x27 noUnit 0
    let r : ErrRec := { r0 with queued := min 255 waiting.length }
    { s with repair := { s.repair with
        inHand := some { rec0 := r, unit := noUnit, row := 0, scope := .none }
        queue := []
        dropped := waiting.foldl (fun d w => addDropped d w.rec0.part 1) s.repair.dropped } }

/-- The severity of a permanent fault that may not retire its unit (R84, R101). -/
def restrictedSev (kind : Nat) : Nat := if kind = 1 then 3 else 4

/-- Repair of a unit is switched off: restricted mode, or a TOLERATED class for the partition's own bricks. -/
def State.repairOff (s : State) (u : UnitKey) (part : Nat) : Bool :=
  s.restricted || (u.kind == 1 && s.classTolerated part)

/-- A retirable kind of unit (R558). -/
def retirable (kind : Nat) : Bool := decide (1 ≤ kind) && decide (kind ≤ 7)

/-- The severity a handling follows after escalation: where no unit may be retired, a retirable unit's UNIT goes further
(R569); PARTITION of a unit that several partitions share is DEVICE (R554). -/
def State.escalated (s : State) (u : UnitKey) (part sev : Nat) : Nat :=
  let sev := if sev = 2 ∧ retirable u.kind = true ∧ s.repairOff u part = true then restrictedSev u.kind else sev
  if sev = 3 ∧ 2 ≤ u.kind ∧ u.kind ≤ 8 then 4 else sev

/-- The number of a lifecycle state (R599). -/
def Lifecycle.code : Lifecycle → Nat
  | .blank => 0 | .provisioned => 1 | .owned => 2 | .decommissioned => 3

/-- The class detail of a security record: levels before and after, lifecycle state, KIND or LEVEL, cause, nonce (R628). -/
def State.secDetail (s : State) (before after kind cause : Nat) : List Byte :=
  detailOf [(1, before), (1, after), (1, s.fuses.lifecycle.code), (1, kind), (1, cause), (3, 0), (8, s.sec.nonce.toNat)]

/-- A security record without a detail of its own reports the present level (R628). -/
def State.fillSec (s : State) (e : ErrEvt) : ErrEvt :=
  if e.rec0.code / 4096 = 6 ∧ e.rec0.detail = noDetail e.rec0.code then
    { e with rec0 := { e.rec0 with detail := s.secDetail s.sec.level s.sec.level 0 0 } }
  else e

/-- Of two errors of one device time, `a` comes first: by die ID, then UNIT_KIND, then UNIT_INDEX (R563). -/
def ErrEvt.before (a b : ErrEvt) : Bool :=
  let k (e : ErrEvt) : Nat := (e.rec0.die * 256 + e.rec0.kind) * 65536 + e.rec0.index
  a.rec0.time == b.rec0.time && decide (k a < k b)

/-- An error takes its place among the waiting ones: in order of detection (R563, R567). -/
def insErr (e : ErrEvt) (l : List ErrEvt) : List ErrEvt :=
  l.takeWhile (fun q => ! e.before q) ++ e :: l.dropWhile (fun q => ! e.before q)

def ErrEvt.nest (e : ErrEvt) : ErrEvt := { e with rec0 := { e.rec0 with nested := true } }

/-- An error of another unit waits behind the one in hand, or comes before it where both have one device time and no second
error of its unit has escalated (R563, R567). -/
def State.await (s : State) (h e : ErrEvt) : State :=
  let early := e.before h && ! s.repair.queue.any fun q => q.rec0.escalated
  let (first, second) := if early then (e, h.nest) else (h, e.nest)
  { s with repair := { s.repair with inHand := some first, queue := insErr second s.repair.queue } }

/-- An error is detected: it is handled at once, waits in the queue, escalates the handling of its own unit, or, during
DEVICE handling, passes to the warden (R566 to R571). -/
def State.raise (s : State) (e0 : ErrEvt) : State :=
  let e := s.fillSec e0
  match s.repair.inHand with
  | none => { s with repair := { s.repair with inHand := some e, handledAt := s.now } }
  | some h =>
    match s.repair.handling with
    | none => s
    | some (_, sev) =>
      if sev = 4 then s.wardenStop .dark 1 h.rec0.code e.rec0.code e.rec0.die e.unit
      else if sameUnit h e && s.unit e.unit != .retiring && s.unit e.unit != .retired then
        let r := { e.rec0 with escalated := true, severity := s.escalated e.unit e.rec0.part (max (stepUp sev) e.rec0.severity) }
        { s with repair := { s.repair with queue := insErr { e with rec0 := r } s.repair.queue } }
      else if s.repair.queue.length < 64 then s.await h e
      else s.overflow h e

/-- An error that adds nothing to a bucket; BUCKET and THRESHOLD report the unit's, where it keeps one (R565). -/
def State.raise1 (s : State) (code sev : Nat) (u : UnitKey) (part : Nat) : State :=
  let r := ErrRec.mk0 s.now code sev (dieOf u) u part
  s.raise { rec0 := { r with bucket := s.bucketCount u, threshold := (bucketRule u.kind).1 }
            unit := u, row := 0, scope := .none }

/-- An error whose unit keeps a bucket: the weight is added, and the event that brings it to the threshold is PERMANENT
(R557, R84). A unit already out of service adds nothing (R588) and retires no second time (R570). -/
def State.raiseW (s : State) (u : UnitKey) (w : Nat) (part : Nat) (r : ErrRec) (scope : ErrScope) : State :=
  let counts := s.unit u == .inService || s.unit u == .retiring
  let s1 := if counts then s.bucketAdd u w else s
  let c := s1.bucketCount u
  let th := (bucketRule u.kind).1
  let perm := decide (s.bucketCount u < th) && decide (th ≤ c) && s.unit u == .inService
  let sev := if perm && s.repairOff u part then restrictedSev u.kind else r.severity
  s1.raise { rec0 := { r with bucket := c, threshold := th, permanent := perm, severity := sev }
             unit := u, row := 0, scope := scope }

/-! ### Ends of descriptors and lists -/

def Ending.mk0 (status now : Nat) : Ending :=
  { status := status, detail := 0, code := 0, result := 0, degraded := false, needRec := false
    errIndex := none, time := now }

/-- The descriptor in flight on a ring gets its ending, once. -/
def State.endDesc (s : State) (f n : Nat) (e : Ending) : State :=
  s.modSq f n fun q =>
    match q.cur with
    | some c => if c.out.isNone then { q with cur := some { c with out := some e } } else q
    | none => q

def StreamBusy.isExec : StreamBusy → Bool
  | .exec _ _ _ => true
  | _ => false

/-- Chip of a device-space address (R463). -/
def chipField (d : Nat) : Nat := bits d 63 48

/-! ### Windows (R377 to R381) -/

/-- The windows of an owner that hold an offset. -/
def State.windowsAt (s : State) (owner d : Nat) : List Nat :=
  (List.range 32).filter fun i =>
    let w := s.windows.getD i Window.reset
    w.valid && w.owner == owner && decide (w.base * Config.gib ≤ d) && decide (d < w.limit * Config.gib)

/-- Every 64-byte access of a transfer lies in a window of its owner, and in one only. Windows are whole GiB. -/
def State.inWindows (s : State) (owner a n : Nat) : Bool :=
  decide (0 < n) && decide (a + n ≤ Config.deviceEnd) &&
  ((List.range ((a + n - 1) / Config.gib + 1 - a / Config.gib)).all fun i =>
    s.windowsAt owner ((a / Config.gib + i) * Config.gib) |>.length |> (0 < ·))

/-- Some 64-byte access of a transfer lies in a KEYLESS window of its owner (R612). -/
def State.keylessAt (s : State) (owner a n : Nat) : Bool :=
  decide (0 < n) && (List.range ((a + n - 1) / Config.gib + 1 - a / Config.gib)).any fun i =>
    (s.windowsAt owner ((a / Config.gib + i) * Config.gib)).any fun k => (s.windows.getD k Window.reset).lost

/-- Two valid windows match (R381). -/
def State.twoWindows (s : State) (a n : Nat) : Bool :=
  (List.range ((a + n - 1) / Config.gib + 1 - a / Config.gib)).any fun i =>
    decide (1 < ((List.range 32).filter fun k =>
      let w := s.windows.getD k Window.reset
      w.valid && decide (w.base ≤ a / Config.gib + i) && decide (a / Config.gib + i < w.limit)).length)

/-! ### Device memory -/

/-- The 128-byte lines a range covers, added to the dirty set. -/
def addDirty (l : List Nat) (a n : Nat) : List Nat :=
  setSplice (a / 128) ((a + n - 1) / 128 + 1) (List.range' (a / 128) ((a + n - 1) / 128 + 1 - a / 128)) l

/-- A store to device memory at the Mortar coherence point (R375, R382, R387). -/
def State.storeDev (s : State) (a : Nat) (bs : List Byte) : State :=
  if bs.length = 0 then s else
  { s with mem := s.mem.put devGranule a bs
           mortar := { s.mortar with dirty := addDirty s.mortar.dirty a bs.length } }

/-- A range of device space cleared to never written (R115, R374). -/
def State.wipeDev (s : State) (a n : Nat) : State :=
  { s with mem := s.mem.wipe devGranule a n
           mortar := { s.mortar with dirty := setSplice (a / 128) ((a + n) / 128) [] s.mortar.dirty } }

/-- A store to OB or AM of a brick (R204). -/
def State.storeBrick (s : State) (b mem a : Nat) (bs : List Byte) : State :=
  s.modBrick b fun k =>
    if mem = 0 then { k with ob := k.ob.put obGranule a bs } else { k with am := k.am.put obGranule a bs }

def State.store (s : State) (t : Store) : State :=
  if t.mem = 2 then s.storeDev t.addr t.bytes else s.storeBrick t.brick t.mem t.addr t.bytes

def State.stores (s : State) (ts : List Store) : State := ts.foldl State.store s

/-- The memory a tile names. -/
def State.memOf (s : State) (b mem : Nat) : Mem :=
  if mem = 0 then (s.brick b).ob else if mem = 1 then (s.brick b).am else s.mem

/-! ### Charges of the regulators (R402, R403) -/

/-- One regulator charged for `k` accesses: a borrower without tokens is served without a charge (R403, R404). -/
def Regulator.charge (r : Regulator) (borrow : Bool) (k : Nat) : Regulator :=
  let c := min (r.tokens / 64) k
  { tokens := r.tokens - 64 * c, charged := sat64 (r.charged + 64 * c)
    borrowed := if borrow then sat64 (r.borrowed + 64 * (k - c)) else r.borrowed }

/-- The regulators of a partition charged for a transfer of `n` bytes (R403): of its 64-byte accesses, the ones that
reach HBM on each stack are a free number, because replacement is private to the cache (R385). -/
def State.charge (s : State) (part n : Nat) : State :=
  { s with
    mortar := { s.mortar with
      regs := (List.range s.mortar.regs.length).map fun i =>
        let r := s.mortar.regs.getD i { tokens := 0, charged := 0, borrowed := 0 }
        if i % 16 = part then
          r.charge (bit (s.part part).bwr 31) (min (ceilDiv n 64) (Config.hbmAccesses s.free (i / 16)))
        else r }
    free := s.free + 1 }

end Sys2Proof.Machine
end

