-- ==== Sys2Proof/Machine/Splice.lean ====
section
/-! DEFINITION. The splice table of the paged key-value cache: its header, page entries and sequence lists in device
memory, pins, retirement, allocation and reclamation (R301 to R319). -/

namespace Sys2Proof.Machine

/-- Device memory with its dirty lines: what an update of a splice table touches. -/
structure Dev where
  mem : Mem
  dirty : List Nat
deriving DecidableEq, Repr

def State.dev (s : State) : Dev := { mem := s.mem, dirty := s.mortar.dirty }
def State.withDev (s : State) (d : Dev) : State :=
  { s with mem := d.mem, mortar := { s.mortar with dirty := d.dirty } }

def Dev.put (d : Dev) (a : Nat) (bs : List Byte) : Dev :=
  if bs.length = 0 then d else
  { mem := d.mem.put devGranule a bs, dirty := addDirty d.dirty a bs.length }

def Dev.w (d : Dev) (n a v : Nat) : Dev := d.put a (leBytes n v)
def Dev.r (d : Dev) (n a : Nat) : Nat := leNat (d.mem.read a n)

/-- A splice header as read (R304). -/
structure SplH where
  at_ : Nat
  magic : Nat
  log2 : Nat
  pool : Nat
  pages : Nat
  seqs : Nat
  len : Nat
  heads : Nat
  dk : Nat
  dv : Nat
  fmt : Nat
deriving DecidableEq, Repr

/-- The header at an address, read once. -/
def Dev.header (d : Dev) (a : Nat) : SplH :=
  let b := d.mem.read a 256
  { at_ := a, magic := fieldLE b 0 4, log2 := fieldLE b 4 1, pool := fieldLE b 8 8, pages := fieldLE b 0x10 4
    seqs := fieldLE b 0x14 4, len := fieldLE b 0x18 4, heads := fieldLE b 0x3C 2, dk := fieldLE b 0x3E 2
    dv := fieldLE b 0x40 2, fmt := fieldLE b 0x42 1 }

/-- Size of an element of the page format (R301). -/
def SplH.z (h : SplH) : Nat := if h.fmt = 3 ∨ h.fmt = 4 then 1 else 2

/-- Where the sequence lists begin (R306). -/
def SplH.lists (h : SplH) : Nat := h.at_ + roundUp (0x100 + 32 * h.pages) 64

/-- The end of the table. -/
def SplH.tableEnd (h : SplH) : Nat := h.lists + 8 * (h.seqs * h.len)

def SplH.dimOk (n : Nat) : Bool := n % 32 == 0 && decide (32 ≤ n) && decide (n ≤ 256)

/-- The header check of R308; the partition's range is `[lo, hi)`. -/
def SplH.ok (h : SplH) (lo hi : Nat) : Bool :=
  h.magic == 0x53504C43 && decide (16 ≤ h.log2) && decide (h.log2 ≤ 22) &&
  decide (1 ≤ h.pages) && decide (h.pages ≤ 2 ^ 24) && decide (1 ≤ h.seqs) && decide (h.seqs ≤ 2 ^ 20) &&
  decide (1 ≤ h.len) && decide (h.len ≤ 65536) && decide (1 ≤ h.heads) && decide (h.heads ≤ 64) &&
  SplH.dimOk h.dk && SplH.dimOk h.dv && decide (1 ≤ h.fmt) && decide (h.fmt ≤ 4) &&
  decide (256 * h.heads * (h.dk + h.dv) * h.z ≤ 2 ^ h.log2) && h.pool % 2 ^ h.log2 == 0 &&
  decide (lo ≤ h.at_) && decide (h.tableEnd ≤ hi) && decide (lo ≤ h.pool) &&
  decide (h.pool + h.pages * 2 ^ h.log2 ≤ hi)

def SplH.page (h : SplH) (p : Nat) : Nat := h.at_ + 0x100 + 32 * p
def SplH.entry (h : SplH) (q k : Nat) : Nat := h.lists + 8 * (q * h.len + k)
def SplH.frame (h : SplH) (p : Nat) : Nat := h.pool + p * 2 ^ h.log2

/-- Address of element `d` of the K row (or V row) of a head at a page row (R301). -/
def SplH.elem (h : SplH) (p : Nat) (isV : Bool) (head row d : Nat) : Nat :=
  h.frame p + (if isV then 256 * h.heads * h.dk * h.z + ((head * 256 + row) * h.dv + d) * h.z
    else ((head * 256 + row) * h.dk + d) * h.z)

/-- Nothing linked. -/
def nilPage : Nat := 0xFFFFFFFF

/-- A page becomes RETIRING: stamped and linked from RETIRE_HEAD (R312). A page already RETIRING is only stamped
again. -/
def Dev.retire (d : Dev) (h : SplH) (p : Nat) : Dev :=
  let stamp := d.r 4 (h.at_ + 0x24)
  if d.r 1 (h.page p + 4) = 2 then d.w 4 (h.page p + 0x10) stamp else
  let d := (d.w 1 (h.page p + 4) 2).w 4 (h.page p + 0x0C) (d.r 4 (h.at_ + 0x30))
  (d.w 4 (h.page p + 0x10) stamp).w 4 (h.at_ + 0x30) p

/-- One page moved to the free chain, as FREE (R318). -/
def Dev.freePage (d : Dev) (h : SplH) (p : Nat) : Dev :=
  let d := (d.w 1 (h.page p + 4) 0).w 4 (h.page p + 0x0C) (d.r 4 (h.at_ + 0x1C))
  (d.w 4 (h.at_ + 0x1C) p).w 4 (h.at_ + 0x20) (d.r 4 (h.at_ + 0x20) + 1)

/-- The retiring chain walked from `p`, with the page before it that stays (R318). -/
def Dev.reclaimFrom (h : SplH) : Nat → Option Nat → Nat → Dev → Dev
  | 0, _, _, d => d
  | fuel + 1, prev, p, d =>
    if h.pages ≤ p then d else
    let next := d.r 4 (h.page p + 0x0C)
    if d.r 1 (h.page p + 4) = 2 ∧ d.r 4 (h.page p + 0x10) + 2 ≤ d.r 4 (h.at_ + 0x24) then
      let d := match prev with
        | none => d.w 4 (h.at_ + 0x30) next
        | some r => d.w 4 (h.page r + 0x0C) next
      Dev.reclaimFrom h fuel prev next (d.freePage h p)
    else Dev.reclaimFrom h fuel (some p) next d

/-- Every RETIRING page whose STAMP + 2 is at most EPOCH goes to the free chain (R318). -/
def Dev.reclaim (d : Dev) (h : SplH) : Dev :=
  Dev.reclaimFrom h (h.pages + 1) none (d.r 4 (h.at_ + 0x30)) d

/-- The splice epoch advances when no reader of the other parity is in its pin step (R318). -/
def Dev.advance (d : Dev) (h : SplH) : Dev :=
  let e := d.r 4 (h.at_ + 0x24)
  if d.r 4 (h.at_ + 0x28 + 4 * ((e + 1) % 2)) = 0 then (d.w 4 (h.at_ + 0x24) (e + 1)).reclaim h else d

/-- One pin released (R312). -/
def Dev.unpin (h : SplH) (d : Dev) (p : Nat) : Dev :=
  let n := d.r 2 (h.page p + 2)
  let d := d.w 2 (h.page p + 2) (n - 1)
  if n ≤ 1 ∧ d.r 2 (h.page p) = 0 then d.retire h p else d

/-- A reader's pins released in ascending slot order, then an advance attempted (R312, R318). -/
def Dev.release (d : Dev) (h : SplH) (ps : List Nat) : Dev := (ps.foldl (Dev.unpin h) d).advance h

/-- The state of a list entry against its page: none when it is good, else the code it faults (R305, R310). -/
def Dev.stale (d : Dev) (h : SplH) (ent : Nat) : Option Nat :=
  let p := d.r 4 ent
  if h.pages ≤ p then some 0x1126 else
  let st := d.r 1 (h.page p + 4)
  if 3 ≤ st then some 0x1124
  else if st = 0 ∨ d.r 4 (h.page p + 8) ≠ d.r 4 (ent + 4) then some 0x1126
  else none

/-- The page's WLOCK is set (R305). -/
def Dev.wlocked (d : Dev) (h : SplH) (p : Nat) : Bool := bit (d.r 1 (h.page p + 5)) 0

/-- What a walk over slots came to: done, waiting at a slot on a WLOCK, or a fault with its code and entry. -/
inductive SplRes where
  | done (d : Dev) (pins : List Nat)
  | wait (d : Dev) (slot : Nat) (pins : List Nat)
  | fail (d : Dev) (code ent : Nat) (pins : List Nat)
deriving DecidableEq, Repr

/-- Step 2 of R310 over the remaining slots: `n` slots from `k`, `pins` already taken, in slot order. -/
def Dev.pinSlots (h : SplH) (q : Nat) : Nat → Nat → List Nat → Dev → SplRes
  | 0, _, pins, d => .done d pins
  | n + 1, k, pins, d =>
    let ent := h.entry q k
    match d.stale h ent with
    | some c => .fail d c ent pins
    | none =>
      let p := d.r 4 ent
      if d.wlocked h p then .wait d k pins
      else if d.r 2 (h.page p + 2) = 65535 then .fail d 0x1128 ent pins
      else Dev.pinSlots h q n (k + 1) (pins ++ [p]) (d.w 2 (h.page p + 2) (d.r 2 (h.page p + 2) + 1))

/-- Step 1 of R310: the reader enters the pin step; the parity it notes. -/
def Dev.enterPin (d : Dev) (h : SplH) : Dev × Nat :=
  let par := d.r 4 (h.at_ + 0x24) % 2
  (d.w 4 (h.at_ + 0x28 + 4 * par) (d.r 4 (h.at_ + 0x28 + 4 * par) + 1), par)

/-- Step 3 of R310, and the advance attempted at a pin step (R318). -/
def Dev.leavePin (d : Dev) (h : SplH) (par : Nat) : Dev :=
  (d.w 4 (h.at_ + 0x28 + 4 * par) (d.r 4 (h.at_ + 0x28 + 4 * par) - 1)).advance h

/-- A count of the header that saturates at 2^32 - 1 (R304). -/
def Dev.bump (d : Dev) (h : SplH) (off : Nat) : Dev := d.w 4 (h.at_ + off) (sat32 (d.r 4 (h.at_ + off) + 1))

/-- A failed pin step: the pins taken so far are released, which attempts an advance of its own, step 3 is done, and
STALE_COUNT is raised for a stale entry (R311, R318). -/
def Dev.pinFail (d : Dev) (h : SplH) (par code : Nat) (pins : List Nat) : Dev :=
  let d := (d.release h pins).leavePin h par
  if code = 0x1126 then d.bump h 0x38 else d

/-- A page taken from the free chain after reclaiming (R317): never written, GEN one more, LIVE. None when the pool is
exhausted. -/
def Dev.alloc (d : Dev) (h : SplH) : Option (Dev × Nat × Nat) :=
  let d := d.reclaim h
  let p := d.r 4 (h.at_ + 0x1C)
  if h.pages ≤ p then none else
  let gen := (d.r 4 (h.page p + 8) + 1) % 2 ^ 32
  let d := (d.w 4 (h.at_ + 0x1C) (d.r 4 (h.page p + 0x0C))).w 4 (h.at_ + 0x20) (d.r 4 (h.at_ + 0x20) - 1)
  let d := ((d.w 4 (h.page p + 8) gen).w 4 (h.page p) 0).w 2 (h.page p + 4) 1
  some ({ mem := d.mem.wipe devGranule (h.frame p) (2 ^ h.log2), dirty := d.dirty }, p, gen)

/-- One reference dropped; a page left with neither reference nor pin becomes RETIRING (R315). -/
def Dev.unref (d : Dev) (h : SplH) (p : Nat) : Dev :=
  let n := d.r 2 (h.page p)
  let d := d.w 2 (h.page p) (n - 1)
  if n ≤ 1 ∧ d.r 2 (h.page p + 2) = 0 then d.retire h p else d

/-- The slots a token range touches (R301). -/
def slotsOf (first tokens : Nat) : List Nat :=
  if tokens = 0 then [] else List.range' (first / 256) ((first + tokens - 1) / 256 + 1 - first / 256)

/-- A whole page copied as stored: data, written bits and poison markers (R316). Pages are multiples of 64 KiB. -/
def Mem.copyPage (m : Mem) (src dst n : Nat) : Mem :=
  { cells := cellSplice dst (dst + n)
      ((m.cells.filter fun c => decide (src ≤ c.1) && decide (c.1 < src + n)).map fun c => (c.1 - src + dst, c.2)) m.cells
    written := setSplice (dst / 64) (dst / 64 + n / 64)
      ((m.written.filter fun w => decide (src / 64 ≤ w) && decide (w < src / 64 + n / 64)).map fun w => w - src / 64 + dst / 64)
      m.written
    poison := setSplice (dst / 64) (dst / 64 + n / 64)
      ((m.poison.filter fun w => decide (src / 64 ≤ w) && decide (w < src / 64 + n / 64)).map fun w => w - src / 64 + dst / 64)
      m.poison }

/-- The page a WRITE stores a slot's tokens into: allocated, its own, or a copy (R316); a fault code otherwise. -/
def Dev.writable (d : Dev) (h : SplH) (q k : Nat) : Except Nat (Dev × Nat) :=
  let ent := h.entry q k
  let p := d.r 4 ent
  if p = nilPage then
    match d.alloc h with
    | none => .error 0x1127
    | some (d, n, gen) => .ok (((d.w 2 (h.page n) 1).w 4 ent n).w 4 (ent + 4) gen, n)
  else
    match d.stale h ent with
    | some c => .error c
    | none =>
      if d.r 2 (h.page p) = 1 ∧ d.r 2 (h.page p + 2) = 0 then .ok (d, p)
      else
        match d.alloc h with
        | none => .error 0x1127
        | some (d, n, gen) =>
          let d : Dev := { mem := d.mem.copyPage (h.frame p) (h.frame n) (2 ^ h.log2)
                           dirty := addDirty d.dirty (h.frame n) (2 ^ h.log2) }
          let d := ((d.w 2 (h.page n) 1).w 4 ent n).w 4 (ent + 4) gen
          .ok ((d.unref h p).bump h 0x34, n)

/-- The FORK of one slot (R315): done, waiting on WLOCK, or a fault. -/
def Dev.forkSlot (d : Dev) (h : SplH) (src dst k : Nat) : SplRes :=
  let e := h.entry src k
  match d.stale h e with
  | some c => .fail d c e []
  | none =>
    let p := d.r 4 e
    if d.wlocked h p then .wait d k []
    else if d.r 2 (h.page p) = 65535 then .fail d 0x1128 e []
    else if d.r 4 (h.entry dst k) ≠ nilPage then .fail d 0x1125 (h.entry dst k) []
    else
      let d := d.w 2 (h.page p) (d.r 2 (h.page p) + 1)
      .done ((d.w 4 (h.entry dst k) p).w 4 (h.entry dst k + 4) (d.r 4 (e + 4))) []

/-- FORK over `n` slots from `k`. -/
def Dev.forkSlots (h : SplH) (src dst : Nat) : Nat → Nat → Dev → SplRes
  | 0, _, d => .done d []
  | n + 1, k, d =>
    match d.forkSlot h src dst k with
    | .done d _ => Dev.forkSlots h src dst n (k + 1) d
    | r => r

/-- FREE over a list of slots (R315): an empty entry is skipped; a stale one faults. -/
def Dev.freeSlots (h : SplH) (q : Nat) : List Nat → Dev → SplRes
  | [], d => .done d []
  | k :: r, d =>
    let e := h.entry q k
    let p := d.r 4 e
    if p = nilPage then Dev.freeSlots h q r d else
    match d.stale h e with
    | some c => .fail d c e []
    | none => Dev.freeSlots h q r ((d.unref h p).w 4 e nilPage)

end Sys2Proof.Machine
end

