-- ==== Sys2Proof/Machine/Link.lean ====
section
/-! DEFINITION. Sending on the Hawser links: transmit counters (R616), planes (R492), connections (R476), and the open
collectives with their handshakes and aborts (R488 to R490). -/

namespace Sys2Proof.Machine

/-- Hawser frame types (R474). -/
def fWrite : Nat := 1
def fReadReq : Nat := 2
def fReadResp : Nat := 3
def fCollData : Nat := 4
def fCollCtrl : Nat := 5
def fAck : Nat := 6
def fNak : Nat := 7
def fProbe : Nat := 8
def fPortState : Nat := 9

def State.port (s : State) (p : Nat) : HawPort := s.haw.ports.getD p HawPort.reset
def State.modPort (s : State) (p : Nat) (g : HawPort → HawPort) : State :=
  { s with haw := { s.haw with ports := modAt s.haw.ports p g } }
def State.binding (s : State) (p : Nat) : Binding :=
  s.haw.bindings.getD p { mac := 0, partnerPort := 0, vlan := 0, prioData := 0, prioCtrl := 0, used := 0, rsvZero := true }

/-- The job number of a partition (R481). -/
def State.job (s : State) (part : Nat) : Nat := bits (s.regN (0x500040 + 4 * part)) 15 0

/-- A port is in service: its link is up and its binding checked. -/
def State.portUp (s : State) (p : Nat) : Bool := (s.port p).state == .up

/-- The planes in service at a chip (R492). -/
def State.planesOf (s : State) (chip : Nat) : List Nat := mapRd [] chip s.haw.planes

/-- The first plane from the lane upward, modulo 16, in service at both ends (R492). -/
def State.planeFor (s : State) (chip lane : Nat) : Option Nat :=
  ((List.range 16).map fun k => (lane + k) % 16).find? fun p => s.portUp p && (s.planesOf chip).contains p

/-- EPOCH moves on by one (R616): every port's COUNT is zero again; past the reservation the bound in flash is raised
first; past the last value every port stops and 0x6040 is raised. -/
def State.advanceTxc (s : State) : State :=
  let ports := s.haw.ports.map fun p => { p with txCount := 0 }
  if s.haw.epoch + 1 < s.haw.epochEnd then
    { s with haw := { s.haw with ports := ports, epoch := s.haw.epoch + 1 } }
  else if s.flash.txcBound + 65536 ≤ 2 ^ 32 then
    { s with flash := { s.flash with txcBound := s.flash.txcBound + 65536 }
             haw := { s.haw with ports := ports, epoch := s.flash.txcBound, epochEnd := s.flash.txcBound + 65536 } }
  else
    { s with haw := { s.haw with exhausted := true } }.raise1 0x6040 2 noUnit 0

/-- The connection toward a chip on a lane (R476). -/
def State.conn (s : State) (chip lane : Nat) : Conn :=
  (s.haw.conns.find? fun c => c.chip == chip && c.lane == lane).getD
    { chip := chip, lane := lane, plane := (s.planeFor chip lane).getD lane, txPsn := 0, unacked := [], rxNext := 0
      rxOwed := 0, rxSince := 0 }

def State.setConn (s : State) (c : Conn) : State :=
  { s with haw := { s.haw with conns := (
      c :: s.haw.conns.filter fun d => ! (d.chip == c.chip && d.lane == c.lane)) } }

/-- The transmit counter of a port: EPOCH, PORT, COUNT (R616). -/
def State.txc (s : State) (port : Nat) : Nat := s.haw.epoch * 2 ^ 32 + port * 2 ^ 28 + (s.port port).txCount

/-- The highest PSN received in order on the reverse connection (R474). -/
def Conn.ackPsn (c : Conn) : Nat := (c.rxNext + (2 ^ 32 - 1)) % 2 ^ 32

/-- A frame leaves a port: it takes a fresh TXC. Nothing is sent once the epochs are exhausted (R616). -/
def State.xmit1 (s : State) (resent : Bool) (port chip lane type psn job : Nat) (op data : List Byte) : State :=
  let s := if (s.port port).txCount < 2 ^ 28 || s.haw.exhausted then s else s.advanceTxc
  if s.haw.exhausted then s else
  (s.modPort port fun p => { p with txCount := p.txCount + 1, retrans := p.retrans + b2n resent }).emit
    (.haw port chip lane type (s.txc port) psn (s.conn chip lane).ackPsn job resent op data)

/-- A first transmission. -/
def State.xmit (s : State) (port chip lane type psn job : Nat) (op data : List Byte) : State :=
  s.xmit1 false port chip lane type psn job op data

/-- A frame outside the sequence: control frames, on the lane's plane; held while its priority is paused (R471). -/
def State.sendCtrl (s : State) (chip lane type job : Nat) (op data : List Byte) : State :=
  match s.planeFor chip lane with
  | none => s
  | some p =>
    if (s.port p).paused.contains (s.binding p).prioCtrl then
      s.modPort p fun q => { q with held := q.held ++
        [{ chip := chip, lane := lane, type := type, job := job, op := op, data := data }] }
    else s.xmit p chip lane type 0 job op data

/-- The plane a connection uses: it keeps its own while frames wait on it and it is in service, else R492 chooses
(R496, R498). -/
def State.connPlane (s : State) (c : Conn) : Option Nat :=
  if c.unacked ≠ [] ∧ s.portUp c.plane = true ∧ (s.planesOf c.chip).contains c.plane = true then some c.plane
  else s.planeFor c.chip c.lane

/-- A sequenced frame: it takes the next PSN of its connection and waits for its acknowledgement (R476). -/
def State.sendSeq (s : State) (chip lane type owner tag job : Nat) (op data : List Byte) : State :=
  let c := s.conn chip lane
  match s.connPlane c with
  | none => s
  | some p =>
    let paused := (s.port p).paused.contains (s.binding p).prioData
    let f : TxFrame := { psn := c.txPsn, type := type, owner := owner, tag := tag, job := job, op := op
                         data := data, attempts := if paused then 0 else 1 }
    let s := s.setConn { c with plane := p, txPsn := (c.txPsn + 1) % 2 ^ 32, unacked := c.unacked ++ [f] }
    if paused then s else s.xmit p chip lane type f.psn job op data

/-- The lane of an access to an offset (R484). -/
def laneOf (d : Nat) : Nat :=
  (bits d 19 16 ^^^ bits d 23 20 ^^^ bits d 27 24 ^^^ bits d 31 28 ^^^ bits d 35 32 ^^^ bits d 39 36 ^^^
    bits d 43 40 ^^^ bits d 47 44)

/-- A chip the record names, and reachable on some plane (R485). -/
def State.reachable (s : State) (chip : Nat) : Bool := (s.planeFor chip 0).isSome

/-! ### Collectives -/

/-- The operation header of a COLL_CTRL frame: kind (0 handshake, 1 abort, 2 and 3 veto bit clear and set), rank or abort
code, group, tag, instance rank. The manual leaves its layout to the part (log entry 27). -/
def ctrlOp (kind : Nat) (k : CollKey) (rank : Nat) : List Byte :=
  beBytes 1 kind ++ beBytes 1 0 ++ beBytes 2 rank ++ beBytes 4 k.group ++ beBytes 4 k.tag ++ beBytes 4 k.rank

/-- The chips of a collective other than the own one. -/
def State.otherChips (s : State) (c : Coll) : List Nat := c.chips.filter (· != s.haw.chip)

/-- An abort with its code sent to every other chip of a collective (R490). -/
def State.sendAborts (s : State) (c : Coll) (code : Nat) : State :=
  forAll (s.otherChips c) (fun s chip => s.sendCtrl chip 0 fCollCtrl 0 (ctrlOp 1 c.key code) []) s

/-- The queue a member of a collective runs on, if it is one of this chip's. -/
def CollMember.loc? (m : CollMember) : Option Loc := m.cmd.map (·.1.loc)

def ctxKey (l : Loc) : Nat := l.brick * 4 + l.ctx

/-- The collectives that have a participant in one of these contexts. -/
def State.collsOf (s : State) (keys : List Nat) : List Coll :=
  s.haw.colls.filter fun c => c.members.any fun m => (m.loc?.map fun l => keys.contains (ctxKey l)).getD false

/-- A collective closes; the device has been active until now (R541). -/
def State.dropColl (s : State) (k : CollKey) : State :=
  { s with haw := { s.haw with colls := s.haw.colls.filter fun c => c.key != k }
           wdn := { s.wdn with idleSince := s.now } }

end Sys2Proof.Machine
end

