-- ==== Sys2Proof/Machine/Lists.lean ====
section
/-! DEFINITION. How descriptors, lists and deadline slots end: a list's end releases its contexts, pins, remote
operations and collectives (R65, R165, R201, R312, R490); a missed slot raises its fault and applies its policy (R139,
R578 to R581). -/

namespace Sys2Proof.Machine

/-- A list's owner: the ring it was submitted on, function x 32 + ring. -/
def ownerOf (f n : Nat) : Nat := f * 32 + n

def RunningList.keys (l : RunningList) : List Nat := l.bricks.map fun b => b * 4 + l.ctx

/-- The descriptor in flight on an owner's ring. -/
def State.curOf (s : State) (owner : Nat) : Option InFlight := (s.sq (owner / 32) (owner % 32)).cur

/-! ### Pins and collectives of a list that ends -/

/-- The pins a held reader has are released and it leaves the pin step (R311, R312). -/
def Dev.dropHeld (d : Dev) (h : HeldOp) : Dev :=
  match h with
  | .pinAttn _ _ _ spl par _ ps => (ps.foldl (Dev.unpin (d.header spl)) d).leavePin (d.header spl) par
  | .pinGather _ _ spl par _ ps => (ps.foldl (Dev.unpin (d.header spl)) d).leavePin (d.header spl) par
  | .remote spl ps => if ps.isEmpty then d else d.release (d.header spl) ps
  | _ => d

def Dev.dropCtx (d : Dev) (c : Ctx) : Dev :=
  c.streams.foldl (fun d t => match t.busy with | .exec _ _ h => d.dropHeld h | _ => d) d

/-- Every pin that held readers of these contexts have is released. -/
def State.releasePins (s : State) (keys : List Nat) : State :=
  s.withDev ((s.ctxs.filter fun p => keys.contains p.1).foldl (fun d p => d.dropCtx p.2) s.dev)

/-- The collectives these contexts take part in end, and the other chips are told (R490). -/
def State.abortColls (s : State) (keys : List Nat) : State :=
  forAll (s.collsOf keys) (fun s c => (s.sendAborts c 0x3025).dropColl c.key) s

/-! ### Slots -/

def State.freeSlots (s : State) (p : Slot → Bool) : State :=
  { s with slots := s.slots.filter fun x => ! p x.2 }

/-- Slots a partition holds, against its DLN_QUOTA (R138, R575). -/
def State.slotsHeld (s : State) (part : Nat) : Nat := (s.slots.filter fun x => x.2.part == part).length

/-- The lowest-numbered free slot (R575). -/
def State.freeSlot (s : State) : Option Nat :=
  (List.range Config.deadlineSlots).find? fun n => (mapGet n s.slots).isNone

def State.putSlot (s : State) (n : Nat) (x : Slot) : State := { s with slots := mapPut n x s.slots }

/-! ### Ends of lists -/

/-- The statistics block of a list: eligible blocks, reused blocks, void rows (R273, R290); its layout is the model's
(log entry 9). -/
def statsBlock (l : RunningList) : List Byte :=
  leBytes 4 (sat32 l.eligible) ++ leBytes 4 (sat32 l.reused) ++ leBytes 4 (sat32 l.voids) ++ List.replicate 52 0

/-- A hand-over no longer waits for a list that has ended (R587). -/
def Readmit.without (owner : Nat) (m : Readmit) : Readmit :=
  match m.step with
  | .handOver ls => { m with step := .handOver (setDel owner ls) }
  | _ => m

/-- What a list holds is given up: pins, remote operations, contexts, bundle deadline entries. -/
def State.dropList (s : State) (l : RunningList) : State :=
  let s := s.releasePins l.keys
  { s with
    lists := s.lists.filter fun x => x.owner != l.owner
    ctxs := s.ctxs.filter fun p => ! l.keys.contains p.1
    slots := s.slots.filter fun x => ! (x.2.part == l.part && (match x.2.item with
      | .entry sq _ => ownerOf l.part sq == l.owner
      | _ => false))
    repair := { s.repair with readmit := s.repair.readmit.map (Readmit.without l.owner) }
    wdn := { s.wdn with idleSince := s.now }
    haw := { s.haw with remote := s.haw.remote.filter fun r => r.owner != l.owner } }

/-- A list ends with the given ending on its descriptor (R165, R201). -/
def State.endList (s : State) (owner : Nat) (e : Ending) : State :=
  match s.list? owner with
  | none => s.endDesc (owner / 32) (owner % 32) e
  | some l =>
    let s := if e.status = 0 then s else s.abortColls l.keys
    let s := s.dropList l
    let s := if l.statsAddr = 0 ∨ e.status = 5 then s else s.emit (.hostWrite l.part 0 l.statsAddr (statsBlock l))
    s.endDesc (owner / 32) (owner % 32) { e with result := 2 ^ 32 * sat32 l.reused + sat32 l.eligible }

/-- The record fields that name a ring's descriptor in flight (R144). -/
def ErrRec.ofDesc (r : ErrRec) (sq : Nat) (d : Desc) : ErrRec :=
  { r with sq := sq, tag := d.tag, sqIndex := d.index, chain := d.chain }

def ErrRec.ofOwner (s : State) (r : ErrRec) (owner : Nat) : ErrRec :=
  match s.curOf owner with
  | some c => r.ofDesc (owner % 32) c.desc
  | none => r

/-- The ending of a descriptor that faults: its record is written first (R142, R562). -/
def Ending.faulted (code result now : Nat) : Ending :=
  { Ending.mk0 2 now with code := code, result := result, needRec := true }

/-- A list faults: it stops on every brick, its descriptor completes FAULT once the record is written (R201, R553). -/
def State.faultList (s : State) (owner : Nat) (r : ErrRec) : State :=
  let r := ErrRec.ofOwner s r owner
  (s.endList owner (Ending.faulted r.code 0 s.now)).raise
    { rec0 := r, unit := noUnit, row := 0, scope := .desc (owner / 32) (owner % 32) }

/-! ### Deadline misses -/

/-- Rings of a function whose descriptor in flight an item covers. -/
def State.itemRings (s : State) (x : Slot) : List Nat :=
  match x.item with
  | .desc sq i => if ((s.sq x.part sq).cur.map (·.desc.index)) = some i then [sq] else []
  | .entry sq _ => [sq]
  | .chain id => (List.range 32).filter fun sq => ((s.sq x.part sq).cur.map (·.desc.chain)) = some id

/-- The held descriptor an item is: fetched and not started (R131). -/
def State.itemHeld (s : State) (x : Slot) : Option (Nat × Nat) :=
  match x.item with
  | .desc sq i => if (s.sq x.part sq).queue.any fun d => d.index == i then some (sq, i) else none
  | _ => none

/-- A held descriptor of a ring is changed. -/
def State.modHeld (s : State) (f sq i : Nat) (g : Desc → Desc) : State :=
  s.modSq f sq fun q => { q with queue := q.queue.map fun d => if d.index = i then g d else d }

/-- A deadline of its own that a held descriptor misses: it runs with DEADLINE_MISSED, or completes DEADLINE_ABORT
(R131, R139). -/
def State.missHeld (s : State) (f policy sq i : Nat) : State :=
  if policy = 0 then s.modHeld f sq i fun d => { d with missed := true }
  else if policy = 1 then s.modHeld f sq i fun d => { d with aborted := some { Ending.mk0 3 s.now with needRec := true } }
  else s

/-- The running lists a slot covers (R579). -/
def State.slotLists (s : State) (x : Slot) : List Nat :=
  ((s.itemRings x).map (ownerOf x.part)).filter fun o => (s.list? o).isSome

/-- The descriptor a slot names: its own, or the one that opened its chain. -/
def Slot.code (x : Slot) : Nat := if x.kind = 3 then 0x7002 else if x.kind = 4 then 0x7003 else 0x7001

/-- The severity a miss policy gives (R580). -/
def policySev (p : Nat) : Nat := if p = 0 then 0 else if p = 1 then 2 else 3

/-- The record of a miss; it names the descriptor that bound the slot (R144, R565). -/
def missRec (s : State) (n released : Nat) (x : Slot) : ErrRec :=
  let r := ErrRec.mk0 s.now x.code (policySev x.policy) 0x27 { kind := 0x0A, index := n } x.part
  { r with
    sq := x.bySq, tag := x.tag, sqIndex := x.byIndex, chain := x.chain, deadline := x.deadline
    detail := detailOf [(1, n), (1, x.kind), (1, x.policy), (1, min 255 released), (8, x.armed.getD 0),
      (2, x.stream), (4, if x.kind = 4 then x.offset else 0)] }

/-- The descriptor in flight on a ring is ended by a deadline (R139). -/
def State.abortRing (s : State) (f sq : Nat) : State :=
  let e := { Ending.mk0 3 s.now with needRec := true }
  let s := if (s.list? (ownerOf f sq)).isSome then s.endList (ownerOf f sq) e else s
  s.modSq f sq fun q => { q with cur := q.cur.map fun c => { c with out := some e } }

def State.abortChain (s : State) (part id : Nat) : State :=
  { s with chains := s.chains.map fun c => if c.part = part ∧ c.id = id then { c with aborted := true } else c }

/-- A slot misses: every other slot on its list is released, the fault is raised, and the policy acts on the
descriptor in flight or held and on the chain (R139, R579, R580). -/
def State.missSlot (s : State) (n : Nat) : State :=
  match mapGet n s.slots with
  | none => s
  | some x =>
    let ls := s.slotLists x
    let others := s.slots.filter fun y => y.1 != n && (s.slotLists y.2).any ls.contains
    let r := missRec s n others.length x
    let rings := s.itemRings x
    let kept := s.slots.filter fun y => ! (others.map (·.1)).contains y.1
    let s := { s with slots := mapPut n { x with missed := true } kept }
    let s :=
      if x.policy = 0 then
        forAll rings (fun s sq => s.modSq x.part sq fun q =>
          { q with cur := q.cur.map fun c => { c with missed := true } }) s
      else if x.policy = 1 then
        let s := match x.item with | .chain id => s.abortChain x.part id | _ => s
        forAll rings (fun s sq => s.abortRing x.part sq) s
      else s
    let (s, held) : State × ErrScope := match s.itemHeld x with
      | some (sq, i) => (s.missHeld x.part x.policy sq i, .queued x.part sq i)
      | none => (s, .none)
    s.raise { rec0 := r, unit := { kind := 0x0A, index := n }, row := 0
              scope := if x.policy = 1 then (match rings with | [] => held | sq :: _ => .desc x.part sq) else .none }

/-- Armed, not yet missed, its deadline behind `now`. -/
def Slot.late (x : Slot) (now : Nat) : Bool := x.armed.isSome && ! x.missed && decide (x.deadline < now)

/-- Of two late slots the earlier deadline governs, then the lower number (R579). -/
def lateFirst (now : Nat) (l : List (Nat × Slot)) : Option Nat :=
  ((l.filter fun p => p.2.late now).foldl (fun (a : Option (Nat × Nat)) p =>
    match a with
    | none => some (p.2.deadline, p.1)
    | some (d, n) => if p.2.deadline < d then some (p.2.deadline, p.1) else some (d, n)) none).map (·.2)

/-- The test of every armed slot, earliest deadline first, at most as often as there are slots (R578). -/
def State.deadlineTests : Nat → State → State
  | 0, s => s
  | k + 1, s =>
    match lateFirst s.now s.slots with
    | none => s
    | some n => State.deadlineTests k (s.missSlot n)

/-! ### Binding -/

/-- A slot bound but not armed. -/
def Slot.mk0 (part kind : Nat) (item : DlnItem) (policy ring sqIndex : Nat) : Slot :=
  { part := part, kind := kind, item := item, policy := policy, ring := ring, sqIndex := sqIndex
    bySq := ring, byIndex := sqIndex, tag := 0, chain := 0
    offset := 0, stream := 0, exposure := 0, armed := none, deadline := 0, missed := false }

def Slot.arm (x : Slot) (now deadline : Nat) : Slot := { x with armed := some now, deadline := sat64 deadline }

end Sys2Proof.Machine
end

