-- ==== Sys2Proof/Machine/Fp.lean ====
section
/-! DEFINITION. Number formats, conversions, FP32 arithmetic and the vector engine's special functions (R208 to R234,
R276 to R279, R354). A value is held as its encoding, a Nat. -/

namespace Sys2Proof.Machine

/-- A number read from an encoding: NaN, an infinity, or a sign with `m * 2^e`. -/
inductive Num where
  | nan
  | inf (neg : Bool)
  | fin (neg : Bool) (m : Nat) (e : Int)
deriving DecidableEq, Repr

/-- A binary format (R208, R209): exponent and fraction widths, bias, whether the all-ones exponent is reserved for
infinities and NaNs, the largest finite value as `maxQ * 2^maxE`, and the canonical NaN. -/
structure Fmt where
  ew : Nat
  fw : Nat
  bias : Nat
  ieee : Bool
  maxQ : Nat
  maxE : Int
  nan : Nat
deriving DecidableEq, Repr

def fmt32 : Fmt := { ew := 8, fw := 23, bias := 127, ieee := true, maxQ := 2 ^ 24 - 1, maxE := 104, nan := 0x7FC00000 }
def fmt16 : Fmt := { ew := 5, fw := 10, bias := 15, ieee := true, maxQ := 2 ^ 11 - 1, maxE := 5, nan := 0x7E00 }
def fmtBf : Fmt := { ew := 8, fw := 7, bias := 127, ieee := true, maxQ := 2 ^ 8 - 1, maxE := 120, nan := 0x7FC0 }
def fmtE4 : Fmt := { ew := 4, fw := 3, bias := 7, ieee := false, maxQ := 14, maxE := 5, nan := 0x7F }
def fmtE5 : Fmt := { ew := 5, fw := 2, bias := 15, ieee := true, maxQ := 7, maxE := 13, nan := 0x7E }

/-- The format of a FORMAT code other than BS4 (R175). -/
def fmtOf (code : Nat) : Fmt :=
  if code = 1 then fmt16 else if code = 2 then fmtBf else if code = 3 then fmtE4 else if code = 4 then fmtE5 else fmt32

/-- Exponent of the smallest spacing. -/
def Fmt.emin (f : Fmt) : Int := 1 - (f.bias : Int) - f.fw

/-- The sign bit's weight. -/
def Fmt.signBit (f : Fmt) (neg : Bool) : Nat := if neg then 2 ^ (f.ew + f.fw) else 0

/-- An encoding read (R208 to R211). -/
def Fmt.decode (f : Fmt) (x : Nat) : Num :=
  let fr := x % 2 ^ f.fw
  let ex := (x >>> f.fw) % 2 ^ f.ew
  let neg := x.testBit (f.ew + f.fw)
  if ex = 2 ^ f.ew - 1 ∧ f.ieee = true then (if fr = 0 then .inf neg else .nan)
  else if ex = 2 ^ f.ew - 1 ∧ fr = 2 ^ f.fw - 1 ∧ f.ieee = false then .nan
  else if ex = 0 then .fin neg fr f.emin
  else .fin neg (2 ^ f.fw + fr) (f.emin + (ex : Int) - 1)

def Fmt.infinity (f : Fmt) (neg : Bool) : Nat := f.signBit neg + (2 ^ f.ew - 1) * 2 ^ f.fw
def Fmt.largest (f : Fmt) (neg : Bool) : Nat :=
  f.signBit neg + (((f.maxE - f.emin).toNat + 1) * 2 ^ f.fw + (f.maxQ - 2 ^ f.fw))

/-- What an overflow of a finite value gives (R221). -/
def Fmt.overflow (f : Fmt) (ovf : Nat) (neg : Bool) : Nat :=
  if f = fmtE4 then (if ovf = 0 then f.largest neg else f.nan)
  else if f = fmtE5 then (if ovf = 0 then f.largest neg else f.infinity neg)
  else f.infinity neg

/-- A multiple `q` of the spacing `2^sp` packed, with the overflow rule (R219, R221). -/
def Fmt.pack (f : Fmt) (ovf : Nat) (neg : Bool) (q : Nat) (sp : Int) : Nat :=
  let (q, sp) := if q = 2 ^ (f.fw + 1) then (2 ^ f.fw, sp + 1) else (q, sp)
  if q < 2 ^ f.fw then f.signBit neg + q
  else if f.maxE < sp ∨ (sp = f.maxE ∧ f.maxQ < q) then f.overflow ovf neg
  else f.signBit neg + ((sp - f.emin).toNat + 1) * 2 ^ f.fw + (q - 2 ^ f.fw)

/-- The spacing at `m * 2^e`: the subnormal spacing below the smallest normal (R219). -/
def Fmt.spacing (f : Fmt) (m : Nat) (e : Int) : Int := max f.emin ((Nat.log2 m : Int) + e - f.fw)

/-- Rounded to nearest, ties to even; `sticky` says that the magnitude lies strictly between `m` and `m + 1` units. -/
def Fmt.nearest (f : Fmt) (ovf : Nat) (neg : Bool) (m : Nat) (e : Int) (sticky : Bool) : Nat :=
  if m = 0 then f.signBit neg else
  let sp := f.spacing m e
  if sp ≤ e then f.pack ovf neg (m <<< (e - sp).toNat) sp
  else
    let k := (sp - e).toNat
    let q := m >>> k
    let r := m % 2 ^ k
    let half := 2 ^ (k - 1)
    let up := decide (half < r) || (r == half && (sticky || q % 2 == 1))
    f.pack ovf neg (if up then q + 1 else q) sp

/-- Rounded stochastically with the draw `w` (R233). -/
def Fmt.stochastic (f : Fmt) (ovf : Nat) (neg : Bool) (m : Nat) (e : Int) (w : Nat) : Nat :=
  if m = 0 then f.signBit neg else
  let sp := f.spacing m e
  if sp ≤ e then f.pack ovf neg (m <<< (e - sp).toNat) sp
  else
    let k := (sp - e).toNat
    let q := m >>> k
    let r := m % 2 ^ k
    f.pack ovf neg (if w * 2 ^ k < r * 2 ^ 32 then q + 1 else q) sp

/-! ### Conversions (R217 to R222, R232 to R234) -/

/-- Widening to FP32, exact (R218). -/
def widen (code x : Nat) : Nat :=
  if code = 0 then (match fmt32.decode x with | .nan => fmt32.nan | _ => x) else
  match (fmtOf code).decode x with
  | .nan => fmt32.nan
  | .inf n => fmt32.infinity n
  | .fin n m e => fmt32.nearest 0 n m e false

/-- Narrowing from FP32 (R219), to nearest, or stochastically with the word drawn. -/
def narrow (code ovf x : Nat) (w : Option Nat) : Nat :=
  let f := fmtOf code
  match fmt32.decode x with
  | .nan => f.nan
  | .inf n => if f = fmtE4 then f.nan else f.infinity n
  | .fin n m e =>
    match w with
    | none => f.nearest ovf n m e false
    | some w => f.stochastic ovf n m e w

/-! ### FP32 arithmetic (R230, R231) -/

def zero32 : Nat := 0
def one32 : Nat := 0x3F800000
def inf32 (neg : Bool) : Nat := fmt32.infinity neg
def nan32 : Nat := 0x7FC00000

def round32 (neg : Bool) (m : Nat) (e : Int) (sticky : Bool) : Nat := fmt32.nearest 0 neg m e sticky

/-- A signed exact value `v * 2^e` rounded; an exact zero is +0. -/
def roundInt (v : Int) (e : Int) : Nat := if v = 0 then 0 else round32 (decide (v < 0)) v.natAbs e false

def signed (neg : Bool) (m : Nat) : Int := if neg then -(m : Int) else m

/-- Sum. -/
def fadd (x y : Nat) : Nat :=
  match fmt32.decode x, fmt32.decode y with
  | .nan, _ => nan32
  | _, .nan => nan32
  | .inf a, .inf b => if a = b then inf32 a else nan32
  | .inf a, _ => inf32 a
  | _, .inf b => inf32 b
  | .fin a m e, .fin b n g =>
    if m = 0 ∧ n = 0 then (if a && b then 0x80000000 else 0)
    else
      let lo := min e g
      roundInt (signed a (m <<< (e - lo).toNat) + signed b (n <<< (g - lo).toNat)) lo

def fneg (x : Nat) : Nat := if 2 ^ 31 ≤ x then x - 2 ^ 31 else x + 2 ^ 31
def fabs (x : Nat) : Nat := x % 2 ^ 31
def fsub (x y : Nat) : Nat := fadd x (fneg y)

/-- The exact product of two numbers, rounded once to FP32 (R225, R226). -/
def mulNum (x y : Num) : Nat :=
  match x, y with
  | .nan, _ => nan32
  | _, .nan => nan32
  | .inf a, .inf b => inf32 (a != b)
  | .inf a, .fin b n _ => if n = 0 then nan32 else inf32 (a != b)
  | .fin a m _, .inf b => if m = 0 then nan32 else inf32 (a != b)
  | .fin a m e, .fin b n g => round32 (a != b) (m * n) (e + g) false

/-- Product. -/
def fmul (x y : Nat) : Nat := mulNum (fmt32.decode x) (fmt32.decode y)

/-- An element of a BS4 block with its scale byte (R208, R213, R214). -/
def bs4Num (el scale : Nat) : Num :=
  if scale = 0xFF then .nan else
  let ex := (el >>> 1) % 4
  let f := el % 2
  if ex = 0 then .fin (el.testBit 3) f (-1 + ((scale : Int) - 127))
  else .fin (el.testBit 3) (2 + f) ((ex : Int) - 2 + ((scale : Int) - 127))

/-- Correctly rounded quotient (R277). -/
def fdiv (x y : Nat) : Nat :=
  match fmt32.decode x, fmt32.decode y with
  | .nan, _ => nan32
  | _, .nan => nan32
  | .inf _, .inf _ => nan32
  | .inf a, .fin b _ _ => inf32 (a != b)
  | .fin a _ _, .inf b => fmt32.signBit (a != b)
  | .fin a m e, .fin b n g =>
    if n = 0 then (if m = 0 then nan32 else inf32 (a != b))
    else
      let num := m <<< 64
      round32 (a != b) (num / n) (e - 64 - g) (num % n != 0)

def isNan (x : Nat) : Bool := fmt32.decode x == .nan
def isZero (x : Nat) : Bool := fabs x == 0
def isFinite32 (x : Nat) : Bool := match fmt32.decode x with | .fin _ _ _ => true | _ => false

/-- An order on encodings that are no NaN: the two zeros are equal. -/
def f32key (x : Nat) : Int := if 2 ^ 31 ≤ x then -((x % 2 ^ 31 : Nat) : Int) else x

/-- `x < y` as IEEE 754 compares; false with a NaN. -/
def flt (x y : Nat) : Bool := ! isNan x && ! isNan y && decide (f32key x < f32key y)
def fle (x y : Nat) : Bool := ! isNan x && ! isNan y && decide (f32key x ≤ f32key y)

/-- Maximum: a NaN gives the canonical NaN, and max(+0, -0) is +0 (R254). -/
def fmax (x y : Nat) : Nat :=
  if isNan x || isNan y then nan32
  else if isZero x && isZero y then (if x = 0 ∨ y = 0 then 0 else x)
  else if flt x y then y else x

/-- An unsigned integer as FP32. -/
def ofNat32 (n : Nat) : Nat := round32 false n 0 false

/-- The FP32 square root, correctly rounded (used by R502 ff. through rsqrt only where named). -/
def isqrtAux : Nat → Nat → Nat → Nat
  | 0, _, r => r
  | k + 1, n, r => let t := r + 2 ^ k; if t * t ≤ n then isqrtAux k n t else isqrtAux k n r

/-- Integer square root of a number below 2^(2k). -/
def isqrt (k n : Nat) : Nat := isqrtAux k n 0

/-! ### Sums in fixed order (R227, R228, R254) -/

/-- Neighbouring pairs combined. -/
def pairUp (op : Nat → Nat → Nat) : List Nat → List Nat
  | a :: b :: r => op a b :: pairUp op r
  | l => l

/-- The tree over at most 2^k values (R227). -/
def treeFold (op : Nat → Nat → Nat) : Nat → List Nat → Nat
  | 0, l => l.headD 0
  | k + 1, l => treeFold op k (pairUp op l)

/-- Consecutive chunks of 32; the fuel is the list's length. -/
def chunks32 : Nat → List Nat → List (List Nat)
  | 0, _ => []
  | k + 1, l => if l.isEmpty then [] else l.take 32 :: chunks32 k (l.drop 32)

/-- The results of the chunks of 32, in ascending order. -/
def chunkVals (op : Nat → Nat → Nat) (l : List Nat) : List Nat := (chunks32 l.length l).map (treeFold op 5)

/-- Reduction along an axis: chunks of 32 in the tree, then the chunk results in ascending order (R254). -/
def reduce32 (op : Nat → Nat → Nat) (l : List Nat) : Nat :=
  match chunkVals op l with
  | [] => 0
  | c :: r => r.foldl op c

def sum32 (l : List Nat) : Nat := reduce32 fadd l
def max32 (l : List Nat) : Nat := reduce32 fmax l

/-- Running sum over products in K order, from the first chunk or from a start value (R228). -/
def dotFrom (start : Option Nat) (ps : List Nat) : Nat :=
  match start with
  | none => sum32 ps
  | some s => (chunkVals fadd ps).foldl fadd s

/-! ### Special functions (R276): 320-bit fixed point, then one rounding (log entry 20) -/

/-- Fraction bits of the fixed-point evaluations. -/
def fxBits : Nat := 320
def fxOne : Nat := 2 ^ 320
/-- pi and ln 2, times 2^320, rounded down. -/
def fxPi : Nat := 0x3243f6a8885a308d313198a2e03707344a4093822299f31d0082efa98ec4e6c89452821e638d01377
def fxLn2 : Nat := 0xb17217f7d1cf79abc9e3b39803f2f6af40f343267298b62d8a0d175b8baafa2be7b876206debac98

/-- `sum r^k / k!` from the term `t` on. -/
def expSeries (r : Nat) : Nat → Nat → Nat → Nat → Nat
  | 0, _, _, acc => acc
  | n + 1, k, t, acc => let t' := t * r / (k * fxOne); expSeries r n (k + 1) t' (acc + t')

/-- e^r for 0 <= r < 1 in fixed point. -/
def fxExp (r : Nat) : Nat := expSeries r 80 1 fxOne fxOne

/-- A dyadic magnitude in fixed point, rounded down. -/
def toFx (m : Nat) (e : Int) : Nat :=
  let k := e + fxBits
  if 0 ≤ k then m <<< k.toNat else m >>> (-k).toNat

/-- e^y for y >= 0 in fixed point: an exponent and a mantissa in [1, 2). -/
def fxExpPos (y : Nat) : Nat × Nat := (y / fxLn2, fxExp (y % fxLn2))

/-- 2^x (R276). -/
def fexp2 (x : Nat) : Nat :=
  match fmt32.decode x with
  | .nan => nan32
  | .inf n => if n then 0 else inf32 false
  | .fin neg m e =>
    if m = 0 then one32 else
    let big := decide (8 ≤ (Nat.log2 m : Int) + e)
    if big then (if neg then 0 else inf32 false) else
    let y := toFx m e
    let n := y / fxOne
    let f := y % fxOne
    if ! neg then
      if f = 0 then round32 false 1 n false
      else round32 false (fxExp (f * fxLn2 / fxOne)) ((n : Int) - fxBits) true
    else
      if f = 0 then round32 false 1 (-(n : Int)) false
      else round32 false (fxExp ((fxOne - f) * fxLn2 / fxOne)) (-(n : Int) - 1 - fxBits) true

/-- 1 / sqrt x (R276). -/
def frsqrt (x : Nat) : Nat :=
  match fmt32.decode x with
  | .nan => nan32
  | .inf n => if n then nan32 else 0
  | .fin neg m e =>
    if m = 0 then inf32 neg
    else if neg then nan32
    else
      let (m, e) := if e % 2 = 0 then (m, e) else (2 * m, e - 1)
      let n := 2 ^ 256 / m
      let r := isqrt 129 n
      round32 false r (-(e / 2) - 128) (r * r * m != 2 ^ 256)

/-- A magnitude in fixed point, at most 256. -/
def clampFx (m : Nat) (e : Int) : Nat :=
  if 8 ≤ (Nat.log2 m : Int) + e then 256 * fxOne else toFx m e

/-- tanh x (R276). Below 2^-13 the correction is less than a quarter of the last place. -/
def ftanh (x : Nat) : Nat :=
  match fmt32.decode x with
  | .nan => nan32
  | .inf n => fmt32.signBit n + one32
  | .fin neg m e =>
    if m = 0 ∨ (Nat.log2 m : Int) + e < -13 then x else
    let (n, t) := fxExpPos (2 * clampFx m e)
    let big := t <<< n
    round32 neg ((big - fxOne) * fxOne / (big + fxOne)) (-(fxBits : Int)) true

/-- 1 / (1 + e^-x) (R276). -/
def flogistic (x : Nat) : Nat :=
  match fmt32.decode x with
  | .nan => nan32
  | .inf n => if n then 0 else one32
  | .fin neg m e =>
    if m = 0 then 0x3F000000 else
    let (n, t) := fxExpPos (clampFx m e)
    let big := t <<< n
    let num := if neg then fxOne <<< 640 else big <<< 640
    round32 false (num / (big + fxOne)) (-640) true

/-- Binary digits of log2 of a mantissa in [1, 2), by repeated squaring. -/
def logDigits : Nat → Nat → Nat → Nat
  | 0, _, acc => acc
  | k + 1, y, acc =>
    let z := y * y / fxOne
    if 2 * fxOne ≤ z then logDigits k (z / 2) (2 * acc + 1) else logDigits k z (2 * acc)

/-- log2 (n / 2^24) for 1 <= n <= 2^24, as FP32 (R354). -/
def flog2u (n : Nat) : Nat :=
  let b := Nat.log2 n
  if n = 2 ^ b then roundInt ((b : Int) - 24) 0
  else
    let v := (24 - b) <<< 100
    let d := logDigits 100 ((n <<< fxBits) >>> b) 0
    round32 true (v - d - 1) (-100) true

/-- Alternating series `t - t x/(k(k+1)) + ...` in fixed point: the terms of even and of odd place summed apart. -/
def altSeries (x2 : Nat) : Nat → Nat → Nat → Nat → Nat → Nat
  | 0, _, _, pos, neg => pos - neg
  | n + 1, k, t, pos, neg =>
    let t1 := t * x2 / (k * (k + 1) * fxOne)
    let t2 := t1 * x2 / ((k + 2) * (k + 3) * fxOne)
    altSeries x2 n (k + 4) t2 (pos + t2) (neg + t1)

def fxCos (th : Nat) : Nat := altSeries (th * th / fxOne) 30 1 fxOne fxOne 0
def fxSin (th : Nat) : Nat := altSeries (th * th / fxOne) 30 2 th th 0

/-- cos (2 pi j / 2^24), as FP32 (R354). -/
def fcos2pi (j : Nat) : Nat :=
  let t := if 2 ^ 23 < j then 2 ^ 24 - j else j
  let neg := decide (2 ^ 22 < t)
  let t := if neg then 2 ^ 23 - t else t
  if t = 0 then fmt32.signBit neg + one32
  else if t = 2 ^ 22 then 0
  else if t ≤ 2 ^ 21 then round32 neg (fxCos (2 * fxPi * t / 2 ^ 24) - 64) (-(fxBits : Int)) true
  else round32 neg (fxSin (2 * fxPi * (2 ^ 22 - t) / 2 ^ 24) - 64) (-(fxBits : Int)) true

/-- sin (pi a) / (pi a) for a rational a = n / d in (0, 1), times the same of a / 3 for the Lanczos kernel, is formed
from this: sin (pi n / d) in fixed point. -/
def fxSinPi (n d : Nat) : Nat :=
  let h := if d < 2 * n then d - n else n
  if 4 * h ≤ d then fxSin (fxPi * h / d) else fxCos (fxPi * (d - 2 * h) / (2 * d))

/-! ### Activations (R249, R278, R279) -/

/-- GELU (R278). -/
def gelu (x : Nat) : Nat :=
  let t1 := fmul x x
  let t2 := fmul t1 x
  let t3 := fmul t2 0x3D372713
  let t4 := fadd x t3
  let t5 := fmul t4 0x3F4C422A
  let t6 := ftanh t5
  let t7 := fadd one32 t6
  let t8 := fmul x 0x3F000000
  fmul t8 t7

/-- SiLU (R279). -/
def silu (x : Nat) : Nat := fmul x (flogistic x)

end Sys2Proof.Machine
end

