-- ==== Sys2Proof/Machine/Rng.lean ====
section
/-! DEFINITION. Random bits: the strands of a context and the counter-based generator (R343 to R351). -/

namespace Sys2Proof.Machine

/-! ### Strands -/

def rotl64 (x : DWord) (k : Nat) : DWord := x.rotateLeft k

/-- One call of next (R343): the result and the state after it. -/
def Strand.next (st : Strand) : DWord × Strand :=
  let r := rotl64 (st.s0 * 5) 7 * 9
  let t := st.s1 ^^^ st.s0
  (r, { s0 := rotl64 st.s0 24 ^^^ t ^^^ (t <<< 16), s1 := rotl64 t 37 })

/-- The word a draw supplies: bits [63:32] (R343). -/
def Strand.draw (st : Strand) : Nat × Strand :=
  let (r, n) := st.next
  (r.toNat / 2 ^ 32, n)

/-- The jump procedure over the bits of a word, low bit first (R344). -/
def jumpBits (w : DWord) : Nat → Nat → Strand × DWord × DWord → Strand × DWord × DWord
  | 0, _, x => x
  | n + 1, i, (st, a0, a1) =>
    let (a0, a1) := if w.getLsbD i then (a0 ^^^ st.s0, a1 ^^^ st.s1) else (a0, a1)
    jumpBits w n (i + 1) (st.next.2, a0, a1)

def jumpBy (j0 j1 : DWord) (st : Strand) : Strand :=
  let (_, a0, a1) := jumpBits j1 64 0 (jumpBits j0 64 0 (st, 0, 0))
  { s0 := a0, s1 := a1 }

/-- 2^64 draws onward (R344). -/
def jump : Strand → Strand := jumpBy 0xDF900294D8F554A5 0x170865DF4B3201FC
/-- 2^96 draws onward (R344). -/
def longJump : Strand → Strand := jumpBy 0xD2A98B26625EEE7B 0xDDDF9B1090AA7AC1

def iter {α : Type} (f : α → α) : Nat → α → α
  | 0, x => x
  | n + 1, x => iter f n (f x)

def splitmix (x : DWord) : DWord :=
  let z := x + 0x9E3779B97F4A7C15
  let z := (z ^^^ (z >>> 30)) * 0xBF58476D1CE4E5B9
  let z := (z ^^^ (z >>> 27)) * 0x94D049BB133111EB
  z ^^^ (z >>> 31)

/-- The base state of a brick (R346). -/
def baseStrand (seed rank : Nat) : Strand :=
  let x := BitVec.ofNat 64 (seed + rank * 0x9E3779B97F4A7C15)
  { s0 := splitmix x, s1 := splitmix (x + 0x9E3779B97F4A7C15) }

/-- Lanes of a stream: 4,096 VX lanes and 64 stochastic-rounding units (R345). -/
def laneCount : Nat := 4160

/-- A strand's present state: its seeded state until it has drawn (R345, R347). -/
def strandOf (base : Strand) (used : List (Nat × Strand)) (stream lane : Nat) : Strand :=
  match mapGet (stream * laneCount + lane) used with
  | some st => st
  | none => iter jump lane (iter longJump stream base)

/-- One draw of a lane (R343). -/
def drawLane (base : Strand) (used : List (Nat × Strand)) (stream lane : Nat) : Nat × List (Nat × Strand) :=
  let (w, n) := (strandOf base used stream lane).draw
  (w, mapPut (stream * laneCount + lane) n used)

/-- The strands of a context while a command draws from them. -/
structure Rnd where
  base : Strand
  used : List (Nat × Strand)
  stream : Nat
deriving DecidableEq, Repr

/-- The draw of element `i` of narrowing step `n` (R348). -/
def Rnd.unit (r : Rnd) (n i : Nat) : Nat × Rnd :=
  let (w, u) := drawLane r.base r.used r.stream (4096 + 32 * n + i % 32)
  (w, { r with used := u })

/-- A draw of a VX lane (R353). -/
def Rnd.lane (r : Rnd) (l : Nat) : Nat × Rnd :=
  let (w, u) := drawLane r.base r.used r.stream l
  (w, { r with used := u })

/-- A step that narrows a list of FP32 values, elements `i`, `i + 1`, ... of step `n`: one draw an element when the
rounding is stochastic, none otherwise (R234, R348, R349). -/
def narrowAll (code : Nat) (cvt : Cvt) (n : Nat) : Nat → List Nat → Rnd → List Nat × Rnd
  | _, [], r => ([], r)
  | i, x :: xs, r =>
    if cvt.round = 1 then
      let (w, r) := r.unit n i
      let (ys, r) := narrowAll code cvt n (i + 1) xs r
      (narrow code cvt.ovf x (some w) :: ys, r)
    else
      let (ys, r) := narrowAll code cvt n (i + 1) xs r
      (narrow code cvt.ovf x none :: ys, r)

/-! ### The counter-based generator (R350, R351) -/

def philoxRound (c : Word × Word × Word × Word) (k0 k1 : Word) : Word × Word × Word × Word :=
  let p0 := 0xD2511F53 * c.1.toNat
  let p1 := 0xCD9E8D57 * c.2.2.1.toNat
  (BitVec.ofNat 32 (p1 / 2 ^ 32) ^^^ c.2.1 ^^^ k0, BitVec.ofNat 32 p1,
    BitVec.ofNat 32 (p0 / 2 ^ 32) ^^^ c.2.2.2 ^^^ k1, BitVec.ofNat 32 p0)

def philoxRounds : Nat → Word × Word × Word × Word → Word → Word → Word × Word × Word × Word
  | 0, c, _, _ => c
  | n + 1, c, k0, k1 => philoxRounds n (philoxRound c k0 k1) (k0 + 0x9E3779B9) (k1 + 0xBB67AE85)

/-- Words w0 and w1 of an element's block (R351). -/
def philox (seed tid e : Nat) : Nat × Nat :=
  let w (x : Nat) : Word := BitVec.ofNat 32 x
  let c := philoxRounds 10 (w e, w (e / 2 ^ 32), w tid, w (tid / 2 ^ 32)) (w seed) (w (seed / 2 ^ 32))
  (c.1.toNat, c.2.1.toNat)

end Sys2Proof.Machine
end

