-- ==== Sys2Proof/Machine/Operands.lean ====
section
/-! DEFINITION. Operand forms of the engine commands: tile descriptors and effective bases (R175, R176), extents
(R199), the checks of R198 in the order of its table, reading and storing tile elements. -/

namespace Sys2Proof.Machine

/-! ### Descriptors -/

/-- A 32-byte descriptor (R175). -/
def parseTile (b : List Byte) : TileDesc :=
  { base := fieldLE b 0 8, rows := fieldLE b 8 2, cols := fieldLE b 0x0A 2, rowStride := fieldLE b 0x0C 4
    batchStride := fieldLE b 0x10 4, loopStride := sext 32 (fieldLE b 0x14 4), mem := fieldLE b 0x18 1
    fmt := fieldLE b 0x19 1, loopSel := fieldLE b 0x1A 1, argSel := fieldLE b 0x1B 1
    scaleOff := fieldLE b 0x1C 4 }

/-- The iteration index of a loop register for a command of a stream (R176): 0 unless the stream is in that loop. -/
def Ctx.loopIdx (c : Ctx) (stream lc : Nat) : Nat :=
  let st := c.streams.getD stream { ended := true, busy := .idle, loops := [] }
  if st.loops.any fun f => f.lc == lc && ! f.skip then (c.loops.getD lc { holder := none, idx := 0, count := 0 }).idx else 0

/-- The 64-bit argument pair A(a), A(a+1). -/
def Ctx.argPair (c : Ctx) (a : Nat) : Nat := c.args.getD a 0 + 2 ^ 32 * c.args.getD (a + 1) 0

/-- The effective base, exact (R176). -/
def Ctx.effBase (c : Ctx) (stream : Nat) (t : TileDesc) : Int :=
  (t.base : Int) + (if bit t.argSel 7 then (c.argPair (bits t.argSel 5 0) : Int) else 0) +
  (if bit t.loopSel 7 then t.loopStride * (c.loopIdx stream (bits t.loopSel 2 0) : Int) else 0)

/-- FORMAT is one of R175's. -/
def TileDesc.fmtOk (t : TileDesc) : Bool := decide (t.fmt ≤ 5)

/-- Bits of an element (R208). -/
def fmtBits (fmt : Nat) : Nat := if fmt = 0 then 32 else if fmt ≤ 2 then 16 else if fmt ≤ 4 then 8 else 4

/-- Bytes of one row. -/
def TileDesc.rowBytes (t : TileDesc) : Nat := (t.cols * fmtBits t.fmt + 7) / 8

/-- Bytes from a member's base to its end, the block-scale array included (R199, R214). -/
def TileDesc.span (t : TileDesc) : Nat :=
  let d := (t.rows - 1) * t.rowStride + t.rowBytes
  if t.fmt = 5 then max d (t.scaleOff + t.rows * (t.cols / 32)) else d

/-- One past the last byte of an operand's extent (R199). -/
def Opnd.stop (o : Opnd) (batch : Nat) : Nat := o.base + (batch - 1) * o.desc.batchStride + o.desc.span

/-- One past the last byte of a planar operand (R322): planes at BATCH_STRIDE, images at the command's stride. -/
def Opnd.planarStop (o : Opnd) (planes batch istr : Nat) : Nat :=
  o.base + (planes - 1) * o.desc.batchStride + (batch - 1) * istr + o.desc.span

/-- Which chip an operand names: 0 is the issuing chip (R463, R464). -/
def Opnd.chip (o : Opnd) : Nat := if o.desc.mem = 2 then chipField o.base else 0

/-! ### What a command says of an operand -/

/-- One operand of a command: its tile register, its batch count, the memories it accepts, whether it is an accumulator
(0x1016) or a matrix operand (0x1017), whether its placement is tested by 0x1013, the formats it accepts, and for a planar operand its planes and image stride
(0 planes otherwise). -/
structure Need where
  reg : Nat
  batch : Nat
  mems : List Nat
  acc : Bool
  mat : Bool
  placed : Bool
  fmts : List Nat
  planes : Nat
  istr : Nat
deriving DecidableEq, Repr

def allFmts : List Nat := [0, 1, 2, 3, 4, 5]
def plainFmts : List Nat := [0, 1, 2, 3, 4]

/-- An operand with no rule of its own: any memory, any format but BS4. -/
def Need.tile (reg batch : Nat) : Need :=
  { reg := reg, batch := batch, mems := [0, 1, 2], acc := false, mat := false, placed := true
    fmts := plainFmts, planes := 0, istr := 0 }
def Need.accum (reg batch : Nat) (fmts : List Nat) : Need :=
  { Need.tile reg batch with mems := [1], acc := true, fmts := fmts }
def Need.matrix (reg batch : Nat) (fmts : List Nat) : Need :=
  { Need.tile reg batch with mems := [0], mat := true, fmts := fmts }
/-- A table in device memory, named by its effective base. -/
def Need.dev (reg : Nat) : Need := { Need.tile reg 1 with mems := [2] }

/-- One past the last byte an operand reaches (R199, R322). -/
def Need.stop (n : Need) (o : Opnd) : Nat :=
  if n.planes = 0 then o.stop n.batch else o.planarStop n.planes n.batch n.istr

/-- The state a check reads; `far` holds what has been read from another chip. -/
structure Site where
  s : State
  c : Ctx
  stream : Nat
  brick : Nat
  far : Mem

/-- A chip field that names this chip. -/
def State.ownChip (s : State) (chip : Nat) : Bool := chip == 0 || (chip == s.haw.chip && s.haw.chip != 0)

/-- The operand as read at issue: a chip field that names the own chip is dropped (R464). -/
def Site.opnd (x : Site) (reg : Nat) : Option Opnd :=
  match mapGet reg x.c.tiles with
  | none => none
  | some t =>
    let e := x.c.effBase x.stream t
    let b := e.toNat
    some { reg := reg, desc := t
           base := if t.mem = 2 && x.s.ownChip (chipField b) then b % 2 ^ 48 else b }

/-- The effective base is below 0 or at or above 2^64 (R176). -/
def Site.baseBad (x : Site) (reg : Nat) : Bool :=
  match mapGet reg x.c.tiles with
  | none => false
  | some t => let e := x.c.effBase x.stream t; decide (e < 0) || decide ((2 ^ 64 : Int) ≤ e)

/-- The partition's device-space range. -/
def State.range (s : State) (part : Nat) : Nat × Nat :=
  ((s.part part).base * Config.gib, ((s.part part).base + (s.part part).size) * Config.gib)

/-- The descriptor of an operand is malformed (0x101E, R175, R198, R466). -/
def Site.malformed (x : Site) (n : Need) (o : Opnd) : Bool :=
  let t := o.desc
  x.baseBad n.reg || o.base % 64 != 0 || bits t.loopSel 6 3 != 0 || bit t.argSel 6 ||
  (bit t.argSel 7 && bits t.argSel 5 0 == 63) || t.rows == 0 || t.cols == 0 ||
  (t.scaleOff != 0 && t.fmt != 5) || t.rowStride % 64 != 0 ||
  (t.fmtOk && decide (t.rowStride < t.rowBytes)) ||
  (t.mem == 2 && o.chip == 0 && t.fmtOk &&
    (let r := x.s.range x.c.part
     ! (decide (r.1 ≤ o.base) && decide (n.stop o ≤ r.2))))

/-- The window of a memory. -/
def Ctx.window (c : Ctx) (mem : Nat) : Nat × Nat :=
  if mem = 0 then (c.obBase, c.obBase + c.obSize) else (c.amBase, c.amBase + c.amSize)

/-- The extent lies outside the context's window for its memory. -/
def Site.outside (x : Site) (n : Need) (o : Opnd) : Bool :=
  let w := x.c.window o.desc.mem
  decide (o.desc.mem ≤ 1) && o.desc.fmtOk && ! (decide (w.1 ≤ o.base) && decide (n.stop o ≤ w.2))

/-- The test of one code of R198 on one operand. -/
def Site.fails (x : Site) (code : Nat) (n : Need) : Bool :=
  match x.opnd n.reg with
  | none => code == 0x1012
  | some o =>
    if code = 0x101E then x.malformed n o
    else if code = 0x1013 then
      n.placed && ! n.acc && ! n.mat && (! n.mems.contains o.desc.mem || x.outside n o)
    else if code = 0x1016 then n.acc && (o.desc.mem != 1 || x.outside n o)
    else if code = 0x1017 then n.mat && (o.desc.mem != 0 || x.outside n o)
    else if code = 0x1018 then ! n.fmts.contains o.desc.fmt
    else if code = 0x1100 then o.desc.fmt == 5 && o.desc.cols % 32 != 0
    else false

/-- The first code of a list whose test fails. -/
def firstFail (l : List (Nat × Bool)) : Option Nat := (l.find? (·.2)).map (·.1)

/-- The issue checks of R198 over the operands, in the order of its table, with the command's own shape tests
(0x1014, 0x1015, 0x1019) and format pair test (0x1018), then 0x1100 and 0x1101, then the codes of the operation. -/
def Site.check (x : Site) (ns : List Need) (shape : List (Nat × Bool)) (pairBad : Bool) (cvts : List Cvt)
    (own : List (Nat × Bool)) : Option Nat :=
  let any (code : Nat) : Nat × Bool := (code, ns.any (x.fails code) || shape.any fun p => p.1 == code && p.2)
  match firstFail [any 0x1012, any 0x101E, any 0x1013, any 0x1014, any 0x1015, any 0x1016, any 0x1017,
      (0x1018, ns.any (x.fails 0x1018) || pairBad), any 0x1019, any 0x1100,
      (0x1101, cvts.any fun c => decide (1 < c.round))] with
  | some c => some c
  | none => firstFail own

/-! ### Overlaps -/

/-- The extents of two operands overlap in the same memory of the same chip. -/
def overlap (a : Opnd) (ba : Nat) (b : Opnd) (bb : Nat) : Bool :=
  a.desc.mem == b.desc.mem && decide (a.base < b.stop bb) && decide (b.base < a.stop ba)

/-- Two operands occupy exactly the same extent: in place. -/
def sameExtent (a : Opnd) (b : Opnd) (batch : Nat) : Bool :=
  a.desc.mem == b.desc.mem && a.base == b.base && a.stop batch == b.stop batch

/-! ### Reading -/

/-- The address of a row of a batch member. -/
def Opnd.rowAt (o : Opnd) (b r : Nat) : Nat := o.base + b * o.desc.batchStride + r * o.desc.rowStride

/-- An access of device memory that moves no data: two windows (R381), none of the owner (R380), or KEYLESS (R612). -/
def State.accessFault (s : State) (part a n : Nat) : Option Nat :=
  if s.twoWindows a n then some 0x2011
  else if ! s.inWindows part a n then some 0x2010
  else if s.keylessAt part a n then some 0x6030
  else none

/-- What reading `n` bytes faults: a poisoned location first (R366, R646), then STRICT (R205, R376). -/
def Site.readFault (x : Site) (mem a n : Nat) : Option Nat :=
  if mem = 2 ∧ chipField a ≠ 0 then none else
  let m := x.s.memOf x.brick mem
  match if mem = 2 then x.s.accessFault x.c.part a n else none with
  | some c => some c
  | none =>
    if m.poisoned a n then some 0x2003
    else if x.c.strict && m.unwritten (if mem = 2 then devGranule else obGranule) a n then
      some (if mem = 2 then 0x2020 else 0x1021)
    else none

/-- The first fault of a list of reads (memory, address, bytes). -/
def Site.readsFault (x : Site) (l : List (Nat × Nat × Nat)) : Option (Nat × Nat) :=
  l.findSome? fun r => (x.readFault r.1 r.2.1 r.2.2).map fun c => (c, r.2.1)

/-- The reads that rows `r0 .. r0 + n - 1` of member `b` make, with the scale rows of a BS4 tile. -/
def Opnd.rowReads (o : Opnd) (b r0 n : Nat) : List (Nat × Nat × Nat) :=
  (List.range' r0 n).flatMap fun r =>
    (o.desc.mem, o.rowAt b r, o.desc.rowBytes) ::
      (if o.desc.fmt = 5 then
        [(o.desc.mem, o.base + b * o.desc.batchStride + o.desc.scaleOff + r * (o.desc.cols / 32), o.desc.cols / 32)]
      else [])

def Opnd.allReads (o : Opnd) (batch : Nat) : List (Nat × Nat × Nat) :=
  (List.range batch).flatMap fun b => o.rowReads b 0 o.desc.rows

/-- Elements of a row from its bytes. -/
def elems (fmt : Nat) (bs : List Byte) (n : Nat) : List Nat :=
  (List.range n).map fun i =>
    if fmt = 0 then fieldLE bs (4 * i) 4
    else if fmt ≤ 2 then fieldLE bs (2 * i) 2
    else if fmt ≤ 4 then (bs.getD i 0).toNat
    else ((bs.getD (i / 2) 0).toNat >>> (4 * (i % 2))) % 16

/-- The memory an operand's bytes are read from. -/
def Site.memFor (x : Site) (o : Opnd) : Mem := if o.chip ≠ 0 then x.far else x.s.memOf x.brick o.desc.mem

/-- The encodings of a row of a batch member. -/
def Site.row (x : Site) (o : Opnd) (b r : Nat) : List Nat :=
  elems o.desc.fmt ((x.memFor o).read (o.rowAt b r) o.desc.rowBytes) o.desc.cols

/-- A row widened to FP32 (R217). -/
def Site.row32 (x : Site) (o : Opnd) (b r : Nat) : List Nat := (x.row o b r).map (widen o.desc.fmt)

/-- A whole member, row by row, widened. -/
def Site.rows32 (x : Site) (o : Opnd) (b : Nat) : List (List Nat) := (List.range o.desc.rows).map (x.row32 o b)

/-- The scale bytes of a BS4 row (R214). -/
def Site.scales (x : Site) (o : Opnd) (b r : Nat) : List Nat :=
  ((x.memFor o).read
    (o.base + b * o.desc.batchStride + o.desc.scaleOff + r * (o.desc.cols / 32)) (o.desc.cols / 32)).map (·.toNat)

/-! ### Storing -/

/-- Element encodings as bytes. -/
def rowBytesOf (fmt : Nat) (es : List Nat) : List Byte :=
  if fmt = 0 then es.flatMap (leBytes 4)
  else if fmt ≤ 2 then es.flatMap (leBytes 2)
  else es.map (BitVec.ofNat 8)

/-- The store of part of a row, from a column on. -/
def Opnd.storeRow (o : Opnd) (brick b r col : Nat) (es : List Nat) : Store :=
  { mem := o.desc.mem, brick := brick, addr := o.rowAt b r + col * fmtBits o.desc.fmt / 8
    bytes := rowBytesOf o.desc.fmt es }

/-- The stores of whole rows of a member. -/
def Opnd.storeRows (o : Opnd) (brick b : Nat) (rs : List (List Nat)) : List Store :=
  (rs.zip (List.range rs.length)).map fun p => o.storeRow brick b p.2 0 p.1

/-- A store that goes to another chip (R480). -/
def Store.isFar (t : Store) : Bool := t.mem == 2 && chipField t.addr != 0

/-- Device bytes a list of stores moves on this chip: what the regulator is charged for (R403). -/
def devBytes (l : List Store) : Nat := ((l.filter fun t => t.mem == 2 && ! t.isFar).map (·.bytes.length)).sum

/-- The stores of this chip become visible (R181), charged where they reach device memory. -/
def State.commit (s : State) (part : Nat) (l : List Store) : State :=
  let s := s.stores (l.filter fun t => ! t.isFar)
  if devBytes l = 0 then s else s.charge part (devBytes l)

/-- What a store to device memory faults (R380, R381, R612). -/
def Site.writesFault (x : Site) (l : List Store) : Option (Nat × Nat) :=
  l.findSome? fun t =>
    if t.mem = 2 ∧ t.isFar = false then (x.s.accessFault x.c.part t.addr t.bytes.length).map fun c => (c, t.addr)
    else none

/-- The tests of R501 on operands that may name another chip, in ascending order of code. -/
def Site.farOwn (x : Site) (ops : List Opnd) : List (Nat × Bool) :=
  let far := (ops.map Opnd.chip).filter (· != 0)
  [(0x1151, far.any fun c => decide (8192 < c) || (! x.s.fuses.solitary && ! x.s.haw.chips.contains c)),
   (0x1152, x.s.fuses.solitary && far != []),
   (0x1155, far != [] && x.s.job x.c.part == 0)]

end Sys2Proof.Machine
end

