-- ==== Sys2Proof/Machine/Flags.lean ====
section
/-! DEFINITION. The passage of an engine command through C1 to C7 (R178 to R193, R200): waits, the predicate, signals,
loops, the end of streams and lists, and command faults (R565). -/

namespace Sys2Proof.Machine

/-! ### Waits -/

def StreamS.reset : StreamS := { ended := true, busy := .idle, loops := [] }

def Ctx.stream (c : Ctx) (i : Nat) : StreamS := c.streams.getD i StreamS.reset
def Ctx.modStream (c : Ctx) (i : Nat) (g : StreamS → StreamS) : Ctx := { c with streams := modAt c.streams i g }

/-- A wait's condition (R178). -/
def Ctx.waitOk (c : Ctx) (stream : Nat) (w : Wait) : Bool :=
  if w.kind = 0 then true
  else if w.kind = 3 then
    decide ((w.base + w.step * c.loopIdx stream w.stepLc) % 2 ^ 32 ≤ c.counters.getD w.index 0)
  else c.flags.contains w.index

/-- A clearing wait clears its flag when it is consumed (R179). -/
def Ctx.consume (c : Ctx) (w : Wait) : Ctx := if w.kind = 2 then { c with flags := setDel w.index c.flags } else c

/-- C2: a counter wait names a counter above 15 (0x101C). -/
def waitBad (w : Wait) : Bool := w.kind == 3 && decide (15 < w.index)

/-- C2: a signal is invalid in a list of `ranks` bricks (0x101C). -/
def sigBad (g : Sig) (ranks : Nat) : Bool :=
  g.kind == 3 || (g.kind == 2 && (decide (15 < g.index) || g.amount == 0)) ||
  (g.kind != 0 && g.target != 0xFF && decide (ranks ≤ g.target))

/-- C2: a predicate selector is reserved (R183). -/
def selBad (sel : Nat) : Bool := sel != 0 && ! (decide (8 ≤ sel) && decide (sel ≤ 23))

/-- C4: the predicate (R183). -/
def Ctx.runs (c : Ctx) (sel : Nat) : Bool :=
  if sel = 0 then true
  else if sel < 16 then c.preds.getD (sel % 8) false
  else ! c.preds.getD (sel % 8) false

/-! ### Signals -/

/-- The context a signal acts on: this brick's, or that of a rank of the same list (R180). -/
def sigKey (l : RunningList) (own : Nat) (g : Sig) : Nat :=
  if g.target = 0xFF then own else l.bricks.getD g.target 0 * 4 + l.ctx

/-- A signal would take its counter beyond 2^32 - 1, after `extra` added by the other (R182). -/
def State.sigOver (s : State) (k : Nat) (g : Sig) (extra : Nat) : Bool :=
  g.kind == 2 && (match s.ctx k with
    | some c => decide (2 ^ 32 ≤ c.counters.getD g.index 0 + extra + g.amount)
    | none => false)

/-- Either signal of a command would overflow (R182). -/
def State.sigsOver (s : State) (l : RunningList) (own : Nat) (g0 g1 : Sig) : Bool :=
  let k0 := sigKey l own g0
  let k1 := sigKey l own g1
  s.sigOver k0 g0 0 ||
    s.sigOver k1 g1 (if k0 = k1 ∧ g0.kind = 2 ∧ g1.kind = 2 ∧ g0.index = g1.index then g0.amount else 0)

def Ctx.signal (c : Ctx) (g : Sig) : Ctx :=
  if g.kind = 1 then { c with flags := setIns g.index c.flags }
  else if g.kind = 2 then { c with counters := modAt c.counters g.index (· + g.amount) }
  else c

/-- SIG0, then SIG1 (R181). -/
def State.signals (s : State) (l : RunningList) (own : Nat) (g0 g1 : Sig) : State :=
  (s.modCtx (sigKey l own g0) fun c => c.signal g0).modCtx (sigKey l own g1) fun c => c.signal g1

/-! ### Where a command stands -/

/-- The list, context and queue a command runs in. -/
structure Env where
  l : RunningList
  c : Ctx
  key : Nat
  stream : Nat
  brick : Nat

def State.env (s : State) (q : Loc) : Option Env :=
  match s.ctx (ctxKey q) with
  | none => none
  | some c =>
    match s.list? c.owner with
    | none => none
    | some l => some { l := l, c := c, key := ctxKey q, stream := q.stream, brick := q.brick }

def Env.site (e : Env) (s : State) : Site := { s := s, c := e.c, stream := e.stream, brick := e.brick, far := Mem.empty }

/-- Engine of a stream (R160): MX 0, VX 1, WX 2, DX 3, CX 4. -/
def engineOf (stream : Nat) : Nat := stream / 4

/-! ### Faults of commands -/

/-- A command's record (R144, R565): step of R184, tile registers, address, last whole tile. -/
def cmdRec (s : State) (e : Env) (c : Cmd) (code step : Nat) (regs : List Nat) (addr last : Nat) : ErrRec :=
  let regs := (regs ++ List.replicate 8 0xFF).take 8
  let det :=
    if code / 4096 = 1 then
      detailOf ([(1, e.c.rank), (1, e.key % 4), (1, e.stream), (1, step)] ++ regs.map fun r => (1, r))
    else detailOf []
  { ErrRec.mk0 s.now code 2 e.brick noUnit e.l.part with
    command := c.index, engine := engineOf e.stream, queue := e.stream % 4, addr := addr, lastTile := last
    detail := det }

/-- A command faults: its list stops on every brick (R201). 0x2011 carries DEVICE severity (R381). -/
def State.faultCmd (s : State) (e : Env) (c : Cmd) (code step : Nat) (regs : List Nat) (addr last : Nat) : State :=
  let r := cmdRec s e c code step regs addr last
  s.faultList e.l.owner (if code = 0x2011 then { r with severity := 4 } else r)

/-! ### Completion of a command, a stream, a list -/

/-- No loop that encloses the stream's next command has iterations left (R170). -/
def Ctx.loopsDone (c : Ctx) (stream : Nat) : Bool :=
  (c.stream stream).loops.all fun f =>
    let r := c.loops.getD f.lc { holder := none, idx := 0, count := 0 }
    f.skip || decide (r.count ≤ r.idx + 1)

/-- A brick has completed a bundle deadline entry's command for the last time; the entry is met once every brick of the
list has (R170). -/
def DlnEntry.mark (stream index rank : Nat) (d : DlnEntry) : DlnEntry :=
  if d.stream = stream ∧ d.command = index then { d with done := setIns rank d.done } else d

/-- An item ends: a slot that is late misses now, then it is released (R577, R578). -/
def State.endSlots (s : State) (p : Slot → Bool) : State :=
  let s := match lateFirst s.now (s.slots.filter fun x => p x.2) with
    | some n => s.missSlot n
    | none => s
  s.freeSlots p

/-- The bundle deadline entries of a list whose command every brick has completed are met (R170). -/
def State.metEntries (s : State) (owner : Nat) : State :=
  match s.list? owner with
  | none => s
  | some l =>
    let full := l.dlns.filter fun d => decide (l.bricks.length ≤ d.done.length)
    s.endSlots fun x => x.part == l.part && (match x.item with
      | .entry sq _ => ownerOf l.part sq == owner && full.any fun d => d.stream == x.stream && d.command == x.offset
      | _ => false)

/-- Every stream on every brick has passed its last command (R165). -/
def State.listDone (s : State) (l : RunningList) : Bool :=
  l.keys.all fun k => match s.ctx k with
    | some c => c.streams.all (·.ended)
    | none => true

/-- A list whose streams have all ended completes OK; deadline entries never reached are met now (R165, R170). -/
def State.tryComplete (s : State) (owner : Nat) : State :=
  match s.list? owner with
  | none => s
  | some l =>
    if s.listDone l then
      let s := s.endSlots fun x => x.part == l.part && (match x.item with
        | .entry sq _ => ownerOf l.part sq == owner
        | _ => false)
      s.endList owner (Ending.mk0 0 s.now)
    else s

/-- A fence no longer waits for a stream whose command has completed (R188). -/
def StreamS.unfence (k : Nat) (t : StreamS) : StreamS :=
  match t.busy with
  | .exec c rs (.fence w) => { t with busy := .exec c rs (.fence (setDel k w)) }
  | _ => t

/-- A stream passes a command: it goes on, or ends with its last command (R161, R165). -/
def State.endStream (s : State) (e : Env) (ends : Bool) : State :=
  let s := s.modCtx e.key fun x =>
    let ts := modAt x.streams e.stream fun t => { t with busy := .idle, ended := ends }
    { x with streams := ts.map (StreamS.unfence e.stream) }
  if ends then s.tryComplete e.l.owner else s

/-- A command has completed: a bundle deadline entry that names it is met once no enclosing loop has iterations left
(R170). -/
def State.passed (s : State) (e : Env) (c : Cmd) (ends : Bool) : State :=
  let s := match s.ctx e.key with
    | some x =>
      if x.loopsDone e.stream then
        (s.modList e.l.owner fun l => { l with dlns := l.dlns.map (DlnEntry.mark e.stream c.index e.c.rank) }).metEntries
          e.l.owner
      else s
    | none => s
  s.endStream e ends

/-- C7 (and C5a): both signals tested, then performed; the command completes (R181, R182, R184). -/
def State.finish1 (s : State) (e : Env) (c : Cmd) (step : Nat) (regs : List Nat) (ends : Bool) : State :=
  if s.sigsOver e.l e.key c.sig0 c.sig1 then s.faultCmd e c 0x1020 step regs 0 0xFFFFFFFF
  else ((s.signals e.l e.key c.sig0 c.sig1).modList e.l.owner fun l => { l with lastActive := s.now }).passed e c ends

/-- The fences of a context that wait for nothing any more complete, in arbiter order (R162, R188). -/
def State.wakeFences (q : Loc) : Nat → State → State
  | 0, s => s
  | n + 1, s =>
    match s.env q with
    | none => s
    | some e =>
      let found := (List.range 20).findSome? fun i =>
        match (e.c.stream i).busy with
        | .exec c _ (.fence []) => some (i, c)
        | _ => none
      match found with
      | none => s
      | some (i, c) => State.wakeFences q n (s.finish1 { e with stream := i } c 6 [] c.last)

/-- A command completes, and with it every fence that waited for it alone. -/
def State.finish (s : State) (e : Env) (c : Cmd) (step : Nat) (regs : List Nat) (ends : Bool) : State :=
  (s.finish1 e c step regs ends).wakeFences c.loc 20

/-- What C5b and C6 of a command come to. -/
inductive Ran where
  | done (s : State)
  | fault (s : State) (code step addr last : Nat)
  | held (s : State) (h : HeldOp)

/-- The outcome of C5b and C6 carried on (R184). -/
def Ran.settle (r : Ran) (e : Env) (c : Cmd) (regs : List Nat) (ends : Bool) : State :=
  match r with
  | .done s => s.finish e c 6 regs ends
  | .fault s code step addr last => s.faultCmd e c code step regs addr last
  | .held s h => s.modCtx e.key fun x => x.modStream e.stream fun t => { t with busy := .exec c regs h }

/-- C2 of every command (R178 to R183, R198). -/
def cmdC2 (c : Cmd) (e : Env) (decodes onEngine : Bool) (own : List (Nat × Bool)) : Option Nat :=
  firstFail ([(0x1010, ! c.decodes || ! decodes), (0x1011, ! onEngine),
    (0x101C, waitBad c.wait0 || waitBad c.wait1 || sigBad c.sig0 e.l.bricks.length || sigBad c.sig1 e.l.bricks.length),
    (0x101D, selBad c.sel)] ++ own)

/-- The stream is passing over a loop body that runs no times (R191). -/
def Ctx.skipping (c : Ctx) (stream : Nat) : Bool := ((c.stream stream).loops.head?.map (·.skip)).getD false

/-- The stream takes a command now: it has not ended and holds none in execution (C1). -/
def Ctx.ready (c : Ctx) (stream : Nat) : Bool :=
  let t := c.stream stream
  ! t.ended && ! t.busy.isExec

/-- A stream held at C3 keeps the time it was first held (R200). -/
def StreamS.hold (t : StreamS) (now : Nat) : StreamS :=
  match t.busy with
  | .c3 _ => t
  | _ => { t with busy := .c3 now }

/-- The device runs lists: it is up and awake. -/
def State.awake (s : State) : Bool := s.phase == .up && s.boot.ready && (s.wdn.st == .run || s.wdn.st == .idle)

/-- A command passes C1 to C7. `fits` says that its fields lie within their public widths, `eng` which engines accept it,
`own` are its further C2 tests, `regs` its tile registers, `body` its C5b and C6, `pass` what it does to
its context when it is skipped (C5a) or passed over with a loop body that runs no times. -/
def State.command (s : State) (c : Cmd) (fits : Bool) (eng : Nat → Bool) (own : Env → List (Nat × Bool))
    (regs : List Nat) (pass : Ctx → Ctx) (body : State → Env → Ran) : State :=
  match s.env c.loc with
  | none => s
  | some e =>
    if ! s.awake || ! e.c.ready c.loc.stream then s
    else if e.c.skipping c.loc.stream then
      (s.modCtx e.key pass).endStream e c.last
    else
      match cmdC2 c e fits (eng (engineOf c.loc.stream)) (own e) with
      | some code => s.faultCmd e c code 2 regs 0 0xFFFFFFFF
      | none =>
        if ! (e.c.waitOk e.stream c.wait0 && e.c.waitOk e.stream c.wait1) then
          s.modCtx e.key fun x => x.modStream e.stream fun t => t.hold s.now
        else
          let x := (e.c.consume c.wait0).consume c.wait1
          let s := (s.modCtx e.key fun _ => x).modList e.l.owner fun l => { l with lastActive := s.now }
          let e := { e with c := x }
          if ! x.runs c.sel then (s.modCtx e.key pass).finish e c 5 regs c.last
          else (body s e).settle e c regs c.last

/-- A command whose fields are checked by one list of codes in C5b, and whose operation then runs. -/
def Ran.checked (s : State) (code : Option Nat) (k : Unit → Ran) : Ran :=
  match code with
  | some c => .fault s c 5 0 0xFFFFFFFF
  | none => k ()

/-- A held command goes on. -/
def State.resume (s : State) (q : Loc) (k : State → Env → Cmd → HeldOp → Option Ran) : State :=
  match s.env q with
  | none => s
  | some e =>
    match (e.c.stream q.stream).busy with
    | .exec c regs h =>
      match k s e c h with
      | some r => r.settle e c regs c.last
      | none => s
    | _ => s

end Sys2Proof.Machine
end

