-- ==== Sys2Proof/WellFormed.lean ====
section
/-! DEFINITION. Which commands are well formed: every operand within the width or range its rule gives it. The `fits`
tests of the engine commands are also what C2 asks of engine code (0x1010). -/

namespace Sys2Proof

/-- A value of `w` bits. -/
def fitsW (w v : Nat) : Bool := decide (v < 2 ^ w)
def fitsOpt (w : Nat) (o : Option Nat) : Bool := match o with | some v => fitsW w v | none => true

/-! ### Engine commands -/

def fitsCvt (c : Cvt) : Bool := fitsW 2 c.round && fitsW 1 c.ovf
def fitsScale (c : Scale) : Bool := fitsW 2 c.src && fitsW 32 c.val
def fitsWait (w : Wait) : Bool := fitsW 2 w.kind && fitsW 6 w.index && fitsW 32 w.base && fitsW 8 w.step && fitsW 3 w.stepLc
def fitsSig (g : Sig) : Bool := fitsW 2 g.kind && fitsW 6 g.index && fitsW 16 g.amount && fitsW 8 g.target
/-- The fields every engine command carries (R178 to R183). -/
def fitsCmd (c : Cmd) : Bool :=
  fitsWait c.wait0 && fitsWait c.wait1 && fitsSig c.sig0 && fitsSig c.sig1 && fitsW 5 c.sel
/-- A queue: 16 bricks, 4 contexts, 20 streams (R159, R160). -/
def fitsLoc (l : Loc) : Bool := decide (l.brick < 16) && decide (l.ctx < 4) && decide (l.stream < 20)
/-- COPY (R194). -/
def fitsCopy (o : CopyF) : Bool :=
  fitsW 6 o.src && fitsW 6 o.dst && fitsW 1 o.dstKind && fitsW 6 o.trFirst && fitsW 7 o.trCount && fitsW 16 o.batch &&
  fitsCvt o.cvt
/-- The count source of LOOP_BEGIN (R189). -/
def fitsCount (c : CountSrc) : Bool :=
  match c with
  | .imm n => fitsW 24 n
  | .counter i => fitsW 4 i
  | .arg w => fitsW 6 w
/-- The source of PRED_SET (R187). -/
def fitsPred (p : PredSrc) : Bool :=
  match p with
  | .const _ => true
  | .arg w b => fitsW 6 w && fitsW 5 b
  | .flag i => fitsW 6 i
  | .cmp c op imm => fitsW 4 c && decide (op < 3) && fitsW 32 imm
  | .and a b => fitsW 3 a && fitsW 3 b
  | .or a b => fitsW 3 a && fitsW 3 b
/-- Prologue, epilogue and reuse fields (R235, R253). -/
def fitsEpi (e : EpiF) : Bool :=
  fitsW 8 e.proFmt && fitsCvt e.proCvt && fitsScale e.proScale && fitsOpt 6 e.bias && fitsScale e.epiScale &&
  fitsW 6 e.split && fitsW 4 e.actL && fitsW 4 e.actH && fitsW 4 e.red && fitsW 6 e.redT && fitsOpt 6 e.gateT &&
  fitsOpt 6 e.d && fitsCvt e.dCvt && fitsW 4 e.stream && fitsW 1 e.reuse && fitsW 8 e.reuseBound &&
  fitsW 4 e.reuseMaxAge && fitsW 8 e.reuseEpoch && fitsW 6 e.reuseT
/-- The matrix commands (R235). -/
def fitsMat (o : MatF) : Bool :=
  fitsW 6 o.a && fitsW 6 o.b && fitsW 6 o.c && fitsW 1 o.bLayout && fitsW 16 o.batch && fitsEpi o.epi
/-- ACT (R280). -/
def fitsAct (o : ActF) : Bool :=
  fitsW 6 o.x && fitsW 6 o.y && fitsW 4 o.act && fitsScale o.scale && fitsCvt o.cvt && fitsW 16 o.batch
/-- NORM_ROW (R282 to R284). -/
def fitsNorm (o : NormF) : Bool :=
  fitsW 6 o.x && fitsW 6 o.y && fitsW 2 o.mode && fitsW 32 o.eps && fitsOpt 6 o.gamma && fitsOpt 6 o.beta &&
  fitsOpt 6 o.statT && fitsCvt o.cvt
/-- SOFTMAX_ROW (R291). -/
def fitsSoft (o : SoftF) : Bool :=
  fitsW 6 o.x && fitsW 6 o.y && fitsScale o.c && fitsW 2 o.maskMode && fitsW 6 o.maskT && fitsOpt 6 o.statT &&
  fitsCvt o.cvt
/-- ATTN_BLOCK (R293). -/
def fitsAttn (o : AttnF) : Bool :=
  fitsW 6 o.q && fitsW 2 o.kvSrc && fitsW 6 o.k && fitsW 6 o.v && fitsW 6 o.splT && fitsW 2 o.seqSrc && fitsW 20 o.seq &&
  fitsW 32 o.firstToken && fitsW 24 o.tokens && fitsW 9 o.dv && fitsScale o.c && fitsW 2 o.maskMode && fitsW 6 o.maskT &&
  fitsW 6 o.oT && fitsOpt 6 o.stateT && fitsW 1 o.stateIn && fitsW 1 o.final && fitsW 6 o.y && fitsCvt o.yCvt &&
  fitsW 16 o.batch && fitsW 7 o.group
/-- GATHER_PAGES and SCATTER (R314). -/
def fitsPages (o : PagesF) : Bool :=
  fitsW 2 o.form && fitsW 6 o.splT && fitsW 2 o.seqSrc && fitsW 20 o.seq && fitsW 32 o.firstToken && fitsW 24 o.tokens &&
  fitsW 6 o.head0 && fitsW 7 o.heads && fitsOpt 6 o.kt && fitsOpt 6 o.vt && fitsW 2 o.srcSeqSrc && fitsW 20 o.srcSeq &&
  fitsW 16 o.firstSlot && fitsW 17 o.slots
/-- CONV2D (R324). -/
def fitsConv (o : ConvF) : Bool :=
  fitsW 6 o.x && fitsW 6 o.f && fitsW 6 o.y && fitsW 16 o.cin && fitsW 5 o.fh && fitsW 5 o.fw && fitsW 4 o.sh &&
  fitsW 4 o.sw && fitsW 3 o.dh && fitsW 3 o.dw && fitsW 1 o.acc && fitsW 16 o.batch && fitsW 32 o.xIstr &&
  fitsW 32 o.yIstr && fitsEpi o.epi
/-- POOL2D (R334). -/
def fitsPool (o : PoolF) : Bool :=
  fitsW 6 o.x && fitsW 6 o.y && fitsW 16 o.ch && fitsW 5 o.fh && fitsW 5 o.fw && fitsW 4 o.sh && fitsW 4 o.sw &&
  fitsW 3 o.dh && fitsW 3 o.dw && fitsW 2 o.mode && fitsCvt o.cvt && fitsW 16 o.batch && fitsW 32 o.xIstr && fitsW 32 o.yIstr
/-- RESAMPLE (R337). -/
def fitsResamp (o : ResampF) : Bool :=
  fitsW 6 o.x && fitsW 6 o.y && fitsW 16 o.ch && fitsW 2 o.kernel && fitsW 32 o.rx && fitsW 32 o.ry && fitsW 32 o.ox &&
  fitsW 32 o.oy && fitsCvt o.cvt && fitsW 16 o.batch && fitsW 32 o.xIstr && fitsW 32 o.yIstr
def fitsRngSrc (r : RngSrc) : Bool := fitsW 2 r.src && fitsW 6 r.arg && fitsW 64 r.imm
/-- RNG_FILL (R352). -/
def fitsRng (o : RngF) : Bool :=
  fitsW 6 o.y && fitsW 2 o.gen && fitsW 3 o.dist && fitsW 32 o.p0 && fitsW 32 o.p1 && fitsRngSrc o.seed && fitsRngSrc o.tid &&
  fitsRngSrc o.idx && fitsW 32 o.idxRow && fitsW 32 o.idxBatch && fitsW 4 o.idxLsel && fitsW 32 o.idxLstr &&
  fitsW 16 o.batch && fitsCvt o.cvt
/-- COLL_REDUCE and COLL_SEND (R491). -/
def fitsColl (o : CollF) : Bool :=
  fitsW 3 o.op && fitsW 1 o.redop && fitsW 2 o.groupSrc && fitsW 6 o.groupArg && fitsW 1 o.tagSrc && fitsW 32 o.tag &&
  fitsW 1 o.src && fitsW 6 o.x && fitsW 6 o.y && fitsW 16 o.blocks && fitsW 4 o.log2V && fitsW 2 o.leafSrc &&
  fitsW 16 o.leaf && fitsW 14 o.leaves && fitsW 16 o.root && fitsW 3 o.predIn && fitsW 3 o.predOut && fitsCvt o.cvt
/-- SCALE_UPDATE (R502). -/
def fitsScaleF (o : ScaleF) : Bool :=
  fitsW 3 o.mode && fitsW 6 o.x && fitsW 6 o.src && fitsW 6 o.src2 && fitsW 6 o.recT && fitsW 6 o.r && fitsW 1 o.acc &&
  fitsOpt 6 o.out && fitsW 32 o.maxnorm && fitsW 16 o.batch
/-- NONFINITE_VOTE (R508). -/
def fitsVote (o : VoteF) : Bool := fitsW 6 o.x && fitsW 3 o.pred && fitsW 1 o.acc && fitsW 16 o.batch

/-! ### Events and set-up commands -/

/-- A PCIe function: PF0, VF1 to VF15, PF1 (R105). -/
def fitsFunc (f : Func) : Bool :=
  match f with
  | .pf0 => true
  | .vf n => decide (1 ≤ n) && decide (n < 16)
  | .pf1 => true
/-- A function of HIO0 with a ring page, 0 is PF0 (R118), and a ring of it. -/
def fitsRing (f n : Nat) : Bool := decide (f < 16) && decide (n < 32)
/-- A port binding (R467). -/
def fitsBinding (b : Binding) : Bool :=
  fitsW 48 b.mac && fitsW 16 b.partnerPort && fitsW 16 b.vlan && fitsW 8 b.prioData && fitsW 8 b.prioCtrl && fitsW 8 b.used
/-- An installation record (R467). -/
def fitsInst (r : InstRec) : Bool :=
  fitsW 32 r.magic && fitsW 32 r.format && fitsW 32 r.count && fitsW 64 r.instId && fitsW 64 r.sequence &&
  r.ports.all fitsBinding && r.chips.all fun e => fitsW 64 e.serial && fitsW 16 e.chip
/-- A bank: 256-byte image headers, words of the concord list (R70, R76, R79). -/
def fitsBank (b : Bank) : Bool :=
  fitsW 32 b.seq && fitsW 32 b.count &&
  (b.slots.all fun x => fitsW 32 x.type && fitsW 32 x.offset && fitsW 32 x.length && decide (x.image.header.length = 256)) &&
  b.concord.drv.all fun e => fitsW 32 e.ifver
/-- What training finds: eight stacks of 64 pseudo-channels (R93, R368). -/
def fitsTrain (t : TrainIn) : Bool :=
  decide (t.serials.length = 8) && t.failedPcs.all (fun p => decide (p < 512)) && t.failedStacks.all fun k => decide (k < 8)
def fitsBoot (b : BootIn) : Bool :=
  fitsBank b.bankA && fitsBank b.bankB && fitsTrain b.train && (match b.instRec with | some r => fitsInst r | none => true)
def fitsWarm (w : WarmIn) : Bool := w.unhealthy.all fun k => decide (k < 8)
/-- A received Hawser frame: its header fields' widths, the 16-byte operation header (R474). -/
def fitsFrame (h : HawFrame) : Bool :=
  decide (h.port < 16) && fitsW 16 h.src && fitsW 16 h.job && fitsW 32 h.psn && fitsW 32 h.ackPsn && decide (h.lane < 16) &&
  fitsW 1 h.keyId && decide (h.op.length = 16) && decide (h.data.length ≤ 8192)
def fitsPacket (p : Packet) : Bool :=
  decide (p.port < 4) && fitsOpt 12 p.vlan && fitsW (if p.ipv6 then 128 else 32) p.dstIp && fitsW 16 p.udpPort
def fitsProgress (p : Progress) : Bool := decide (p.sq < 32)
/-- A stream of the ingest block and an exposure of its epoch (R424). -/
def fitsEpoch (n x : Nat) : Bool := decide (n < 8) && fitsW 32 x
def fitsEcc (e : EccSite) : Bool := fitsW 40 e.addr && decide (e.slice < 8) && decide (e.way < 16)

/-- Every operand of the command is within the width or range its rule gives it. -/
def wellFormed (i : Instr) : Bool :=
  match i with
  | .pwrGoodRise b | .coldReset b | .seizeExit b | .secMboxDone b => fitsBoot b
  | .setupColdReq _ b => fitsBoot b
  | .warmResetN w | .perst0N w | .hio0LinkLoss w | .flrPf0 w => fitsWarm w
  | .setupReset _ w => fitsWarm w
  | .i3cWarmResetRequest _ _ w => fitsWarm w
  | .perst1N p | .hio1LinkLoss p | .flrPf1 p => p.all fitsProgress
  | .flrVf n => decide (1 ≤ n) && decide (n < 16)
  | .setupPartReset _ | .powerLoss => true
  | .thermTrip die => decide (die < 40)
  | .referenceLost _ p w => p.all fitsProgress && fitsWarm w
  | .meshLinkFail l => fitsW 16 l
  | .ptpSync port domain identity time => decide (port < 4) && fitsW 8 domain && fitsW 64 identity && fitsW 80 time
  | .ptpAnnounce port domain m =>
    decide (port < 4) && fitsW 8 domain && fitsW 8 m.priority1 && fitsW 8 m.clockClass && fitsW 8 m.accuracy &&
    fitsW 16 m.variance && fitsW 8 m.priority2 && fitsW 64 m.identity && fitsW 16 m.steps
  | .syncTimeout | .deviceTimeStep | .ppsInEdge | .ppsOut | .seizeN | .jtagSeize => true
  | .flashRead | .flashErase | .flashProgram | .flashCommandDone _ => true
  | .override r => fitsW 64 r.serial && r.pairs.all (fitsW 32)
  | .goldenUpdate _ | .lifecycleRecord _ | .debugToken _ _ _ | .linkSecretRecord _ _ _ | .debugLevelRequest _ _ => true
  | .partDrvIfver f _ => decide (f < 16)
  | .setupLock _ => true
  | .functionSetupLock f _ => decide (f < 16)
  | .registerWrite f off _ _ | .registerRead f off _ => fitsFunc f && fitsW 32 off
  | .partitionAlloc n | .allocClearDone n | .partitionRelease n => decide (n < 16)
  | .pinEntryWrite n e _ => decide (n < 16) && decide (e < 64)
  | .reservedRegionWrite k _ => decide (1 ≤ k) && decide (k < 8)
  | .sqEnable f n _ | .sqDisable f n _ | .cqEnable f n _ | .cqDisable f n _ | .ringSqnRestart f n _ => fitsRing f n
  | .errRingEnable f _ | .errRingDisable f _ => decide (f < 16)
  | .doorbellSweep f b => decide (f < 16) && decide (b.length = 512)
  | .descriptorFetch f n b => fitsRing f n && decide (b.length = 64)
  | .nop f n | .runList f n | .waitRing f n | .waitEpoch f n | .timestamp f n => fitsRing f n
  | .hostCopy f n _ => fitsRing f n
  | .pcieErrorResponse f n _ _ => fitsRing f n
  | .pcieCompletionTimeout f n _ => fitsRing f n
  | .completionWrite f n | .irqTimer f n | .listStart f n | .contextDeadlock f n => fitsRing f n
  | .msixUnmask f v => decide (f < 16) && decide (v < if f = 0 then 34 else 33)
  | .copy c o => fitsCmd c && fitsLoc c.loc && fitsCopy o
  | .loopBegin c lc src => fitsCmd c && fitsLoc c.loc && decide (lc < 8) && fitsCount src
  | .loopEnd c lc => fitsCmd c && fitsLoc c.loc && decide (lc < 8)
  | .predSet c p src => fitsCmd c && fitsLoc c.loc && decide (p < 8) && fitsPred src
  | .fence c => fitsCmd c && fitsLoc c.loc
  | .matmul c o | .matmulAcc c o | .matmulGated c o => fitsCmd c && fitsLoc c.loc && fitsMat o
  | .epilogueStreamHandoff l | .pinResume l | .forkResume l | .collTimeout l => fitsLoc l
  | .act c o => fitsCmd c && fitsLoc c.loc && fitsAct o
  | .normRow c o => fitsCmd c && fitsLoc c.loc && fitsNorm o
  | .softmaxRow c o => fitsCmd c && fitsLoc c.loc && fitsSoft o
  | .attnBlock c o => fitsCmd c && fitsLoc c.loc && fitsAttn o
  | .gatherPages c o | .scatterWrite c o | .scatterFork c o | .scatterFree c o => fitsCmd c && fitsLoc c.loc && fitsPages o
  | .conv2d c o => fitsCmd c && fitsLoc c.loc && fitsConv o
  | .pool2d c o => fitsCmd c && fitsLoc c.loc && fitsPool o
  | .resample c o => fitsCmd c && fitsLoc c.loc && fitsResamp o
  | .rngFill c o => fitsCmd c && fitsLoc c.loc && fitsRng o
  | .allReduce c o | .reduceScatter c o | .vetoOr c o | .allGather c o | .broadcast c o =>
    fitsCmd c && fitsLoc c.loc && fitsColl o
  | .amax c o | .sumsq c o | .push c o | .clip c o | .product c o => fitsCmd c && fitsLoc c.loc && fitsScaleF o
  | .nonfiniteVote c o => fitsCmd c && fitsLoc c.loc && fitsVote o
  | .eccCorrected e => fitsEcc e
  | .eccUncorrectable e _ => fitsEcc e
  | .tagCopyError k _ => decide (k < 8)
  | .obAmEccError b _ _ _ => decide (b < 16)
  | .engineError b _ l => decide (b < 16) && fitsLoc l
  | .patrolScrub _ => true
  | .chunkCopyDone k | .copyBackChunkDone k => decide (k < 8)
  | .nodeMove l => l.all (fitsW 40)
  | .bucketRefill m => decide (m < 8)
  | .ingestPortEnable q | .ingestLinkLost q | .ingestLinkUp q => decide (q < 4)
  | .ingestEnable => true
  | .sourceWrite n _ => decide (n < 64)
  | .ruleWrite n _ => decide (n < 128)
  | .streamEnable n _ | .streamDisable n _ | .ingStrmnResume n _ => decide (n < 8)
  | .ingestPacket p => fitsPacket p
  | .arpRequest r => decide (r.port < 4) && fitsW (if r.ipv6 then 128 else 32) r.target
  | .gatherLimit n x | .fusionStart n x | .epochWritten n x => fitsEpoch n x
  | .hawserPortEnable p | .linkTrained p | .lldpSend p | .bindingTimeout p | .hawserLinkLost p | .replayTimer p =>
    decide (p < 16)
  | .lldpReceived p mac pp _ => decide (p < 16) && fitsW 48 mac && fitsW 16 pp
  | .write h | .readReq h | .readResp h | .collData h | .collCtrl h | .ack h | .nak h | .probe h | .portState h =>
    fitsFrame h
  | .hawserReservedFrame p ty => decide (p < 16) && fitsW 8 ty
  | .pfcPause p prio _ => decide (p < 16) && decide (prio < 8)
  | .ackTimer c l | .retransmitTimer c l => fitsW 16 c && decide (l < 16)
  | .hawserFcsFailure p _ => decide (p < 16)
  | .hawJobWrite n _ => decide (n < 16)
  | .sensorSample i raw => decide (i < 144) && fitsW 32 raw
  | .decisionPeriod => true
  | .levelChange b | .storeDrain b => decide (b < 16)
  | .powerEstimate _ _ => true
  | .avsResponse _ | .wardenWatchdog | .idleTimeout | .dozeTimeout | .wardenTimeout | .enterWarden | .enterOff => true
  | .hostWakeRequest p _ => decide (p < 2)
  | .wakeTime => true
  | .railsInRegulation t _ => fitsTrain t
  | .drainTimeout b l => decide (b < 16) && l.all (fitsW 40)
  | .errorHandle | .handlerTimeout => true
  | .bucketLeak _ _ => true
  | .errRetireReq _ | .errReadmitReq _ | .selfTestDone _ | .probationEnd _ | .handOver | .deadlineTest => true
  | .debugTrigger l => l.all fun g => fitsW 8 g.group && fitsW 8 g.bit
  | .getVersion | .getCapabilities | .negotiateAlgorithms _ _ | .getDigests => true
  | .getCertificate k o n => fitsW 8 k && fitsW 16 o && fitsW 16 n
  | .challenge k nonce => fitsW 8 k && fitsW 256 nonce
  | .getMeasurements i nonce => fitsW 8 i && fitsW 256 nonce
  | .spdmUnsupportedRequest c => fitsW 8 c
  | .coldResetNAssert | .pf1FlrReadiness | .ppsOutFall => true
  | .perstNDeassert n | .pcieLinkTrained n => decide (n < 2)
  | .delayResp port domain identity delay => decide (port < 4) && fitsW 8 domain && fitsW 64 identity && fitsW 64 delay

end Sys2Proof
end

