-- ==== Sys2Proof/Machine/Control.lean ====
section
/-! DEFINITION. The control commands of the command model: loops, predicates, fences, and the context deadlock (R187 to
R193, R200). -/

namespace Sys2Proof.Machine

/-- A loop body that will not run is entered, to be passed over (R191). -/
def Ctx.enterSkip (stream lc : Nat) (x : Ctx) : Ctx :=
  x.modStream stream fun t => { t with loops := { lc := lc, skip := true } :: t.loops }

/-- The innermost loop is left. -/
def Ctx.leaveLoop (stream : Nat) (x : Ctx) : Ctx :=
  x.modStream stream fun t => { t with loops := t.loops.tail }

/-- The count of a LOOP_BEGIN, read at C4 (R189). -/
def Ctx.count (x : Ctx) (src : CountSrc) : Nat :=
  match src with
  | .imm n => n
  | .counter i => x.counters.getD i 0
  | .arg w => x.args.getD w 0

/-- A loop is entered: its register is held and counts from 0 (R190, R193). -/
def Ctx.enterLoop (stream lc n : Nat) (x : Ctx) : Ctx :=
  { (x.modStream stream fun t => { t with loops := { lc := lc, skip := false } :: t.loops }) with
    loops := modAt x.loops lc fun _ => { holder := some stream, idx := 0, count := n } }

/-- The loop register is held by an active loop of the context (0x101B). -/
def Ctx.held (x : Ctx) (lc : Nat) : Bool := (x.loops.getD lc { holder := none, idx := 0, count := 0 }).holder.isSome

/-- LOOP_BEGIN (R189 to R193). -/
def execLoopBegin (c : Cmd) (lc : Nat) (src : CountSrc) (s : State) : Res :=
  .next (s.command c (fitsCmd c && fitsW 3 lc && fitsCount src) (fun _ => true)
    (fun e => [(0x101A, decide (4 ≤ (e.c.stream e.stream).loops.length)), (0x101B, e.c.held lc)]) []
    (Ctx.enterSkip c.loc.stream lc)
    (fun s e =>
      if e.c.count src = 0 then .done (s.modCtx e.key (Ctx.enterSkip e.stream lc))
      else .done (s.modCtx e.key (Ctx.enterLoop e.stream lc (e.c.count src)))))

/-- After the body's last command: the next iteration, or the loop is left and its register free (R190). -/
def Ctx.loopStep (stream lc : Nat) (x : Ctx) : Ctx :=
  let r := x.loops.getD lc { holder := none, idx := 0, count := 0 }
  if r.idx + 1 < r.count then { x with loops := modAt x.loops lc fun r => { r with idx := r.idx + 1 } }
  else { x.leaveLoop stream with loops := modAt x.loops lc fun _ => { holder := none, idx := 0, count := 0 } }

/-- The loop has no iteration left. -/
def Ctx.loopOver (x : Ctx) (lc : Nat) : Bool :=
  let r := x.loops.getD lc { holder := none, idx := 0, count := 0 }
  decide (r.count ≤ r.idx + 1)

/-- C2 of LOOP_END: it carries the selector 0 and matches the LOOP_BEGIN it closes (R193). -/
def Ctx.unmatched (x : Ctx) (stream lc : Nat) : Bool :=
  match (x.stream stream).loops with
  | f :: _ => f.lc != lc
  | [] => true

/-- LOOP_END (R190 to R193): it waits and signals at the end of every iteration. -/
def loopEnd (c : Cmd) (lc : Nat) (s : State) : State :=
  match s.env c.loc with
  | none => s
  | some e =>
    if ! s.awake || ! e.c.ready c.loc.stream then s
    else if e.c.skipping c.loc.stream then (s.modCtx e.key (Ctx.leaveLoop c.loc.stream)).endStream e c.last
    else
      match cmdC2 c e (fitsCmd c && fitsW 3 lc) true [(0x101D, c.sel != 0), (0x101B, e.c.unmatched e.stream lc)] with
      | some code => s.faultCmd e c code 2 [] 0 0xFFFFFFFF
      | none =>
        if ! (e.c.waitOk e.stream c.wait0 && e.c.waitOk e.stream c.wait1) then
          s.modCtx e.key fun x => x.modStream e.stream fun t => t.hold s.now
        else
          let x := (e.c.consume c.wait0).consume c.wait1
          let s := (s.modCtx e.key fun _ => x).modList e.l.owner fun l => { l with lastActive := s.now }
          (s.finish { e with c := x } c 6 [] (c.last && x.loopOver lc)).modCtx e.key (Ctx.loopStep e.stream lc)

def execLoopEnd (c : Cmd) (lc : Nat) (s : State) : Res := .next (loopEnd c lc s)

/-- The value PRED_SET writes (R187). -/
def Ctx.predValue (x : Ctx) (src : PredSrc) : Bool :=
  match src with
  | .const v => v
  | .arg w b => bit (x.args.getD w 0) b
  | .flag i => x.flags.contains i
  | .cmp c op imm =>
    let v := x.counters.getD c 0
    if op = 0 then decide (imm ≤ v) else if op = 1 then v == imm else decide (v < imm)
  | .and a b => x.preds.getD a false && x.preds.getD b false
  | .or a b => x.preds.getD a false || x.preds.getD b false

def Ctx.setPred (p : Nat) (v : Bool) (x : Ctx) : Ctx := { x with preds := modAt x.preds p fun _ => v }

/-- PRED_SET (R187). -/
def execPredSet (c : Cmd) (p : Nat) (src : PredSrc) (s : State) : Res :=
  .next (s.command c (fitsCmd c && fitsW 3 p && fitsPred src) (fun _ => true) (fun _ => []) [] id
    (fun s e => .done (s.modCtx e.key (Ctx.setPred p (e.c.predValue src)))))

/-- The streams of a context with a command in execution. -/
def Ctx.running (x : Ctx) : List Nat := (List.range 20).filter fun i => (x.stream i).busy.isExec

/-- FENCE (R188): it completes once every command of its context that started earlier has completed. -/
def execFence (c : Cmd) (s : State) : Res :=
  .next (s.command c (fitsCmd c) (fun _ => true) (fun _ => []) [] id
    (fun s e => if e.c.running = [] then .done s else .held s (.fence e.c.running)))

/-- A stream that holds no command back from progress: ended, held at C3 for 10 us, or holding a block for a consumer
that does not come (R200, R261). -/
def StreamS.stuck (now lastActive : Nat) (t : StreamS) : Bool :=
  t.ended || (match t.busy with
    | .c3 since => decide (since + 10000 ≤ now) && decide (lastActive + 10000 ≤ now)
    | .exec _ _ (.e8 _ _ _) => decide (lastActive + 10000 ≤ now)
    | .exec _ _ (.coll need taken) => decide (lastActive + 10000 ≤ now) && decide (taken.length < need)
    | _ => false)

/-- CONTEXT_DEADLOCK (R200): for 10 us no command of the list has executed and every stream with commands is held. -/
def execContextDeadlock (f n : Nat) (s : State) : Res :=
  match s.list? (ownerOf f n) with
  | none => .next s
  | some l =>
    let cs := l.keys.filterMap s.ctx
    if s.awake && cs.all (fun x => x.streams.all (StreamS.stuck s.now l.lastActive)) &&
        cs.any (fun x => x.streams.any fun t => ! t.ended) then
      .next (s.faultList l.owner (ErrRec.mk0 s.now 0x1022 2 (l.bricks.headD 0) noUnit l.part))
    else .next s

end Sys2Proof.Machine
end

