-- ==== Sys2Proof/Machine/Remote.lean ====
section
/-! DEFINITION. Operands on another chip (R463 to R466, R480 to R485): the frames that read them and store to them, and
the command that waits for the answers. -/

namespace Sys2Proof.Machine

/-- Bytes cut into pieces of at most 8,192 with their addresses (R480). -/
def pieces : Nat → Nat → List Byte → List (Nat × List Byte)
  | 0, _, _ => []
  | k + 1, a, bs => if bs.length = 0 then [] else (a, bs.take 8192) :: pieces k (a + 8192) (bs.drop 8192)

/-- The requests of a read: at most 8,192 bytes each. -/
def readPieces : Nat → Nat → Nat → List (Nat × Nat)
  | 0, _, _ => []
  | k + 1, a, n => if n = 0 then [] else (a, min n 8192) :: readPieces k (a + 8192) (n - 8192)

/-- The operation header of WRITE and READ_REQ (R474): offset, tag, and a length. -/
def opHead (off tag len : Nat) : List Byte := beBytes 8 off ++ beBytes 4 tag ++ beBytes 4 len

/-- One frame of a remote access, under the next tag. -/
def State.sendAccess (s : State) (type a owner job len : Nat) (data : List Byte) : State :=
  let t := s.haw.nextTag
  let off := a % 2 ^ 48
  let s := { s with haw := { s.haw with nextTag := (t + 1) % 2 ^ 32 } }
  s.sendSeq (chipField a) (laneOf off) type owner t job (opHead off t len) data

/-- The tags of the next `n` frames. -/
def nextTags (t n : Nat) : List Nat := (List.range n).map fun i => (t + i) % 2 ^ 32

/-- The reads that go to another chip. -/
def farReads (l : List (Nat × Nat × Nat)) : List (Nat × Nat) :=
  (l.filter fun r => r.1 == 2 && chipField r.2.1 != 0).flatMap fun r => readPieces (r.2.2 / 8192 + 1) r.2.1 r.2.2

def State.addRemote (s : State) (r : RemoteOp) : State :=
  { s with haw := { s.haw with remote := s.haw.remote ++ [r] } }
def State.dropRemote (s : State) (q : Loc) : State :=
  { s with haw := { s.haw with remote := s.haw.remote.filter fun r => r.cmd.loc != q } }
def State.remoteAt (s : State) (q : Loc) : Option RemoteOp := s.haw.remote.find? fun r => r.cmd.loc == q

/-- A chip that a list of addresses names and no plane reaches (R485). -/
def State.unreachable (s : State) (as : List Nat) : Bool :=
  as.any fun a => chipField a != 0 && ! s.reachable (chipField a)

/-- The command reads what it needs: operands of this chip at once, operands of another chip by READ_REQ, after which it
is held until the data is back (R480, R483). -/
def withReads (s : State) (e : Env) (c : Cmd) (i : Instr) (reads : List (Nat × Nat × Nat))
    (k : State → Site → Ran) : Ran :=
  match (e.site s).readsFault reads with
  | some (code, addr) => .fault s code 6 addr 0xFFFFFFFF
  | none =>
    let far := farReads reads
    let own := ((reads.filter fun r => r.1 == 2 && chipField r.2.1 == 0).map (·.2.2)).sum
    let s1 := if own = 0 then s else s.charge e.c.part own
    if far = [] then k s1 (e.site s1)
    else
      match s.remoteAt c.loc with
      | some r => let s1 := s1.dropRemote c.loc; k s1 { e.site s1 with far := r.far }
      | none =>
        if s.unreachable (far.map (·.1)) then .fault s 0x3021 6 ((far.map (·.1)).headD 0) 0xFFFFFFFF
        else
          let t := s.haw.nextTag
          let s := far.foldl (fun s p => s.sendAccess fReadReq p.1 e.l.owner (s.job e.c.part) p.2 []) s
          let tags := nextTags t far.length
          .held (s.addRemote { cmd := c, instr := i, owner := e.l.owner, tiles := e.c.tiles, waiting := tags
                               reads := tags.zip (far.map (·.1)), far := Mem.empty, writing := false }) (.remote 0 [])

/-- Stores of a command: this chip's become visible; another chip's leave as WRITE frames, which the command waits for
(R181, R483). -/
def State.sendStores (s : State) (e : Env) (c : Cmd) (i : Instr) (ss : List Store) : State :=
  let s := s.commit e.c.part ss
  let far := (ss.filter Store.isFar).flatMap fun t => pieces (t.bytes.length / 8192 + 1) t.addr t.bytes
  if far = [] then s else
  let t := s.haw.nextTag
  let s := far.foldl (fun s p => s.sendAccess fWrite p.1 e.l.owner (s.job e.c.part) 0 p.2) s
  let tags := nextTags t far.length
  match s.remoteAt c.loc with
  | some r => (s.dropRemote c.loc).addRemote { r with waiting := r.waiting ++ tags }
  | none => s.addRemote { cmd := c, instr := i, owner := e.l.owner, tiles := e.c.tiles, waiting := tags, reads := []
                          far := Mem.empty, writing := true }

/-- C6 ends with these stores. -/
def withStores (s : State) (e : Env) (c : Cmd) (i : Instr) (ss : List Store) : Ran :=
  match (e.site s).writesFault ss with
  | some (code, addr) => .fault s code 6 addr 0xFFFFFFFF
  | none =>
    if s.unreachable ((ss.filter Store.isFar).map (·.addr)) then .fault s 0x3021 6 0 0xFFFFFFFF
    else
      let s := s.sendStores e c i ss
      if (s.remoteAt c.loc).isSome then .held s (.remote 0 []) else .done s

/-- The answer to one frame: an acknowledgement, or data. The operation it belongs to, when it waits no longer. -/
def State.answer (s : State) (tag : Nat) (data : List Byte) : State × Option RemoteOp :=
  match s.haw.remote.find? fun r => r.waiting.contains tag with
  | none => (s, none)
  | some r =>
    let far := match mapGet tag r.reads with
      | some a => r.far.put devGranule a data
      | none => r.far
    let r' := { r with waiting := r.waiting.filter (· != tag), far := far }
    let s := { s with haw := { s.haw with remote := s.haw.remote.map fun x =>
                if x.cmd.loc = r.cmd.loc then r' else x } }
    (s, if r'.waiting = [] then some r' else none)

/-- A remote access was refused, or its connection was reset: its command faults (R477, R482). -/
def State.remoteFault (s : State) (tag code : Nat) : State :=
  match s.haw.remote.find? fun r => r.waiting.contains tag with
  | none => s
  | some r =>
    match s.env r.cmd.loc with
    | some e => s.faultCmd e r.cmd code 6 [] 0 0xFFFFFFFF
    | none => s

end Sys2Proof.Machine
end

