-- ==== Sys2Proof/Machine/Copy.lean ====
section
/-! DEFINITION. COPY (R194 to R197), within the chip and with another chip (R480). -/

namespace Sys2Proof.Machine

/-- The moves of a COPY in order: each row of each member, then, for BS4, the member's block-scale array (R195, R214). -/
def copyMoves (a d : Opnd) (batch : Nat) : List (Nat × Nat × Nat) :=
  (List.range batch).flatMap fun b =>
    ((List.range a.desc.rows).map fun r => (a.rowAt b r, d.rowAt b r, a.desc.rowBytes)) ++
    (if a.desc.fmt = 5 then
      [(a.base + b * a.desc.batchStride + a.desc.scaleOff, d.base + b * d.desc.batchStride + d.desc.scaleOff,
        a.desc.rows * (a.desc.cols / 32))]
    else [])

/-- The stores of a COPY from the bytes of its moves: bits unchanged in one format, else widened and narrowed (R195). -/
def copyStores (a d : Opnd) (brick : Nat) (cvt : Cvt) :
    List (Nat × Nat × Nat) → List (List Byte) → Nat → Rnd → List Store × Rnd
  | m :: ms, bs :: bss, i, r =>
    if a.desc.fmt = d.desc.fmt then
      let (ss, r) := copyStores a d brick cvt ms bss i r
      ({ mem := d.desc.mem, brick := brick, addr := m.2.1, bytes := bs } :: ss, r)
    else
      let (es, r) := narrowAll d.desc.fmt cvt 0 i ((elems a.desc.fmt bs a.desc.cols).map (widen a.desc.fmt)) r
      let (ss, r) := copyStores a d brick cvt ms bss (i + a.desc.cols) r
      ({ mem := d.desc.mem, brick := brick, addr := m.2.1, bytes := rowBytesOf d.desc.fmt es } :: ss, r)
  | _, _, _, r => ([], r)

def Ctx.rnd (c : Ctx) (stream : Nat) : Rnd := { base := c.seedState, used := c.strands, stream := stream }
def Ctx.withRnd (r : Rnd) (c : Ctx) : Ctx := { c with strands := r.used }

/-- The descriptors a COPY to the tile register file loads (R196). -/
def loadTiles (first : Nat) : List (List Byte) → List (Nat × TileDesc) → List (Nat × TileDesc)
  | [], t => t
  | b :: bs, t => loadTiles (first + 1) bs (mapPut first (parseTile b) t)

/-- The operands of a COPY. -/
def copyNeeds (o : CopyF) : List Need :=
  let n (reg batch : Nat) : Need := { Need.tile reg batch with fmts := allFmts }
  if o.dstKind = 0 then [n o.src o.batch, n o.dst o.batch] else [n o.src 1]

/-- The shapes of a COPY disagree (0x1102). -/
def copyShape (o : CopyF) (a : Opnd) (d? : Option Opnd) : Bool :=
  match d? with
  | some d => a.desc.rows != d.desc.rows || a.desc.cols != d.desc.cols
  | none => a.desc.fmt != 0 || a.desc.rows != o.trCount || a.desc.cols != 8 || o.batch != 1 || o.trCount == 0 ||
      decide (64 < o.trFirst + o.trCount)

/-- The tests of R197 and R501 on a COPY's operands. -/
def copyOwn (x : Site) (o : CopyF) (a : Opnd) (d? : Option Opnd) : List (Nat × Bool) :=
  let ops := a :: d?.toList
  [(0x1102, copyShape o a d?),
   (0x1103, match d? with | some d => overlap a o.batch d o.batch | none => false),
   (0x1104, o.dstKind == 0 && o.batch == 0),
   (0x1150, decide (2 ≤ (ops.filter fun p => p.chip != 0).length))] ++ x.farOwn ops

/-- A BS4 operand beside another format (0x1018, R195). -/
def copyPair (a? d? : Option Opnd) : Bool :=
  match a?, d? with
  | some a, some d => (a.desc.fmt == 5) != (d.desc.fmt == 5)
  | _, _ => false

/-- C6 of a COPY to a tile. -/
def copyTile (c : Cmd) (o : CopyF) (s : State) (e : Env) (a d : Opnd) : Ran :=
  let moves := copyMoves a d o.batch
  withReads s e c (.copy c o) (moves.map fun m => (a.desc.mem, m.1, m.2.2)) fun s x =>
    let (ss, r) := copyStores a d e.brick o.cvt moves (moves.map fun m => (x.memFor a).read m.1 m.2.2) 0 (e.c.rnd e.stream)
    withStores (s.modCtx e.key (Ctx.withRnd r)) e c (.copy c o) ss

/-- C6 of a COPY to the tile register file (R196). -/
def copyRegs (c : Cmd) (o : CopyF) (s : State) (e : Env) (a : Opnd) : Ran :=
  let rows := (List.range a.desc.rows).map fun r => a.rowAt 0 r
  withReads s e c (.copy c o) (rows.map fun p => (a.desc.mem, p, 32)) fun s x =>
    .done (s.modCtx e.key fun k => { k with tiles := loadTiles o.trFirst (rows.map fun p => (x.memFor a).read p 32) k.tiles })

/-- C5b and C6 of a COPY. -/
def copyBody (c : Cmd) (o : CopyF) (s : State) (e : Env) : Ran :=
  let x := e.site s
  let a? := x.opnd o.src
  let d? := if o.dstKind = 0 then x.opnd o.dst else none
  let own := match a? with | some a => copyOwn x o a d? | none => []
  .checked s (x.check (copyNeeds o) [] (copyPair a? d?) (if o.dstKind = 0 then [o.cvt] else []) own) fun _ =>
    match a?, d? with
    | some a, some d => copyTile c o s e a d
    | some a, none => copyRegs c o s e a
    | _, _ => .done s

/-- COPY (R194 to R197): only a DX queue takes it. -/
def execCopy (c : Cmd) (o : CopyF) (s : State) : Res :=
  .next (s.command c (fitsCmd c && fitsCopy o) (· == 3) (fun _ => [])
    (if o.dstKind = 0 then [o.src, o.dst] else [o.src]) id (copyBody c o))

end Sys2Proof.Machine
end

