-- ==== Sys2Proof/Machine/Matrix.lean ====
section
/-! DEFINITION. The matrix engine (R223 to R275): prologue, products in fixed order, the epilogue stages E1 to E8, output
blocks, step reuse, and the hand-off of blocks to CX. CONV2D uses the same core (R327 to R329). -/

namespace Sys2Proof.Machine

/-! ### Operands seen as matrices -/

/-- An M × N operand: a tile whose members follow BATCH_STRIDE (`wo` = 0), or planes of rows of `wo` columns, one plane
for each matrix column, whose images follow `istr` (R240, R321, R329). -/
structure Tens where
  o : Opnd
  wo : Nat
  istr : Nat
deriving DecidableEq, Repr

/-- The address of element (m, n) of member b. -/
def Tens.addr (t : Tens) (b m n : Nat) : Nat :=
  let w := fmtBits t.o.desc.fmt
  if t.wo = 0 then t.o.rowAt b m + n * w / 8
  else t.o.base + b * t.istr + n * t.o.desc.batchStride + (m / t.wo) * t.o.desc.rowStride + (m % t.wo) * w / 8

/-- The runs of contiguous bytes that elements n to n + k - 1 of row m occupy: column, elements. -/
def Tens.runs (t : Tens) (n k : Nat) : List (Nat × Nat) :=
  if t.wo = 0 then [(n, k)] else (List.range' n k).map fun j => (j, 1)

def Tens.reads (t : Tens) (b m n k : Nat) : List (Nat × Nat × Nat) :=
  (t.runs n k).map fun r => (t.o.desc.mem, t.addr b m r.1, (r.2 * fmtBits t.o.desc.fmt + 7) / 8)

/-- The reads of rows r0 .. r0 + h - 1, columns c0 .. c0 + k - 1. -/
def Tens.blockReads (t : Tens) (b r0 h c0 k : Nat) : List (Nat × Nat × Nat) :=
  (List.range' r0 h).flatMap fun m => t.reads b m c0 k

/-- Encodings of elements n .. n + k - 1 of row m. -/
def Tens.row (t : Tens) (x : Site) (b m n k : Nat) : List Nat :=
  (t.runs n k).flatMap fun r =>
    elems t.o.desc.fmt ((x.memFor t.o).read (t.addr b m r.1) ((r.2 * fmtBits t.o.desc.fmt + 7) / 8)) r.2

/-- The stores of elements n .. of row m. -/
def Tens.storeRow (t : Tens) (brick b m n : Nat) (es : List Nat) : List Store :=
  (t.runs n es.length).map fun r =>
    { mem := t.o.desc.mem, brick := brick, addr := t.addr b m r.1
      bytes := rowBytesOf t.o.desc.fmt ((es.drop (r.1 - n)).take r.2) }

def Tens.storeBlock (t : Tens) (brick b r0 c0 : Nat) (rows : List (List Nat)) : List Store :=
  (rows.zip (List.range rows.length)).flatMap fun p => t.storeRow brick b (r0 + p.2) c0 p.1

/-- A plain tile as a matrix. -/
def Opnd.tens (o : Opnd) : Tens := { o := o, wo := 0, istr := 0 }

/-! ### A product -/

/-- A matrix command after its checks: sizes, the formats MX multiplies, operands; how the A rows and B columns of a
member are read is given by functions, because CONV2D gathers them from planes (R328). -/
structure MatJob where
  c : Cmd
  instr : Instr
  e : EpiF
  batch : Nat
  m : Nat
  n : Nat
  aFmt : Nat
  tgt : Nat
  gated : Bool
  acc : Bool
  reuse : Bool
  carry : Bool
  ct : Tens
  dt : Option Tens
  bias : Option Opnd
  g : Option Opnd
  r : Option Opnd
  t : Option Opnd
  bBase : Nat → Nat
  aReads : Nat → Nat → Nat → List (Nat × Nat × Nat)
  aRows : Site → Nat → List (List Nat)
  bReads : Nat → Nat → Nat → List (Nat × Nat × Nat)
  bCols : Site → Nat → List (List Num)

/-- Block rows and columns of a member (R257). -/
def MatJob.nbr (j : MatJob) : Nat := ceilDiv j.m 128
def MatJob.nbc (j : MatJob) : Nat := ceilDiv j.n 128
/-- Low-group columns (R247). -/
def MatJob.low (j : MatJob) : Nat := min (32 * j.e.split) j.n
def MatJob.blockCount (j : MatJob) : Nat := j.batch * j.nbr * j.nbc

/-- The prologue is active (R244). -/
def epiPro (e : EpiF) : Bool := e.proFmt != 0xFF || e.proScale.src != 0

/-- The value of a scale; an AM word is read when the command enters C6 (R235). -/
def Site.scale (x : Site) (f : Scale) : Option Nat :=
  if f.src = 0 then none
  else if f.src = 1 then some f.val
  else some (leNat ((x.s.memOf x.brick 1).read (x.c.amBase + f.val) 4))

/-- The read of an AM-word scale. -/
def Site.scaleReads (x : Site) (f : Scale) : List (Nat × Nat × Nat) :=
  if f.src = 2 then [(1, x.c.amBase + f.val, 4)] else []

/-- An AM-word scale offset is misaligned or outside the AM window (0x1013). -/
def Ctx.scaleBad (c : Ctx) (f : Scale) : Bool := f.src == 2 && (f.val % 4 != 0 || decide (c.amSize < f.val + 4))

/-- One row through the prologue (R244). -/
def proRow (aFmt tgt : Nat) (e : EpiF) (sc : Option Nat) (i : Nat) (row : List Nat) (r : Rnd) : List Nat × Rnd :=
  let xs := row.map fun a => match sc with | some v => fmul (widen aFmt a) v | none => widen aFmt a
  if (epiPro e) then
    let (ys, r) := narrowAll tgt e.proCvt 0 i xs r
    (ys.map (widen tgt), r)
  else (xs, r)

/-- The A operand after the prologue, each element once, in row-major order (R245). -/
def proRows (aFmt tgt : Nat) (e : EpiF) (sc : Option Nat) : Nat → List (List Nat) → Rnd → List (List Nat) × Rnd
  | _, [], r => ([], r)
  | i, row :: rows, r =>
    let (y, r) := proRow aFmt tgt e sc i row r
    let (ys, r) := proRows aFmt tgt e sc (i + row.length) rows r
    (y :: ys, r)

/-- The words that stochastic rounding of `k` elements of step `n` draws, in order (R348). -/
def Rnd.words (n : Nat) : Nat → Nat → Rnd → List Nat × Rnd
  | _, 0, r => ([], r)
  | i, k + 1, r =>
    let (w, r) := r.unit n i
    let (ws, r) := Rnd.words n (i + 1) k r
    (w :: ws, r)

/-- An activation of R249. -/
def activate (code x : Nat) : Nat :=
  if code = 1 then (if isNan x then nan32 else if flt 0 x then x else 0)
  else if code = 2 then ftanh x
  else if code = 3 then flogistic x
  else if code = 4 then gelu x
  else if code = 5 then silu x
  else x

/-! ### Step reuse -/

/-- Sign hash of row i, K index k (R267). -/
def sketchHash (i k : Nat) : Nat :=
  let h := (i * 0x85EBCA6B + k * 0xC2B2AE35) % 2 ^ 32
  h ^^^ (h >>> 16)

/-- A row's contribution to sketch value t. -/
def sketchRow (t i : Nat) (row : List Nat) : Nat :=
  sum32 ((row.zip (List.range row.length)).map fun p => if bit (sketchHash i p.2) t then fneg p.1 else p.1)

/-- A sum over rows in ascending order. -/
def sumRows (l : List Nat) : Nat :=
  match l with
  | [] => 0
  | a :: r => r.foldl fadd a

/-- S0 to S15 and Q of an A row block (R267). -/
def sketch (rows : List (List Nat)) : List Nat × Nat :=
  let rs := rows.zip (List.range rows.length)
  ((List.range 16).map fun t => sumRows (rs.map fun p => sketchRow t p.2 p.1),
   sumRows (rows.map fun row => sum32 (row.map fun a => fmul a a)))

/-- A record of the reuse store (R266). -/
structure ReuseRec where
  state : Nat
  age : Nat
  epoch : Nat
  block : Nat
  q : Nat
  bBase : Nat
  sk : List Nat
deriving DecidableEq, Repr

def parseReuse (b : List Byte) : ReuseRec :=
  { state := fieldLE b 0 1, age := fieldLE b 1 1, epoch := fieldLE b 2 1, block := fieldLE b 4 4, q := fieldLE b 8 4
    bBase := fieldLE b 0x10 8, sk := (List.range 16).map fun t => fieldLE b (0x20 + 4 * t) 4 }

def ReuseRec.bytes (r : ReuseRec) : List Byte :=
  leBytes 1 r.state ++ leBytes 1 r.age ++ leBytes 1 r.epoch ++ [0] ++ leBytes 4 r.block ++ leBytes 4 r.q ++
  leBytes 4 0 ++ leBytes 8 r.bBase ++ leBytes 8 0 ++ r.sk.flatMap (leBytes 4) ++ List.replicate 32 0

/-- The estimated change E (R268). -/
def reuseChange (s old : List Nat) : Nat :=
  sumRows ((s.zip old).map fun p => let d := fsub p.1 p.2; fmul d d)

/-- The decision of R268. -/
def ReuseRec.hit (r : ReuseRec) (e : EpiF) (idx bBase : Nat) (sk : List Nat × Nat) : Bool :=
  r.state == 1 && r.block == idx && r.epoch == e.reuseEpoch && r.bBase == bBase &&
  (e.reuseMaxAge == 0 || decide (r.age < e.reuseMaxAge)) &&
  fle (reuseChange sk.1 r.sk) (fmul (roundInt ((e.reuseBound * e.reuseBound : Nat) : Int) (-20)) r.q)

/-- Addresses of a block's record and slot; a slot holds rows of 128 FP32 values. -/
def MatJob.recAt (_ : MatJob) (o : Opnd) (idx : Nat) : Nat := o.base + 128 * idx
def MatJob.slotAt (j : MatJob) (o : Opnd) (idx : Nat) : Nat := o.base + 128 * j.blockCount + 65536 * idx

/-! ### Blocks -/

/-- Where a run over the blocks stands: the state with the stores of earlier blocks, the random bits, the running sums
of the previous member for a C shared by all (R241), the chunk results of reductions that are not complete, the blocks
finished, newest first, and the fault that stops the next one. -/
structure MatRun where
  s : State
  rnd : Rnd
  sums : List (Nat × List (List Nat))
  red : List (Nat × List Nat)
  outs : List BlockOut
  fail : Option (Nat × Nat)

/-- One block of one member: its place, size and linear index. -/
structure Blk where
  b : Nat
  br : Nat
  bc : Nat
  h : Nat
  w : Nat
  idx : Nat
deriving DecidableEq, Repr

def MatJob.blk (j : MatJob) (b br bc : Nat) : Blk :=
  { b := b, br := br, bc := bc, h := min 128 (j.m - 128 * br), w := min 128 (j.n - 128 * bc)
    idx := b * j.nbr * j.nbc + br * j.nbc + bc }

/-- Columns of a block in the high group, as columns of G (R250): first, count. -/
def MatJob.gateCols (j : MatJob) (k : Blk) : Nat × Nat :=
  let c0 := 128 * k.bc
  let lo := max c0 (32 * j.e.split)
  (lo - 32 * j.e.split, c0 + k.w - lo)

/-- What a block that is not reused reads beside A (R239, R246, R251). -/
def MatJob.computeReads (j : MatJob) (k : Blk) : List (Nat × Nat × Nat) :=
  j.bReads k.b (128 * k.bc) k.w ++
  (if j.carry && decide (0 < k.b) then []
   else if j.acc then j.ct.blockReads k.b (128 * k.br) k.h (128 * k.bc) k.w
   else match j.bias with
    | some o => o.tens.reads k.b 0 (128 * k.bc) k.w
    | none => []) ++
  (match j.g with
   | some o =>
     let gc := j.gateCols k
     if gc.2 = 0 then [] else o.tens.blockReads k.b (128 * k.br) k.h gc.1 gc.2
   | none => [])

/-- The running sum a block starts from, row by row (R228, R241, R246). -/
def MatJob.start (j : MatJob) (x : Site) (run : MatRun) (k : Blk) : Option (List (List Nat)) :=
  if j.carry && decide (0 < k.b) then mapGet (k.br * 64 + k.bc) run.sums
  else if j.acc then
    some ((List.range' (128 * k.br) k.h).map fun m => j.ct.row x k.b m (128 * k.bc) k.w)
  else match j.bias with
    | some o => some (List.replicate k.h (o.tens.row x k.b 0 (128 * k.bc) k.w))
    | none => none

/-- E1: the sums of a block (R225 to R228). -/
def blockSums (aP : List (List Nat)) (cols : List (List Num)) (start : Option (List (List Nat))) : List (List Nat) :=
  (aP.zip (List.range aP.length)).map fun p =>
    let a := p.1.map fmt32.decode
    (cols.zip (List.range cols.length)).map fun q =>
      dotFrom (start.map fun st => (st.getD p.2 []).getD q.2 0) (List.zipWith mulNum a q.1)

/-- E2 to E4 of one element: scale, activation of its group, gate (R248). -/
def MatJob.post (j : MatJob) (esc : Option Nat) (g : Option Nat) (col v : Nat) : Nat :=
  let v := match esc with | some sc => fmul v sc | none => v
  let v := activate (if col < 32 * j.e.split then j.e.actL else j.e.actH) v
  match g with | some y => fmul v y | none => v

/-- The gate values of a block, row by row, from the first gated column on. -/
def MatJob.gates (j : MatJob) (x : Site) (k : Blk) : Option (Nat × List (List Nat)) :=
  j.g.map fun o =>
    let gc := j.gateCols k
    (32 * j.e.split + gc.1, (List.range' (128 * k.br) k.h).map fun m => o.tens.row x k.b m gc.1 gc.2)

def MatJob.postBlock (j : MatJob) (x : Site) (k : Blk) (esc : Option Nat) (sums : List (List Nat)) : List (List Nat) :=
  let gs := j.gates x k
  (sums.zip (List.range sums.length)).map fun p =>
    (p.1.zip (List.range p.1.length)).map fun q =>
      let col := 128 * k.bc + q.2
      let g := match gs with
        | some (c, rows) => if c ≤ col then (rows.getD p.2 [])[col - c]? else none
        | none => none
      j.post esc g col q.1

/-! ### The reduction (E6) -/

/-- The operation of a reduction kind, and what each value contributes (R254). -/
def epiRedOp (e : EpiF) : Nat → Nat → Nat := if bits e.red 3 2 = 3 then fmax else fadd
def epiRedVal (e : EpiF) (v : Nat) : Nat := if bits e.red 3 2 = 2 then fmul v v else v
def epiRedOn (e : EpiF) : Bool := bits e.red 3 2 != 0

/-- The low-group columns of a block. -/
def MatJob.lowCols (j : MatJob) (k : Blk) : Nat := min (128 * k.bc + k.w) j.low - 128 * k.bc

/-- The chunk results a block adds, under the row or column they belong to. -/
def MatJob.redChunks (j : MatJob) (k : Blk) (vals : List (List Nat)) : List (Nat × List Nat) :=
  let n := j.lowCols k
  if ! epiRedOn j.e || n == 0 then []
  else if bit j.e.red 1 then
    (List.range n).map fun c =>
      (128 * k.bc + c, chunkVals (epiRedOp j.e) (vals.map fun row => epiRedVal j.e (row.getD c 0)))
  else
    (vals.zip (List.range vals.length)).map fun p =>
      (128 * k.br + p.2, chunkVals (epiRedOp j.e) ((p.1.take n).map (epiRedVal j.e)))

/-- A block completes the reductions it adds to: the last block with low columns of its row, or the last block row. -/
def MatJob.redLast (j : MatJob) (k : Blk) : Bool :=
  if bit j.e.red 1 then k.br + 1 == j.nbr else decide (j.low ≤ 128 * k.bc + k.w)

def addChunks (l : List (Nat × List Nat)) (new : List (Nat × List Nat)) : List (Nat × List Nat) :=
  new.foldl (fun l p => mapPut p.1 (mapRd [] p.1 l ++ p.2) l) l

/-- The address of a reduction result. -/
def MatJob.redAt (j : MatJob) (o : Opnd) (b i : Nat) : Nat :=
  if bit j.e.red 1 then o.rowAt b 0 + 4 * i else o.rowAt b i

/-- A later member of a shared RED_T goes on from what it holds (R241). -/
def redCarry (o : Opnd) (b : Nat) : Bool := decide (0 < b) && o.desc.batchStride == 0

/-- RED_T is read (R255, R241). -/
def MatJob.redReads (j : MatJob) (k : Blk) (keys : List Nat) : List (Nat × Nat × Nat) :=
  match j.r with
  | some o =>
    if j.redLast k && (bit j.e.red 0 || redCarry o k.b) then keys.map fun i => (1, j.redAt o k.b i, 4) else []
  | none => []

/-- One result (R254, R255). -/
def MatJob.redResult (j : MatJob) (x : Site) (o : Opnd) (b i : Nat) (chunks : List Nat) : Store :=
  let held := leNat ((x.memFor o).read (j.redAt o b i) 4)
  let v :=
    if redCarry o b then chunks.foldl (epiRedOp j.e) held
    else
      let r := match chunks with | [] => 0 | c :: cs => cs.foldl (epiRedOp j.e) c
      if bit j.e.red 0 then epiRedOp j.e r held else r
  { mem := 1, brick := x.brick, addr := j.redAt o b i, bytes := leBytes 4 v }

/-- The results a block completes. -/
def MatJob.redStores (j : MatJob) (x : Site) (k : Blk) (keys : List Nat) (red : List (Nat × List Nat)) : List Store :=
  match j.r with
  | some o => if j.redLast k then keys.map fun i => j.redResult x o k.b i (mapRd [] i red) else []
  | none => []

/-! ### One block -/

/-- The reuse decision for a block: its record, and whether it is reused. -/
def MatJob.decide (j : MatJob) (x : Site) (k : Blk) (sk : List Nat × Nat) : Option (ReuseRec × Bool) :=
  match j.t with
  | some o =>
    if j.reuse then
      let r := parseReuse ((x.memFor o).read (j.recAt o k.idx) 128)
      some (r, r.hit j.e k.idx (j.bBase k.b) sk)
    else none
  | none => none

/-- The rows of a block as its slot holds them (R269). -/
def MatJob.slotRows (j : MatJob) (x : Site) (o : Opnd) (k : Blk) : List (List Nat) :=
  (List.range k.h).map fun i => elems 0 ((x.memFor o).read (j.slotAt o k.idx + 512 * i) (4 * k.w)) k.w

/-- The reads of the reuse store; they never fault under STRICT (R272). -/
def MatJob.storeReads (j : MatJob) (k : Blk) (hit : Bool) : List (Nat × Nat × Nat) :=
  match j.t with
  | some o =>
    if j.reuse then
      (o.desc.mem, j.recAt o k.idx, 128) ::
        (if hit then (List.range k.h).map fun i => (o.desc.mem, j.slotAt o k.idx + 512 * i, 4 * k.w) else [])
    else []
  | none => []

/-- The stores to the reuse store (R269, R270). -/
def MatJob.storeStores (j : MatJob) (brick : Nat) (k : Blk) (d : Option (ReuseRec × Bool)) (sk : List Nat × Nat)
    (rows : List (List Nat)) : List Store :=
  match j.t, d with
  | some o, some (r, hit) =>
    let st (a : Nat) (bs : List Byte) : Store := { mem := o.desc.mem, brick := brick, addr := a, bytes := bs }
    if hit then [st (j.recAt o k.idx + 1) (leBytes 1 (min 255 (r.age + 1)))]
    else
      st (j.recAt o k.idx) [0] ::
      ((rows.zip (List.range rows.length)).map fun p => st (j.slotAt o k.idx + 512 * p.2) (p.1.flatMap (leBytes 4))) ++
      [st (j.recAt o k.idx)
        { state := 1, age := 0, epoch := j.e.reuseEpoch, block := k.idx, q := sk.2, bBase := j.bBase k.b
          sk := sk.1 : ReuseRec }.bytes]
  | _, _ => []

/-- E7: the block narrowed for D with the words drawn for the member (R256). -/
def MatJob.narrowBlock (j : MatJob) (k : Blk) (fmt : Nat) (ws : List Nat) (rows : List (List Nat)) : List (List Nat) :=
  (rows.zip (List.range rows.length)).map fun p =>
    (p.1.zip (List.range p.1.length)).map fun q =>
      narrow fmt j.e.dCvt.ovf q.1
        (if j.e.dCvt.round = 1 then some (ws.getD ((128 * k.br + p.2) * j.n + 128 * k.bc + q.2) 0) else none)

/-- The block that E8 hands over (R260). -/
def MatJob.cxBlock (j : MatJob) (k : Blk) (cRows dRows : List (List Nat)) : Option CxBlock :=
  if bit j.e.stream 3 then
    let isD := bit j.e.stream 2
    some { member := k.b, brow := k.br, bcol := k.bc, rows := k.h, cols := k.w
           fmt := if isD then (j.dt.map (·.o.desc.fmt)).getD 0 else 0
           data := (if isD then dRows else cRows).flatten }
  else none

/-- A member's values that its blocks share: A after the prologue, B by columns, the words E7 draws. -/
structure MatMember where
  aP : List (List Nat)
  cols : List (List Num)
  ws : List Nat
  esc : Option Nat

/-- One block, E1 to E7, and what E8 will hand over (R248, R258). -/
def MatJob.block (j : MatJob) (e : Env) (v : MatMember) (run : MatRun) (k : Blk) : MatRun :=
  if run.fail.isSome then run else
  let x := e.site run.s
  let lax : Site := { x with c := { x.c with strict := false } }
  let aP := (v.aP.drop (128 * k.br)).take k.h
  let sk := if j.reuse then sketch aP else ([], 0)
  let d := j.decide x k sk
  let hit := (d.map (·.2)).getD false
  let faults := (x.readsFault (j.aReads k.b (128 * k.br) k.h)).or
    ((lax.readsFault (j.storeReads k hit)).or (if hit then none else x.readsFault (j.computeReads k)))
  let sums := if hit then [] else blockSums aP ((v.cols.drop (128 * k.bc)).take k.w) (j.start x run k)
  let rows := if hit then (match j.t with | some o => j.slotRows x o k | none => []) else j.postBlock x k v.esc sums
  let new := j.redChunks k rows
  let keys := new.map (·.1)
  let red := addChunks run.red new
  let dRows := match j.dt with | some t => j.narrowBlock k t.o.desc.fmt v.ws rows | none => []
  let stores := j.ct.storeBlock e.brick k.b (128 * k.br) (128 * k.bc) rows ++ j.storeStores e.brick k d sk rows ++
    j.redStores x k keys red ++
    (match j.dt with | some t => t.storeBlock e.brick k.b (128 * k.br) (128 * k.bc) dRows | none => [])
  match (faults.or (x.readsFault (j.redReads k keys))).or (x.writesFault stores) with
  | some f => { run with fail := some f }
  | none =>
    { run with
      s := run.s.stores (stores.filter fun t => ! t.isFar)
      sums := mapPut (k.br * 64 + k.bc) (if hit then rows else sums) run.sums
      red := if j.redLast k then keys.foldl (fun l i => mapDel i l) red else red
      outs := { index := k.idx, stores := stores, cx := j.cxBlock k rows dRows, eligible := d.isSome, reused := hit } ::
        run.outs }

/-- One member (R240): A through the prologue, the draws of E7, then its blocks in ascending order. -/
def MatJob.member (j : MatJob) (e : Env) (psc esc : Option Nat) (run : MatRun) (b : Nat) : MatRun :=
  if run.fail.isSome then run else
  let x := e.site run.s
  let (aP, rnd) := proRows j.aFmt j.tgt j.e psc 0 (j.aRows x b) run.rnd
  let step := if epiPro j.e && j.e.proCvt.round == 1 then 1 else 0
  let (ws, rnd) := if j.dt.isSome && j.e.dCvt.round == 1 then Rnd.words step 0 (j.m * j.n) rnd else ([], rnd)
  let v : MatMember := { aP := aP, cols := j.bCols x b, ws := ws, esc := esc }
  ((List.range j.nbr).flatMap fun br => (List.range j.nbc).map fun bc => j.blk b br bc).foldl (j.block e v)
    { run with rnd := rnd, red := [] }

/-! ### E8 and the end of the command -/

/-- A block is handed to a CX queue's stream input (R260). -/
def Ctx.pushCx (q : Nat) (k : CxBlock) (c : Ctx) : Ctx := { c with cxIn := modAt c.cxIn q (· ++ [k]) }
def Ctx.cxRoom (c : Ctx) (q : Nat) : Bool := decide ((c.cxIn.getD q []).length < 8)

/-- A block's E5 to E7 become visible, and it counts (R258, R273). -/
def State.blockDone (s : State) (e : Env) (c : Cmd) (i : Instr) (o : BlockOut) : State :=
  (s.sendStores e c i o.stores).modList e.l.owner fun l =>
    { l with eligible := l.eligible + b2n o.eligible, reused := l.reused + b2n o.reused, lastActive := s.now }

/-- The blocks in linear order, each stored and then handed over; a full stream input holds the command (R258, R261).
The last argument is LAST_TILE so far. -/
def State.blocks (s : State) (e : Env) (c : Cmd) (i : Instr) (q : Nat) (fail : Option (Nat × Nat)) :
    List BlockOut → Nat → Ran
  | [], last =>
    match fail with
    | some (code, addr) => .fault s code 6 addr last
    | none => if (s.remoteAt c.loc).isSome then .held s (.remote 0 []) else .done s
  | o :: os, _ =>
    let s := s.blockDone e c i o
    match o.cx with
    | none => s.blocks e c i q fail os o.index
    | some k =>
      match s.ctx e.key with
      | none => .done s
      | some x =>
        if x.cxRoom q then (s.modCtx e.key (Ctx.pushCx q k)).blocks e c i q fail os o.index
        else .held s (.e8 q ({ o with stores := [], eligible := false, reused := false } :: os) fail)

/-- Bytes of the reuse store in device memory that the blocks read. -/
def MatJob.reuseBytes (j : MatJob) (outs : List BlockOut) : Nat :=
  match j.t with
  | some o => if o.desc.mem = 2 ∧ j.reuse = true then 128 * outs.length + 65536 * (outs.filter (·.reused)).length else 0
  | none => 0

/-- C6 of a matrix command. -/
def MatJob.run (j : MatJob) (s : State) (e : Env) : Ran :=
  let x := e.site s
  match x.readsFault (x.scaleReads j.e.proScale ++ x.scaleReads j.e.epiScale) with
  | some (code, addr) => .fault s code 6 addr 0xFFFFFFFF
  | none =>
    let far := (j.dt.map fun t => t.o.chip).getD 0
    if far ≠ 0 ∧ s.reachable far = false then .fault s 0x3021 6 ((j.dt.map (·.o.base)).getD 0) 0xFFFFFFFF
    else
      let run := (List.range j.batch).foldl (j.member e (x.scale j.e.proScale) (x.scale j.e.epiScale))
        { s := s, rnd := e.c.rnd e.stream, sums := [], red := [], outs := [], fail := none }
      let s := s.modCtx e.key (Ctx.withRnd run.rnd)
      let n := j.reuseBytes run.outs
      let s := if n = 0 then s else s.charge e.c.part n
      s.blocks e j.c j.instr (bits j.e.stream 1 0) run.fail run.outs.reverse 0xFFFFFFFF

/-! ### The matrix commands -/

/-- The operand pairs MX accepts, A after the prologue (R223). -/
def pairOk (a b : Nat) : Bool :=
  (b == 0 && a == 0) || (b == 1 && a == 1) || (b == 2 && a == 2) ||
  ((b == 3 || b == 4) && (a == 3 || a == 4)) || (b == 5 && a == 3)

/-- Reserved encodings of the fields that CONV2D shares (0x1111). -/
def epiReserved (e : EpiF) : Bool :=
  e.proScale.src == 3 || e.epiScale.src == 3 || decide (5 < e.actL) || decide (5 < e.actH) || decide (32 < e.split) ||
  (decide (4 < e.proFmt) && e.proFmt != 0xFF)

/-- The narrowing steps that are present (R220). -/
def epiCvts (e : EpiF) : List Cvt := (if (epiPro e) then [e.proCvt] else []) ++ (if e.d.isSome then [e.dCvt] else [])

/-- The operands of a matrix command, in operand order; an operand that the operation does not accept is none. -/
def matNeeds (kind : Nat) (o : MatF) : List Need :=
  let e := o.epi
  let opt (r : Option Nat) (f : Nat → Need) : List Need := (r.map f).toList
  [Need.matrix o.a o.batch plainFmts, Need.matrix o.b o.batch allFmts, Need.accum o.c o.batch [0]] ++
  (if kind = 0 then opt e.bias fun r => { Need.tile r o.batch with mems := [0, 1] } else []) ++
  (if kind = 2 then opt e.gateT fun r => { Need.tile r o.batch with mems := [1], fmts := [0] } else []) ++
  (if (epiRedOn e) then [{ Need.tile e.redT o.batch with mems := [1] }] else []) ++
  opt e.d (fun r => Need.tile r o.batch) ++
  (if kind = 0 ∧ e.reuse = 1 then [{ Need.tile e.reuseT 1 with placed := false }] else [])

/-- What a reduction's RED_T must be (R253): shape for M × N, and FP32. -/
def epiRedShape (e : EpiF) (m n : Nat) (o : Opnd) : Bool :=
  o.desc.fmt == 0 &&
  (if bit e.red 1 then o.desc.rows == 1 && o.desc.cols == min (32 * e.split) n else o.desc.rows == m && o.desc.cols == 1)

/-- The shapes of a matrix command disagree (0x1110). -/
def matShape (o : MatF) (a b c : Opnd) (bias g r d : Option Opnd) : Bool :=
  let m := c.desc.rows
  let n := c.desc.cols
  let k := a.desc.cols
  a.desc.rows != m ||
  (if o.bLayout = 0 then b.desc.rows != k || b.desc.cols != n else b.desc.rows != n || b.desc.cols != k) ||
  (match bias with | some t => t.desc.fmt != 0 || t.desc.rows != 1 || t.desc.cols != n | none => false) ||
  (match g with | some t => t.desc.rows != m || t.desc.cols != n - 32 * o.epi.split | none => false) ||
  (match r with | some t => ! epiRedShape o.epi m n t | none => false) ||
  (match d with | some t => t.desc.rows != m || t.desc.cols != n | none => false)

/-- Members of one operand overlap each other (R242). -/
def selfOverlap (o : Opnd) (batch : Nat) (zeroOk : Bool) : Bool :=
  decide (1 < batch) && ! (zeroOk && o.desc.batchStride == 0) && decide (o.desc.batchStride < o.desc.span)

def overlapOpt (batch : Nat) (a b : Option Opnd) : Bool :=
  match a, b with
  | some x, some y => overlap x batch y batch
  | _, _ => false

/-- The reuse store of `n` blocks overlaps C in AM. -/
def reuseOverlap (batch n : Nat) (c : Opnd) (t : Option Opnd) : Bool :=
  match t with
  | some o => o.desc.mem == 1 && decide (c.base < o.base + n * 65664) && decide (o.base < c.stop batch)
  | none => false

/-- The overlaps of R242 (0x1113). -/
def matOverlap (batch blocks : Nat) (a b c : Opnd) (bias g r d t : Option Opnd) : Bool :=
  let self (o : Option Opnd) (z : Bool) : Bool := match o with | some x => selfOverlap x batch z | none => false
  self (some c) true || self d false || self r true ||
  [g, r, bias].any (overlapOpt batch (some c)) || reuseOverlap batch blocks c t ||
  [some a, some b, some c, g, bias, r].any (overlapOpt batch d)

/-- The reuse store is misplaced (0x1116). -/
def Site.reuseBad (x : Site) (blocks : Nat) (o : Opnd) : Bool :=
  let n := blocks * 65664
  if o.desc.mem = 1 then ! (decide (x.c.amBase ≤ o.base) && decide (o.base + n ≤ x.c.amBase + x.c.amSize))
  else if o.desc.mem = 2 then
    let r := x.s.range x.c.part
    o.chip != 0 || ! (decide (r.1 ≤ o.base) && decide (o.base + n ≤ r.2))
  else true

/-- The checks of R275 and R501, in ascending order of code. -/
def matOwn (x : Site) (kind : Nat) (o : MatF) (a b c : Opnd) (bias g r d t : Option Opnd) : List (Nat × Bool) :=
  let e := o.epi
  let n := c.desc.cols
  let low := min (32 * e.split) n
  let blocks := o.batch * ceilDiv c.desc.rows 128 * ceilDiv n 128
  [(0x1110, matShape o a b c bias g r d),
   (0x1111, (epiReserved e) || (b.desc.fmt == 5 && o.bLayout == 0)),
   (0x1112, o.batch == 0 || (e.bias.isSome && kind != 0) || (e.gateT.isSome && kind != 2) ||
      (kind == 2 && decide (n ≤ 32 * e.split)) || ((epiRedOn e) && low == 0) ||
      (bit e.stream 3 && bit e.stream 2 && e.d.isNone)),
   (0x1113, matOverlap o.batch blocks a b c bias g r d t),
   (0x1114, e.reuse == 1 && kind != 0),
   (0x1115, e.reuse == 1 && decide (x.c.reuseCount < blocks)),
   (0x1116, match t with | some q => x.reuseBad blocks q | none => false)] ++ x.farOwn d.toList

/-- The rows of A of a member. -/
def Site.aRows (x : Site) (a : Opnd) (b : Nat) : List (List Nat) := (List.range a.desc.rows).map (x.row a b)

/-- The columns of B of a member, under either layout (R235); BS4 elements with their scales (R226). -/
def Site.bCols (x : Site) (o : Opnd) (layout b : Nat) : List (List Num) :=
  if layout = 0 then
    let rows := (List.range o.desc.rows).map fun r => (x.row o b r).map (fmtOf o.desc.fmt).decode
    (List.range o.desc.cols).map fun j => rows.map fun row => row.getD j .nan
  else
    (List.range o.desc.rows).map fun r =>
      let es := x.row o b r
      if o.desc.fmt = 5 then
        let sc := x.scales o b r
        (es.zip (List.range es.length)).map fun p => bs4Num p.1 (sc.getD (p.2 / 32) 0xFF)
      else es.map (fmtOf o.desc.fmt).decode

/-- The reads of columns c0 .. c0 + w - 1 of B. -/
def Opnd.bReads (o : Opnd) (layout b c0 w : Nat) : List (Nat × Nat × Nat) :=
  if layout = 0 then o.tens.blockReads b 0 o.desc.rows c0 w else o.rowReads b c0 w

/-- Reuse is held off: every reusable command is an ordinary MATMUL (R274). -/
def State.reuseOff (s : State) (part : Nat) : Bool := s.restricted || s.classTolerated part

/-- The job of a matrix command. -/
def matJob (i : Instr) (c : Cmd) (kind : Nat) (o : MatF) (s : State) (e : Env) (a b ct : Opnd)
    (bias g r d t : Option Opnd) : MatJob :=
  { c := c, instr := i, e := o.epi, batch := o.batch, m := ct.desc.rows, n := ct.desc.cols, aFmt := a.desc.fmt
    tgt := if o.epi.proFmt = 0xFF then a.desc.fmt else o.epi.proFmt
    gated := kind == 2, acc := kind != 0, reuse := t.isSome && e.l.reusable && ! s.reuseOff e.c.part
    carry := ct.desc.batchStride == 0 && decide (1 < o.batch)
    ct := ct.tens, dt := d.map Opnd.tens, bias := bias, g := g, r := r, t := t
    bBase := fun m => b.base + m * b.desc.batchStride
    aReads := fun m r0 h => a.rowReads m r0 h, aRows := fun x m => x.aRows a m
    bReads := fun m c0 w => b.bReads o.bLayout m c0 w, bCols := fun x m => x.bCols b o.bLayout m }

/-- An optional operand as read. -/
def Site.opt (x : Site) (on : Bool) (r : Option Nat) : Option Opnd := if on then r.bind x.opnd else none

/-- C5b and C6 of MATMUL (kind 0), MATMUL_ACC (1) and MATMUL_GATED (2). -/
def matBody (i : Instr) (c : Cmd) (kind : Nat) (o : MatF) (s : State) (e : Env) : Ran :=
  let x := e.site s
  let f := o.epi
  let bias := x.opt (kind == 0) f.bias
  let g := x.opt (kind == 2) f.gateT
  let r := x.opt (epiRedOn f) (some f.redT)
  let d := x.opt true f.d
  let t := x.opt (kind == 0 && f.reuse == 1) (some f.reuseT)
  match x.opnd o.a, x.opnd o.b, x.opnd o.c with
  | some a, some b, some ct =>
    let tgt := if f.proFmt = 0xFF then a.desc.fmt else f.proFmt
    let shape := [(0x1013, e.c.scaleBad f.proScale || e.c.scaleBad f.epiScale),
      (0x1014, ct.desc.rows % 32 != 0 || ct.desc.cols % 32 != 0 || decide (Config.maxMN < ct.desc.rows) ||
        decide (Config.maxMN < ct.desc.cols)),
      (0x1015, a.desc.cols % 32 != 0)]
    .checked s (x.check (matNeeds kind o) shape
        ((decide (f.proFmt ≤ 4) || f.proFmt == 0xFF) && ! pairOk tgt b.desc.fmt) (epiCvts f)
        (matOwn x kind o a b ct bias g r d t)) fun _ =>
      (matJob i c kind o s e a b ct bias g r d t).run s e
  | _, _, _ => .checked s (x.check (matNeeds kind o) [] false [] []) fun _ => .done s

/-- The tile registers a matrix command names, in operand order. -/
def matRegs (kind : Nat) (o : MatF) : List Nat := (matNeeds kind o).map (·.reg)

/-- MATMUL (R235 to R275). -/
def execMatmul (c : Cmd) (o : MatF) (s : State) : Res :=
  .next (s.command c (fitsCmd c && fitsMat o) (· == 0) (fun _ => []) (matRegs 0 o) id (matBody (.matmul c o) c 0 o))

/-- MATMUL_ACC. -/
def execMatmulAcc (c : Cmd) (o : MatF) (s : State) : Res :=
  .next (s.command c (fitsCmd c && fitsMat o) (· == 0) (fun _ => []) (matRegs 1 o) id (matBody (.matmulAcc c o) c 1 o))

/-- MATMUL_GATED: it always names a gate (R250). -/
def execMatmulGated (c : Cmd) (o : MatF) (s : State) : Res :=
  .next (s.command c (fitsCmd c && fitsMat o && o.epi.gateT.isSome) (· == 0) (fun _ => []) (matRegs 2 o) id
    (matBody (.matmulGated c o) c 2 o))

/-- EPILOGUE_STREAM_HANDOFF: a matrix command held in E8 goes on while the stream input has room (R261). -/
def handOff (l : Loc) (s : State) : State :=
  if ! s.awake then s else
  s.resume l fun s e c h =>
    match h with
    | .e8 q blocks fail =>
      if e.c.cxRoom q then
        some (s.blocks e c (.epilogueStreamHandoff l) q fail blocks 0xFFFFFFFF)
      else none
    | _ => none

end Sys2Proof.Machine
end

