-- ==== Sys2Proof/Machine/Vector.lean ====
section
/-! DEFINITION. The vector engine's row operations: ACT, NORM_ROW and SOFTMAX_ROW, and the running soft maximum that
ATTN_BLOCK shares (R280 to R292). -/

namespace Sys2Proof.Machine

/-- Rows narrowed in row-major order, element `i` on (R220, R348). -/
def narrowRows (fmt : Nat) (cvt : Cvt) : Nat → List (List Nat) → Rnd → List (List Nat) × Rnd
  | _, [], r => ([], r)
  | i, row :: rows, r =>
    let (y, r) := narrowAll fmt cvt 0 i row r
    let (ys, r) := narrowRows fmt cvt (i + row.length) rows r
    (y :: ys, r)

/-- Narrowed members stored, in ascending order; the element count of R348 runs on from member to member. -/
def memberStores (o : Opnd) (brick : Nat) (cvt : Cvt) : Nat → Nat → List (List (List Nat)) → Rnd → List Store × Rnd
  | _, _, [], r => ([], r)
  | b, i, rows :: ms, r =>
    let (ys, r) := narrowRows o.desc.fmt cvt i rows r
    let (ss, r) := memberStores o brick cvt (b + 1) (i + (rows.map List.length).sum) ms r
    (o.storeRows brick b ys ++ ss, r)

/-- Y overlaps X otherwise than in place (0x1122). -/
def notInPlace (x y : Opnd) (batch : Nat) : Bool := overlap x batch y batch && ! sameExtent x y batch

/-! ### ACT -/

/-- One element of ACT (R280). -/
def actVal (act : Nat) (sc : Option Nat) (x : Nat) : Nat :=
  activate act (match sc with | some v => fmul x v | none => x)

/-- The checks of ACT's own (R281, R320). -/
def actOwn (x : Site) (o : ActF) (a y : Opnd) : List (Nat × Bool) :=
  [(0x1111, o.scale.src == 3), (0x1120, a.desc.rows != y.desc.rows || a.desc.cols != y.desc.cols || o.batch == 0),
   (0x1121, decide (5 < o.act)), (0x1122, notInPlace a y o.batch)] ++ x.farOwn [a, y]

def actRun (c : Cmd) (o : ActF) (s : State) (e : Env) (a y : Opnd) : Ran :=
  let sc := (e.site s).scale o.scale
  withReads s e c (.act c o) ((e.site s).scaleReads o.scale ++ a.allReads o.batch) fun s x =>
    let ms := (List.range o.batch).map fun b => (x.rows32 a b).map fun row => row.map (actVal o.act sc)
    let (ss, r) := memberStores y e.brick o.cvt 0 0 ms (e.c.rnd e.stream)
    withStores (s.modCtx e.key (Ctx.withRnd r)) e c (.act c o) ss

/-- C5b and C6 of ACT. -/
def actBody (c : Cmd) (o : ActF) (s : State) (e : Env) : Ran :=
  let x := e.site s
  let own := match x.opnd o.x, x.opnd o.y with | some a, some y => actOwn x o a y | _, _ => []
  .checked s (x.check [Need.tile o.x o.batch, Need.tile o.y o.batch] [(0x1013, e.c.scaleBad o.scale)] false [o.cvt] own)
    fun _ => match x.opnd o.x, x.opnd o.y with
      | some a, some y => actRun c o s e a y
      | _, _ => .done s

/-- ACT (R280, R281): only a VX queue takes it. -/
def execAct (c : Cmd) (o : ActF) (s : State) : Res :=
  .next (s.command c (fitsCmd c && fitsAct o) (· == 1) (fun _ => []) [o.x, o.y] id (actBody c o))

/-! ### NORM_ROW -/

/-- A row's mean, reciprocal deviation and normalised values, before gain and offset (R283). -/
def normRow (mode eps : Nat) (xs : List Nat) : Nat × Nat × List Nat :=
  let inv := fdiv one32 (ofNat32 xs.length)
  let mu := if mode = 0 then fmul (sum32 xs) inv else 0
  let ds := if mode = 0 then xs.map fun x => fsub x mu else xs
  let var := fmul (sum32 (ds.map fun d => fmul d d)) inv
  let rstd := frsqrt (fadd var eps)
  (mu, rstd, ds.map fun d => fmul d rstd)

/-- Gain, then offset (R283). -/
def normAffine (gamma beta : Option (List Nat)) (ys : List Nat) : List Nat :=
  let ys := match gamma with | some g => List.zipWith fmul ys g | none => ys
  match beta with | some b => List.zipWith fadd ys b | none => ys

/-- A tile of two values a row: soft maximum's m and l, or mean and deviation (R284, R291). -/
def pairStores (o : Option Opnd) (brick b : Nat) (ps : List (Nat × Nat)) : List Store :=
  match o with
  | some t => t.storeRows brick b (ps.map fun p => [p.1, p.2])
  | none => []

def normNeeds (o : NormF) : List Need :=
  let row (r : Option Nat) : List Need := (r.map fun r => { Need.tile r 1 with fmts := [0] }).toList
  [Need.tile o.x 1, Need.tile o.y 1] ++ row o.gamma ++ row o.beta ++
  (o.statT.map fun r => { Need.tile r 1 with mems := [1], fmts := [0] }).toList

/-- An optional operand has another shape. -/
def shapeOff (o : Option Opnd) (rows cols : Nat) : Bool :=
  match o with | some t => t.desc.rows != rows || t.desc.cols != cols | none => false

/-- The checks of NORM_ROW's own (R282, R284, R285). -/
def normOwn (x : Site) (o : NormF) (a y : Opnd) (g b st : Option Opnd) : List (Nat × Bool) :=
  let l := a.desc.cols
  [(0x1120, l % 32 != 0 || decide (32768 < l) || y.desc.rows != a.desc.rows || y.desc.cols != l || shapeOff g 1 l ||
      shapeOff b 1 l || shapeOff st a.desc.rows 2),
   (0x1121, decide (1 < o.mode)), (0x1122, notInPlace a y 1)] ++ x.farOwn ([a, y] ++ g.toList ++ b.toList)

def normRun (c : Cmd) (o : NormF) (s : State) (e : Env) (a y : Opnd) (g b st : Option Opnd) : Ran :=
  withReads s e c (.normRow c o) (a.allReads 1 ++ (g.toList ++ b.toList).flatMap fun t => t.allReads 1) fun s x =>
    let rows := (x.rows32 a 0).map (normRow o.mode o.eps)
    let out := rows.map fun r => normAffine (g.map fun t => x.row t 0 0) (b.map fun t => x.row t 0 0) r.2.2
    let (ss, r) := memberStores y e.brick o.cvt 0 0 [out] (e.c.rnd e.stream)
    withStores (s.modCtx e.key (Ctx.withRnd r)) e c (.normRow c o)
      (ss ++ pairStores st e.brick 0 (rows.map fun r => (r.1, r.2.1)))

/-- C5b and C6 of NORM_ROW. -/
def normBody (c : Cmd) (o : NormF) (s : State) (e : Env) : Ran :=
  let x := e.site s
  let g := o.gamma.bind x.opnd
  let b := o.beta.bind x.opnd
  let st := o.statT.bind x.opnd
  let own := match x.opnd o.x, x.opnd o.y with | some a, some y => normOwn x o a y g b st | _, _ => []
  .checked s (x.check (normNeeds o) [] false [o.cvt] own) fun _ =>
    match x.opnd o.x, x.opnd o.y with
    | some a, some y => normRun c o s e a y g b st
    | _, _ => .done s

/-- NORM_ROW (R282 to R285): only a VX queue takes it. -/
def execNormRow (c : Cmd) (o : NormF) (s : State) : Res :=
  .next (s.command c (fitsCmd c && fitsNorm o) (· == 1) (fun _ => []) ((normNeeds o).map (·.reg)) id (normBody c o))

/-! ### The running soft maximum (R286, R287) -/

/-- m and l of a row. -/
structure SoftState where
  m : Nat
  l : Nat
deriving DecidableEq, Repr

/-- Before the first key tile (R286): minus infinity and +0. -/
def SoftState.start : SoftState := { m := 0xFF800000, l := 0 }

/-- Steps 2 to 5 of R287 on one key tile; a masked position is none. The new state, alpha, and p of every position. -/
def SoftState.step (st : SoftState) (zs : List (Option Nat)) : SoftState × Nat × List Nat :=
  let mt := max32 (zs.map fun z => z.getD 0xFF800000)
  let m := fmax st.m mt
  let none' := m == 0xFF800000
  let a := if none' then one32 else fexp2 (fsub st.m m)
  let ps := zs.map fun z => match z with | some v => if none' then 0 else fexp2 (fsub v m) | none => 0
  ({ m := m, l := fadd (fmul st.l a) (sum32 ps) }, a, ps)

/-- A row cut into key tiles of 128 positions (R287). -/
def keyTiles {α : Type} : Nat → List α → List (List α)
  | 0, _ => []
  | k + 1, l => if l.isEmpty then [] else l.take 128 :: keyTiles k (l.drop 128)

/-- Final m and l of a row of scaled logits. -/
def softRow (zs : List (Option Nat)) : SoftState :=
  (keyTiles zs.length zs).foldl (fun st t => (st.step t).1) SoftState.start

/-- The row is spoiled by a NaN or an infinite logit (R289). -/
def SoftState.nan (st : SoftState) : Bool := isNan st.m || isNan st.l

/-- The outputs of SOFTMAX_ROW (R288 to R290). -/
def softOut (st : SoftState) (zs : List (Option Nat)) : List Nat :=
  if st.nan then zs.map fun _ => nan32
  else if st.l = 0 then zs.map fun _ => 0
  else zs.map fun z => match z with | some v => fdiv (fexp2 (fsub v st.m)) st.l | none => 0

/-- z of a logit (R287 step 1). -/
def scaled (sc : Option Nat) (x : Nat) : Nat := match sc with | some v => fmul x v | none => x

/-! ### Masks (R298) -/

/-- Bytes of a member's mask: 16 for each query row and key tile. -/
def maskBytes (rows keys : Nat) : Nat := ceilDiv keys 128 * rows * 16

/-- The mask of a command: its operand, query rows, key positions. -/
structure Mask where
  o : Opnd
  rows : Nat
  keys : Nat

def Mask.at (k : Mask) (b : Nat) : Nat := k.o.base + b * k.o.desc.batchStride
def Mask.reads (k : Mask) (b : Nat) : List (Nat × Nat × Nat) :=
  [(k.o.desc.mem, k.at b, maskBytes k.rows k.keys)]

/-- One past the mask's last byte. -/
def Mask.stop (k : Mask) (batch : Nat) : Nat := k.at (batch - 1) + maskBytes k.rows k.keys

/-- The pair of a query row and a key position is kept. -/
def Mask.keeps (k : Mask) (bs : List Byte) (row pos : Nat) : Bool :=
  bit (bs.getD ((pos / 128 * k.rows + row) * 16 + pos % 128 / 8) 0).toNat (pos % 8)

/-- The mask lies outside its memory: 0x1013, or 0x101E in device memory. -/
def Site.maskShape (x : Site) (k : Option Mask) (batch : Nat) : List (Nat × Bool) :=
  match k with
  | none => []
  | some k =>
    if k.o.desc.mem ≤ 1 then
      let w := x.c.window k.o.desc.mem
      [(0x1013, ! (decide (w.1 ≤ k.o.base) && decide (k.stop batch ≤ w.2)))]
    else if k.o.chip = 0 then
      let r := x.s.range x.c.part
      [(0x101E, ! (decide (r.1 ≤ k.o.base) && decide (k.stop batch ≤ r.2)))]
    else []

/-! ### SOFTMAX_ROW -/

def softNeeds (o : SoftF) : List Need :=
  [{ Need.tile o.x 1 with mems := [1], fmts := [0] }, Need.tile o.y 1] ++
  (if o.maskMode = 1 then [Need.tile o.maskT 1] else []) ++
  (o.statT.map fun r => { Need.tile r 1 with mems := [1], fmts := [0] }).toList

/-- The checks of SOFTMAX_ROW's own (R291, R320). -/
def softOwn (x : Site) (o : SoftF) (a y : Opnd) (k : Option Mask) (st : Option Opnd) : List (Nat × Bool) :=
  [(0x1111, o.c.src == 3),
   (0x1120, y.desc.rows != a.desc.rows || y.desc.cols != a.desc.cols || a.desc.cols % 32 != 0 || shapeOff st a.desc.rows 2),
   (0x1121, decide (1 < o.maskMode)), (0x1122, notInPlace a y 1)] ++ x.farOwn (y :: (k.map (·.o)).toList)

/-- The scaled logits of a row, masked positions none. -/
def maskRow (k : Option Mask) (bs : List Byte) (sc : Option Nat) (row : Nat) (xs : List Nat) : List (Option Nat) :=
  (xs.zip (List.range xs.length)).map fun p =>
    match k with
    | some k => if k.keeps bs row p.2 then some (scaled sc p.1) else none
    | none => some (scaled sc p.1)

/-- Void rows count in the list's statistics (R290). -/
def State.addVoids (s : State) (owner n : Nat) : State := s.modList owner fun l => { l with voids := l.voids + n }

def softRun (c : Cmd) (o : SoftF) (s : State) (e : Env) (a y : Opnd) (k : Option Mask) (st : Option Opnd) : Ran :=
  let sc := (e.site s).scale o.c
  withReads s e c (.softmaxRow c o)
    ((e.site s).scaleReads o.c ++ a.allReads 1 ++ (match k with | some k => k.reads 0 | none => [])) fun s x =>
    let bs := match k with | some k => (x.memFor k.o).read (k.at 0) (maskBytes k.rows k.keys) | none => []
    let rows := x.rows32 a 0
    let zs := (rows.zip (List.range rows.length)).map fun p => maskRow k bs sc p.2 p.1
    let sts := zs.map softRow
    let (ss, r) := memberStores y e.brick o.cvt 0 0 [List.zipWith softOut sts zs] (e.c.rnd e.stream)
    let s := (s.modCtx e.key (Ctx.withRnd r)).addVoids e.l.owner (sts.filter fun t => t.l == 0).length
    withStores s e c (.softmaxRow c o) (ss ++ pairStores st e.brick 0 (sts.map fun t => (t.m, t.l)))

/-- C5b and C6 of SOFTMAX_ROW. -/
def softBody (c : Cmd) (o : SoftF) (s : State) (e : Env) : Ran :=
  let x := e.site s
  let st := o.statT.bind x.opnd
  match x.opnd o.x, x.opnd o.y with
  | some a, some y =>
    let k := (x.opt (o.maskMode == 1) (some o.maskT)).map fun t => { o := t, rows := a.desc.rows, keys := a.desc.cols : Mask }
    .checked s (x.check (softNeeds o) ((0x1013, e.c.scaleBad o.c) :: x.maskShape k 1) false [o.cvt] (softOwn x o a y k st))
      fun _ => softRun c o s e a y k st
  | _, _ => .checked s (x.check (softNeeds o) [] false [] []) fun _ => .done s

/-- SOFTMAX_ROW (R286 to R292): only a VX queue takes it. -/
def execSoftmaxRow (c : Cmd) (o : SoftF) (s : State) : Res :=
  .next (s.command c (fitsCmd c && fitsSoft o) (· == 1) (fun _ => []) ((softNeeds o).map (·.reg)) id (softBody c o))

end Sys2Proof.Machine
end

