-- ==== Sys2Proof/Machine/Attention.lean ====
section
/-! DEFINITION. Attention over dense and paged keys and values, and the page movers GATHER_PAGES and SCATTER (R293 to
R320). -/

namespace Sys2Proof.Machine

/-! ### Sequences and slots -/

/-- A sequence field: an immediate, or an argument word (R293). -/
def Ctx.seqVal (c : Ctx) (src v : Nat) : Nat := if src = 0 then v else c.args.getD (v % 64) 0

/-- A sequence or a slot lies outside the table (0x1125). -/
def SplH.rangeBad (h : SplH) (seq : Nat) (slots : List Nat) : Bool :=
  decide (h.seqs ≤ seq) || slots.any fun k => decide (h.len ≤ k)

/-- Header and list entries are read as data: poison, windows, keys. Never-written bytes of the table fault nothing. -/
def Site.splFault (x : Site) (h : SplH) (seq : Nat) (slots : List Nat) : Option (Nat × Nat) :=
  let lax : Site := { x with c := { x.c with strict := false } }
  lax.readsFault ((2, h.at_, 256) :: slots.map fun k => (2, h.entry seq k, 8))

/-- A reader's pins are released (R312). -/
def State.unpinAll (s : State) (spl : Nat) (pins : List Nat) : State :=
  if pins.isEmpty then s else s.withDev (s.dev.release (s.dev.header spl) pins)

/-- A reader that faults gives its pins back first (R312). -/
def faultPinned (s : State) (spl : Nat) (pins : List Nat) (code addr : Nat) : Ran :=
  .fault (s.unpinAll spl pins) code 6 addr 0xFFFFFFFF

/-- The stores of a reader, after which it gives its pins back, or keeps them while frames are under way (R312). -/
def storePinned (s : State) (e : Env) (c : Cmd) (i : Instr) (spl : Nat) (pins : List Nat) (ss : List Store) : Ran :=
  match (e.site s).writesFault ss with
  | some (code, addr) => faultPinned s spl pins code addr
  | none =>
    match (ss.filter Store.isFar).find? fun t => ! s.reachable (chipField t.addr) with
    | some t => faultPinned s spl pins 0x3021 t.addr
    | none =>
      let s := s.sendStores e c i ss
      if (s.remoteAt c.loc).isSome then .held s (.remote spl pins) else .done (s.unpinAll spl pins)

/-- Bytes of this chip's device memory that a list of reads moves. -/
def ownBytes (l : List (Nat × Nat × Nat)) : Nat :=
  ((l.filter fun r => r.1 == 2 && chipField r.2.1 == 0).map (·.2.2)).sum

def State.chargeReads (s : State) (part : Nat) (l : List (Nat × Nat × Nat)) : State :=
  if ownBytes l = 0 then s else s.charge part (ownBytes l)

/-! ### ATTN_BLOCK -/

/-- The operands of an ATTN_BLOCK as read. -/
structure AttnOps where
  q : Opnd
  k : Option Opnd
  v : Option Opnd
  spl : Option Opnd
  o : Opnd
  st : Option Opnd
  y : Option Opnd
  mask : Option Mask

/-- Y is named by a register that holds a descriptor. -/
def Site.yOk (x : Site) (o : AttnF) : Bool := o.final == 1 && (x.opnd o.y).isSome

/-- Key-value heads a command uses (R298). -/
def attnKvHeads (o : AttnF) : Nat := if o.group = 0 then 1 else o.batch / o.group

def attnNeeds (x : Site) (o : AttnF) : List Need :=
  let kv := attnKvHeads o
  [{ Need.tile o.q o.batch with mems := [0] }] ++
  (if o.kvSrc = 0 then [{ Need.tile o.k kv with mems := [0] }, { Need.tile o.v kv with mems := [0] }] else []) ++
  (if o.kvSrc = 1 then [Need.dev o.splT] else []) ++
  [{ Need.tile o.oT o.batch with mems := [1], fmts := [0] }] ++
  (o.stateT.map fun r => { Need.tile r o.batch with mems := [1], fmts := [0] }).toList ++
  (if x.yOk o then [Need.tile o.y o.batch] else []) ++
  (if o.maskMode = 1 then [Need.tile o.maskT o.batch] else [])

/-- The header of a paged command. -/
def Site.hdr (x : Site) (on : Bool) (spl : Nat) : Option SplH :=
  if on then (x.opnd spl).map fun t => x.s.dev.header t.base else none

/-- The header passes R308 for the partition. -/
def Site.hdrOk (x : Site) (h : SplH) : Bool := let r := x.s.range x.c.part; h.ok r.1 r.2

/-- Memory, first and end address of an operand. -/
def regionOf (o : Opnd) (batch : Nat) : Nat × Nat × Nat := (o.desc.mem, o.base, o.stop batch)
def regionsMeet (a b : Nat × Nat × Nat) : Bool := a.1 == b.1 && decide (a.2.1 < b.2.2) && decide (b.2.1 < a.2.2)

/-- Some region of a list meets a later one, or one of the others. -/
def anyMeet : List (Nat × Nat × Nat) → List (Nat × Nat × Nat) → Bool
  | [], _ => false
  | a :: r, others => (r ++ others).any (regionsMeet a) || anyMeet r others

/-- The overlaps of R300. -/
def attnOverlap (o : AttnF) (p : AttnOps) : Bool :=
  let kv := attnKvHeads o
  anyMeet (regionOf p.o o.batch :: (p.st.toList ++ p.y.toList).map fun t => regionOf t o.batch)
    (regionOf p.q o.batch :: (p.k.toList ++ p.v.toList).map (fun t => regionOf t kv) ++
      (p.mask.map fun k => (k.o.desc.mem, k.o.base, k.stop o.batch)).toList)

/-- Query rows, dk, dv and keys. -/
def AttnOps.mq (p : AttnOps) : Nat := p.q.desc.rows
def AttnOps.dk (p : AttnOps) : Nat := p.q.desc.cols
def AttnOps.dv (p : AttnOps) (o : AttnF) : Nat := match p.v with | some v => v.desc.cols | none => o.dv
def AttnOps.nk (p : AttnOps) (o : AttnF) : Nat := match p.k with | some k => k.desc.rows | none => o.tokens

def dimBad (n : Nat) : Bool := n % 32 != 0 || decide (256 < n)

/-- Shapes or size limits broken (0x1120). -/
def attnShape (x : Site) (o : AttnF) (p : AttnOps) (h : Option SplH) : Bool :=
  let dv := p.dv o
  o.batch == 0 || dimBad p.mq || dimBad p.dk || dimBad dv ||
  (match p.k, p.v with
   | some k, some v => k.desc.cols != p.dk || v.desc.rows != k.desc.rows || k.desc.rows % 32 != 0
   | _, _ => false) ||
  (o.kvSrc == 1 && (o.firstToken % 128 != 0 || o.tokens % 32 != 0 || o.tokens == 0 ||
    (match h with
     | some h => x.hdrOk h && (h.dk != p.dk || h.dv != dv || decide (h.heads < attnKvHeads o))
     | none => false))) ||
  shapeOff (some p.o) p.mq dv || shapeOff p.st p.mq 2 || shapeOff p.y p.mq dv

/-- The checks of ATTN_BLOCK's own (R294, R300, R302, R308, R311). -/
def attnOwn (x : Site) (o : AttnF) (p : AttnOps) (h : Option SplH) : List (Nat × Bool) :=
  [(0x1111, o.c.src == 3), (0x1120, attnShape x o p h),
   (0x1121, decide (1 < o.kvSrc) || decide (1 < o.maskMode) || o.group == 0 || decide (64 < o.group) ||
      o.batch % o.group != 0 || (o.kvSrc == 1 && decide (1 < o.seqSrc))),
   (0x1122, attnOverlap o p),
   (0x1123, (o.stateIn == 1 && o.stateT.isNone) || (o.final == 1 && ! x.yOk o)),
   (0x1124, match h with | some h => ! x.hdrOk h | none => false),
   (0x1125, match h with
      | some h => h.rangeBad (x.c.seqVal o.seqSrc o.seq) (slotsOf o.firstToken o.tokens)
      | none => false)] ++ x.farOwn (p.y.toList ++ (p.mask.map (·.o)).toList)

/-- The operands of an ATTN_BLOCK; none when a register it needs holds no descriptor. -/
def Site.attnOps (x : Site) (o : AttnF) : Option AttnOps :=
  match x.opnd o.q, x.opnd o.oT with
  | some q, some ot =>
    let k := x.opt (o.kvSrc == 0) (some o.k)
    let v := x.opt (o.kvSrc == 0) (some o.v)
    let spl := x.opt (o.kvSrc == 1) (some o.splT)
    let keys := match k with | some t => t.desc.rows | none => o.tokens
    some { q := q, k := k, v := v, spl := spl, o := ot, st := o.stateT.bind x.opnd
           y := x.opt (o.final == 1) (some o.y)
           mask := (x.opt (o.maskMode == 1) (some o.maskT)).map fun t => { o := t, rows := q.desc.rows, keys := keys : Mask } }
  | _, _ => none

/-- Where the K row and V row of a key position lie (R301): memory, address, bytes. Dense rows lie in K and V, paged rows
in the page pinned for their slot. -/
def AttnOps.kvAt (p : AttnOps) (o : AttnF) (h : Option SplH) (pages : List Nat) (isV : Bool) (head j : Nat) :
    Nat × Nat × Nat :=
  match h with
  | some h =>
    let tok := o.firstToken + j
    let pg := pages.getD (tok / 256 - o.firstToken / 256) 0
    (2, h.elem pg isV head (tok % 256) 0, (if isV then h.dv else h.dk) * h.z)
  | none =>
    match if isV then p.v else p.k with
    | some t => (0, t.rowAt head j, t.desc.rowBytes)
    | none => (0, 0, 0)

/-- The formats of K and V. -/
def AttnOps.kFmt (p : AttnOps) (h : Option SplH) : Nat :=
  match h with | some h => h.fmt | none => (p.k.map (·.desc.fmt)).getD 0
def AttnOps.vFmt (p : AttnOps) (h : Option SplH) : Nat :=
  match h with | some h => h.fmt | none => (p.v.map (·.desc.fmt)).getD 0

/-- Bytes of a member's mask. -/
def AttnOps.maskOf (p : AttnOps) (x : Site) (b : Nat) : Option (List Byte) :=
  p.mask.map fun k => (x.memFor k.o).read (k.at b) (maskBytes k.rows k.keys)

def AttnOps.keeps (p : AttnOps) (bs : Option (List Byte)) (row pos : Nat) : Bool :=
  match p.mask, bs with
  | some k, some b => k.keeps b row pos
  | _, _ => true

/-- First positions of the key tiles a member processes: a tile masked for every query row is skipped (R299). -/
def AttnOps.tiles (p : AttnOps) (o : AttnF) (bs : Option (List Byte)) : List Nat :=
  ((List.range (ceilDiv (p.nk o) 128)).map (128 * ·)).filter fun j0 =>
    (List.range p.mq).any fun i => (List.range' j0 (min 128 (p.nk o - j0))).any fun j => p.keeps bs i j

/-- p narrowed for the product with V (R295). -/
def attnP (vFmt p : Nat) : Nat :=
  if vFmt = 0 then p else
  let f := if vFmt ≤ 2 then vFmt else 3
  widen f (narrow f 0 p none)

/-- The rows of a list by column. -/
def columns (n : Nat) (rows : List (List Nat)) : List (List Nat) :=
  (List.range n).map fun d => rows.map fun r => r.getD d 0

/-- One query row over one key tile (R287, R295): scores, soft maximum, output. -/
def attnRow (sc : Option Nat) (vFmt : Nat) (ks vcols : List (List Nat)) (keep : List Bool) (q : List Nat)
    (r : SoftState × List Nat) : SoftState × List Nat :=
  let zs := (ks.zip keep).map fun p => if p.2 then some (scaled sc (sum32 (List.zipWith fmul q p.1))) else none
  let (st, a, ps) := r.1.step zs
  let ps := ps.map (attnP vFmt)
  (st, (r.2.zip vcols).map fun p => dotFrom (some (fmul p.1 a)) (List.zipWith fmul ps p.2))

/-- The widened elements of a key or value row. -/
def kvRow (x : Site) (fmt : Nat) (a : Nat × Nat × Nat) : List Nat :=
  (elems fmt ((x.s.memOf x.brick a.1).read a.2.1 a.2.2) (8 * a.2.2 / fmtBits fmt)).map (widen fmt)

/-- A member's state rows before its first key tile (R286, R297). -/
def AttnOps.startRows (p : AttnOps) (x : Site) (o : AttnF) (b : Nat) : List (SoftState × List Nat) :=
  (List.range p.mq).map fun i =>
    match if o.stateIn = 1 then p.st else none with
    | some t => let ml := x.row t b i; ({ m := ml.getD 0 0, l := ml.getD 1 0 }, x.row p.o b i)
    | none => (SoftState.start, List.replicate (p.dv o) 0)

/-- One member: every key tile in ascending order. -/
def AttnOps.member (p : AttnOps) (x : Site) (o : AttnF) (h : Option SplH) (pages : List Nat) (sc : Option Nat) (b : Nat) :
    List (SoftState × List Nat) :=
  let bs := p.maskOf x b
  let head := b / o.group
  let qs := x.rows32 p.q b
  (p.tiles o bs).foldl (fun rows j0 =>
    let w := min 128 (p.nk o - j0)
    let js := List.range' j0 w
    let ks := js.map fun j => kvRow x (p.kFmt h) (p.kvAt o h pages false head j)
    let vcols := columns (p.dv o) (js.map fun j => kvRow x (p.vFmt h) (p.kvAt o h pages true head j))
    (rows.zip (qs.zip (List.range qs.length))).map fun r =>
      attnRow sc (p.vFmt h) ks vcols (js.map fun j => p.keeps bs r.2.2 j) r.2.1 r.1) (p.startRows x o b)

/-- Every read a member makes, mask first; K and V only of the tiles it processes. -/
def AttnOps.memberReads (p : AttnOps) (x : Site) (o : AttnF) (h : Option SplH) (pages : List Nat) (b : Nat) :
    List (Nat × Nat × Nat) :=
  let head := b / o.group
  (match p.mask with | some k => k.reads b | none => []) ++ p.q.rowReads b 0 p.mq ++
  (if o.stateIn = 1 then (match p.st with | some t => t.rowReads b 0 p.mq | none => []) ++ p.o.rowReads b 0 p.mq else []) ++
  (p.tiles o (p.maskOf x b)).flatMap fun j0 =>
    (List.range' j0 (min 128 (p.nk o - j0))).flatMap fun j =>
      [p.kvAt o h pages false head j, p.kvAt o h pages true head j]

/-- Y of a row (R296). -/
def attnY (r : SoftState × List Nat) : List Nat := if r.1.l = 0 then r.2.map fun _ => 0 else r.2.map fun v => fdiv v r.1.l

/-- C6 of an ATTN_BLOCK with its pages pinned. -/
def attnRun (c : Cmd) (o : AttnF) (s : State) (e : Env) (x : Site) (p : AttnOps) (h : Option SplH) (spl : Nat)
    (pages : List Nat) : Ran :=
  let reads := x.scaleReads o.c ++ (List.range o.batch).flatMap (p.memberReads x o h pages)
  match x.readsFault reads with
  | some (code, addr) => faultPinned s spl pages code addr
  | none =>
    let sc := x.scale o.c
    let ms : List (List (SoftState × List Nat)) := (List.range o.batch).map (p.member x o h pages sc)
    let (ys, r) := match p.y with
      | some y => memberStores y e.brick o.yCvt 0 0 (ms.map (List.map attnY)) (e.c.rnd e.stream)
      | none => ([], e.c.rnd e.stream)
    let ss := (ms.zip (List.range ms.length)).flatMap fun m =>
      p.o.storeRows e.brick m.2 (m.1.map (·.2)) ++ pairStores p.st e.brick m.2 (m.1.map fun r => (r.1.m, r.1.l))
    let voids := if o.final = 1 then (ms.flatten.filter fun r => r.1.l == 0).length else 0
    let s := ((s.modCtx e.key (Ctx.withRnd r)).addVoids e.l.owner voids).chargeReads e.c.part reads
    storePinned s e c (.attnBlock c o) spl pages (ss ++ ys)

/-- What the pin step came to: the run goes on, waits on a WLOCK, or faults (R310, R311). -/
def pinned (s : State) (h : SplH) (par : Nat) (r : SplRes) (held : Nat → List Nat → HeldOp)
    (k : State → List Nat → Ran) : Ran :=
  match r with
  | .done d pins => k (s.withDev (d.leavePin h par)) pins
  | .wait d slot pins => .held (s.withDev d) (held slot pins)
  | .fail d code ent pins => .fault (s.withDev (d.pinFail h par code pins)) code 5 ent 0xFFFFFFFF

/-- The pin step of a reader over `n` slots of a sequence from slot `k`, with the pages already pinned. -/
def pinFrom (s : State) (h : SplH) (par seq n k : Nat) (pins : List Nat) (held : Nat → List Nat → HeldOp)
    (run : State → List Nat → Ran) : Ran :=
  pinned s h par (Dev.pinSlots h seq n k pins s.dev) held run

/-- Slots left of a token range from slot `k` on. -/
def slotsLeft (first tokens k : Nat) : Nat := ((slotsOf first tokens).filter (k ≤ ·)).length

/-- C5b and C6 of ATTN_BLOCK. -/
def attnBody (c : Cmd) (o : AttnF) (s : State) (e : Env) : Ran :=
  let x := e.site s
  match x.attnOps o with
  | none => .checked s (x.check (attnNeeds x o) [] false [] []) fun _ => .done s
  | some p =>
    let h := x.hdr (o.kvSrc == 1) o.splT
    let okH := match h with | some h => x.hdrOk h | none => true
    .checked s (x.check (attnNeeds x o) ((0x1013, e.c.scaleBad o.c) :: x.maskShape p.mask o.batch)
        (decide (o.kvSrc ≤ 1) && okH && ! pairOk p.q.desc.fmt (p.kFmt h))
        (if o.final = 1 then [o.yCvt] else []) (attnOwn x o p h)) fun _ =>
      let far := (p.mask.map fun k => (List.range o.batch).flatMap k.reads).getD []
      withReads s e c (.attnBlock c o) (far.filter fun r => r.1 == 2 && chipField r.2.1 != 0) fun s x =>
        match h with
        | none => attnRun c o s e x p none 0 []
        | some h =>
          let seq := e.c.seqVal o.seqSrc o.seq
          let slots := slotsOf o.firstToken o.tokens
          match x.splFault h seq slots with
          | some (code, addr) => .fault s code 6 addr 0xFFFFFFFF
          | none =>
            let (d, par) := s.dev.enterPin h
            pinFrom (s.withDev d) h par seq slots.length (o.firstToken / 256) []
              (fun k ps => .pinAttn o e.c.tiles x.far h.at_ par k ps)
              fun s ps => attnRun c o s e { e.site s with far := x.far } p (some h) h.at_ ps

/-- The tile registers an ATTN_BLOCK names. -/
def attnRegs (o : AttnF) : List Nat :=
  [o.q] ++ (if o.kvSrc = 0 then [o.k, o.v] else []) ++ (if o.kvSrc = 1 then [o.splT] else []) ++ [o.oT] ++
  o.stateT.toList ++ (if o.final = 1 then [o.y] else []) ++ (if o.maskMode = 1 then [o.maskT] else [])

/-- ATTN_BLOCK (R293 to R300): only an MX queue takes it. -/
def execAttnBlock (c : Cmd) (o : AttnF) (s : State) : Res :=
  .next (s.command c (fitsCmd c && fitsAttn o) (· == 0) (fun _ => []) (attnRegs o) id (attnBody c o))

/-! ### GATHER_PAGES and SCATTER -/

/-- The row tiles of a page mover: KT, then VT. -/
def rowTiles (x : Site) (o : PagesF) : Option Opnd × Option Opnd := (o.kt.bind x.opnd, o.vt.bind x.opnd)

def pagesNeeds (o : PagesF) (rows : Bool) : List Need :=
  Need.dev o.splT :: (if rows then (o.kt.toList ++ o.vt.toList).map fun r => Need.tile r o.heads else [])

/-- A row tile has another shape or format than the header gives it (0x1120, R314). -/
def rowTileBad (h : SplH) (o : PagesF) (cols : Nat) (t : Option Opnd) : Bool :=
  match t with
  | some t => t.desc.rows != o.tokens || t.desc.cols != cols || t.desc.fmt != h.fmt
  | none => false

/-- The checks of GATHER_PAGES and SCATTER WRITE (R314, R320). -/
def rowsOwn (x : Site) (o : PagesF) (h : SplH) (write : Bool) : List (Nat × Bool) :=
  let t := rowTiles x o
  [(0x1120, x.hdrOk h && (rowTileBad h o h.dk t.1 || rowTileBad h o h.dv t.2 || decide (h.heads < o.head0 + o.heads))),
   (0x1121, decide (1 < o.seqSrc)),
   (0x1123, (o.kt.isNone && o.vt.isNone) || o.heads == 0 || (write && o.tokens == 0)),
   (0x1124, ! x.hdrOk h),
   (0x1125, h.rangeBad (x.c.seqVal o.seqSrc o.seq) (slotsOf o.firstToken o.tokens))] ++
  x.farOwn (t.1.toList ++ t.2.toList)

/-- Tokens of a slot within a range: first, count. -/
def slotSpan (first tokens k : Nat) : Nat × Nat :=
  let lo := max first (256 * k)
  (lo, min (first + tokens) (256 * k + 256) - lo)

/-- Where the rows of one head lie in a page: the address of a token's K or V row and its bytes. -/
def pageRow (h : SplH) (pg : Nat) (isV : Bool) (head tok : Nat) : Nat × Nat :=
  (h.elem pg isV head (tok % 256) 0, (if isV then h.dv else h.dk) * h.z)

/-- The moves of a GATHER_PAGES: page address, bytes, destination tile, member, row (R313). -/
def gatherMoves (o : PagesF) (h : SplH) (kt vt : Option Opnd) (pages : List Nat) : List (Nat × Nat × Opnd × Nat × Nat) :=
  (List.range o.heads).flatMap fun j =>
    [(false, kt), (true, vt)].flatMap fun w =>
      match w.2 with
      | none => []
      | some t =>
        (List.range o.tokens).map fun i =>
          let tok := o.firstToken + i
          let a := pageRow h (pages.getD (tok / 256 - o.firstToken / 256) 0) w.1 (o.head0 + j) tok
          (a.1, a.2, t, j, i)

/-- C6 of GATHER_PAGES with its pages pinned (R313). -/
def gatherRun (c : Cmd) (o : PagesF) (s : State) (e : Env) (h : SplH) (pages : List Nat) : Ran :=
  let x := e.site s
  let t := rowTiles x o
  let ms := gatherMoves o h t.1 t.2 pages
  let reads := ms.map fun m => (2, m.1, m.2.1)
  match x.readsFault reads with
  | some (code, addr) => faultPinned s h.at_ pages code addr
  | none =>
    let ss := ms.map fun m =>
      ({ mem := m.2.2.1.desc.mem, brick := e.brick, addr := m.2.2.1.rowAt m.2.2.2.1 m.2.2.2.2
         bytes := s.mem.read m.1 m.2.1 } : Store)
    storePinned (s.chargeReads e.c.part reads) e c (.gatherPages c o) h.at_ pages ss

/-- C5b and C6 of GATHER_PAGES. -/
def gatherBody (c : Cmd) (o : PagesF) (s : State) (e : Env) : Ran :=
  let x := e.site s
  match x.hdr true o.splT with
  | none => .checked s (x.check (pagesNeeds o true) [] false [] []) fun _ => .done s
  | some h =>
    .checked s (x.check (pagesNeeds o true) [] false [] (rowsOwn x o h false)) fun _ =>
      let seq := e.c.seqVal o.seqSrc o.seq
      let slots := slotsOf o.firstToken o.tokens
      match x.splFault h seq slots with
      | some (code, addr) => .fault s code 6 addr 0xFFFFFFFF
      | none =>
        let (d, par) := s.dev.enterPin h
        pinFrom (s.withDev d) h par seq slots.length (o.firstToken / 256) []
          (fun k ps => .pinGather o e.c.tiles h.at_ par k ps) fun s ps => gatherRun c o s e h ps

/-- The tile registers a page mover names. -/
def pagesRegs (o : PagesF) (rows : Bool) : List Nat := (pagesNeeds o rows).map (·.reg)

/-- GATHER_PAGES (R313, R314): only a DX queue takes it. -/
def execGatherPages (c : Cmd) (o : PagesF) (s : State) : Res :=
  .next (s.command c (fitsCmd c && fitsPages o) (· == 3) (fun _ => []) (pagesRegs o true) id (gatherBody c o))

/-- PIN_RESUME: a reader that waited on a WLOCK reads the list entry again and goes on (R310). -/
def pinResume (l : Loc) (s : State) : State :=
  if ! s.awake then s else
  s.resume l fun s e c held =>
    match held with
    | .pinAttn o tiles far spl par k ps =>
      let h := s.dev.header spl
      let e := { e with c := { e.c with tiles := tiles } }
      match (e.site s).attnOps o with
      | none => none
      | some p =>
        some (pinFrom s h par (e.c.seqVal o.seqSrc o.seq) (slotsLeft o.firstToken o.tokens k) k ps
          (fun k ps => .pinAttn o tiles far spl par k ps)
          fun s ps => attnRun c o s e { e.site s with far := far } p (some h) spl ps)
    | .pinGather o tiles spl par k ps =>
      let h := s.dev.header spl
      let e := { e with c := { e.c with tiles := tiles } }
      some (pinFrom s h par (e.c.seqVal o.seqSrc o.seq) (slotsLeft o.firstToken o.tokens k) k ps
        (fun k ps => .pinGather o tiles spl par k ps) fun s ps => gatherRun c o s e h ps)
    | _ => none

def execPinResume (l : Loc) (s : State) : Res := .next (pinResume l s)

/-- The stores of one slot of a WRITE (R314): page address and the source row. -/
def writeMoves (x : Site) (o : PagesF) (h : SplH) (kt vt : Option Opnd) (k pg : Nat) : List (Nat × List Byte) :=
  let sp := slotSpan o.firstToken o.tokens k
  (List.range o.heads).flatMap fun j =>
    [(false, kt), (true, vt)].flatMap fun w =>
      match w.2 with
      | none => []
      | some t =>
        (List.range' sp.1 sp.2).map fun tok =>
          let a := pageRow h pg w.1 (o.head0 + j) tok
          (a.1, (x.memFor t).read (t.rowAt j (tok - o.firstToken)) a.2)

/-- The slots of a WRITE, in ascending order; a fault leaves the slots before it stored (R316, R317). -/
def writeSlots (x : Site) (e : Env) (o : PagesF) (h : SplH) (kt vt : Option Opnd) (seq : Nat) :
    List Nat → State → Ran
  | [], s => .done s
  | k :: ks, s =>
    match s.dev.writable h seq k with
    | .error code => .fault s code 6 (h.entry seq k) 0xFFFFFFFF
    | .ok (d, pg) =>
      let ms := writeMoves x o h kt vt k pg
      let ss : List Store := ms.map fun m => { mem := 2, brick := e.brick, addr := m.1, bytes := m.2 }
      match x.writesFault ss with
      | some (code, addr) => .fault s code 6 addr 0xFFFFFFFF
      | none => writeSlots x e o h kt vt seq ks ((s.withDev d).commit e.c.part ss)

/-- C5b and C6 of SCATTER WRITE (R314 to R317). -/
def writeBody (c : Cmd) (o : PagesF) (s : State) (e : Env) : Ran :=
  let x := e.site s
  match x.hdr true o.splT with
  | none => .checked s (x.check (pagesNeeds o true) [] false [] []) fun _ => .done s
  | some h =>
    let t := rowTiles x o
    .checked s (x.check (pagesNeeds o true) [] false [] (rowsOwn x o h true)) fun _ =>
      withReads s e c (.scatterWrite c o) ((t.1.toList ++ t.2.toList).flatMap fun t => t.allReads o.heads) fun s x =>
        let seq := e.c.seqVal o.seqSrc o.seq
        let slots := slotsOf o.firstToken o.tokens
        match x.splFault h seq slots with
        | some (code, addr) => .fault s code 6 addr 0xFFFFFFFF
        | none => writeSlots x e o h t.1 t.2 seq slots s

/-- FORM 0b11 is reserved (0x1121); the forms without rows share it. -/
def formReserved (o : PagesF) : Bool := o.form == 3

/-- SCATTER WRITE. A FORM that is reserved faults 0x1121 (R314). -/
def scatterReserved (o : PagesF) (s : State) (e : Env) : Ran :=
  let x := e.site s
  .checked s (x.check (pagesNeeds o false) [] false [] [(0x1121, true)]) fun _ => .done s

def execScatterWrite (c : Cmd) (o : PagesF) (s : State) : Res :=
  .next (s.command c (fitsCmd c && fitsPages o) (· == 3) (fun _ => []) (pagesRegs o true) id
    (if formReserved o then scatterReserved o else writeBody c o))

/-- The slots of FORK and FREE. -/
def forkSlotList (o : PagesF) : List Nat := List.range' o.firstSlot o.slots

/-- The checks of FORK and FREE (R314, R315, R320). -/
def slotsOwn (x : Site) (o : PagesF) (h : SplH) (fork : Bool) : List (Nat × Bool) :=
  let seq := x.c.seqVal o.seqSrc o.seq
  [(0x1121, decide (1 < o.seqSrc) || (fork && decide (1 < o.srcSeqSrc))),
   (0x1123, o.slots == 0),
   (0x1124, ! x.hdrOk h),
   (0x1125, h.rangeBad seq (forkSlotList o) ||
      (fork && (h.rangeBad (x.c.seqVal o.srcSeqSrc o.srcSeq) (forkSlotList o) ||
        (forkSlotList o).any fun k => x.s.dev.r 4 (h.entry seq k) != nilPage)))]

/-- A FORK's slots from `k` on: done, waiting on a WLOCK, or a fault (R315). -/
def forkFrom (o : PagesF) (s : State) (e : Env) (h : SplH) (k : Nat) : Ran :=
  let r := Dev.forkSlots h (e.c.seqVal o.srcSeqSrc o.srcSeq) (e.c.seqVal o.seqSrc o.seq) (o.firstSlot + o.slots - k) k s.dev
  match r with
  | .done d _ => .done (s.withDev d)
  | .wait d slot _ => .held (s.withDev d) (.fork o h.at_ slot)
  | .fail d code ent _ => .fault (s.withDev (if code = 0x1126 then d.bump h 0x38 else d)) code 6 ent 0xFFFFFFFF

/-- C5b and C6 of a form over slots. -/
def slotsBody (fork : Bool) (o : PagesF) (s : State) (e : Env) (run : State → SplH → Ran) : Ran :=
  let x := e.site s
  match x.hdr true o.splT with
  | none => .checked s (x.check (pagesNeeds o false) [] false [] []) fun _ => .done s
  | some h =>
    .checked s (x.check (pagesNeeds o false) [] false [] (slotsOwn x o h fork)) fun _ =>
      match x.splFault h (e.c.seqVal o.seqSrc o.seq) (forkSlotList o) with
      | some (code, addr) => .fault s code 6 addr 0xFFFFFFFF
      | none => run s h

/-- SCATTER FORK (R315). -/
def execScatterFork (c : Cmd) (o : PagesF) (s : State) : Res :=
  .next (s.command c (fitsCmd c && fitsPages o) (· == 3) (fun _ => []) (pagesRegs o false) id
    fun s e => if formReserved o then scatterReserved o s e
      else slotsBody true o s e fun s h => forkFrom o s e h o.firstSlot)

/-- A FREE's slots: a stale entry faults and counts (R311, R315). -/
def freeRun (o : PagesF) (e : Env) (s : State) (h : SplH) : Ran :=
  match Dev.freeSlots h (e.c.seqVal o.seqSrc o.seq) (forkSlotList o) s.dev with
  | .done d _ => .done (s.withDev d)
  | .wait d _ _ => .done (s.withDev d)
  | .fail d code ent _ => .fault (s.withDev (if code = 0x1126 then d.bump h 0x38 else d)) code 6 ent 0xFFFFFFFF

/-- SCATTER FREE (R315). -/
def execScatterFree (c : Cmd) (o : PagesF) (s : State) : Res :=
  .next (s.command c (fitsCmd c && fitsPages o) (· == 3) (fun _ => []) (pagesRegs o false) id
    fun s e => if formReserved o then scatterReserved o s e else slotsBody false o s e (freeRun o e))

/-- FORK_RESUME: a FORK that waited on a WLOCK goes on at its slot (R315). -/
def forkResume (l : Loc) (s : State) : State :=
  if ! s.awake then s else
  s.resume l fun s e _ held =>
    match held with
    | .fork o spl k => some (forkFrom o s e (s.dev.header spl) k)
    | _ => none

def execForkResume (l : Loc) (s : State) : Res := .next (forkResume l s)

end Sys2Proof.Machine
end

