-- ==== Sys2Proof/Machine/Window.lean ====
section
/-! DEFINITION. The window operators: CONV2D on the matrix core, POOL2D and RESAMPLE (R321 to R341). -/

namespace Sys2Proof.Machine

/-! ### Planar tensors (R321, R322) -/

/-- The address of a sample: image, plane, row, column. -/
def Opnd.planeAt (o : Opnd) (istr b p r col : Nat) : Nat :=
  o.base + b * istr + p * o.desc.batchStride + r * o.desc.rowStride + col * fmtBits o.desc.fmt / 8

/-- The planes of one image, widened. -/
def Site.planes32 (x : Site) (o : Opnd) (istr b planes : Nat) : List (List (List Nat)) :=
  (List.range planes).map fun p => (List.range o.desc.rows).map fun r =>
    (elems o.desc.fmt ((x.memFor o).read (o.planeAt istr b p r 0) o.desc.rowBytes) o.desc.cols).map (widen o.desc.fmt)

/-- A sample of one image's planes. -/
def sampleAt (ps : List (List (List Nat))) (p r col : Nat) : Nat := ((ps.getD p []).getD r []).getD col 0

/-- The strides of a planar operand (0x1130). -/
def planarBad (o : Opnd) : Bool :=
  o.desc.batchStride % 64 != 0 || decide (o.desc.batchStride < o.desc.rows * o.desc.rowStride)

/-- Memory, first and end address of a planar operand. -/
def planarRegion (o : Opnd) (planes batch istr : Nat) : Nat × Nat × Nat :=
  (o.desc.mem, o.base, o.planarStop planes batch istr)

/-- Filter, stride and dilation of a window. -/
structure Win where
  fh : Nat
  fw : Nat
  sh : Nat
  sw : Nat
  dh : Nat
  dw : Nat
deriving DecidableEq, Repr

def convWin (o : ConvF) : Win := { fh := o.fh, fw := o.fw, sh := o.sh, sw := o.sw, dh := o.dh, dw := o.dw }
def poolWin (o : PoolF) : Win := { fh := o.fh, fw := o.fw, sh := o.sh, sw := o.sw, dh := o.dh, dw := o.dw }

/-- Beyond FEAT_6 (0x1019). -/
def Win.tooBig (w : Win) : Bool :=
  decide (Config.maxFilter < w.fh) || decide (Config.maxFilter < w.fw) || decide (Config.maxDilation < w.dh) ||
  decide (Config.maxDilation < w.dw)

/-- A zero field, or a stride above 8 (0x1131). -/
def Win.reserved (w : Win) : Bool :=
  w.fh == 0 || w.fw == 0 || w.sh == 0 || w.sw == 0 || w.dh == 0 || w.dw == 0 || decide (8 < w.sh) || decide (8 < w.sw)

/-- The shape rule of R326 between an input plane and an output plane. -/
def Win.shapeBad (w : Win) (x y : Opnd) : Bool :=
  x.desc.rows != (y.desc.rows - 1) * w.sh + (w.fh - 1) * w.dh + 1 ||
  x.desc.cols != (y.desc.cols - 1) * w.sw + (w.fw - 1) * w.dw + 1

/-- The positions a window reads for output (oh, ow), in row-major tap order. -/
def Win.taps (w : Win) (oh ow : Nat) : List (Nat × Nat) :=
  (List.range w.fh).flatMap fun i => (List.range w.fw).map fun j => (oh * w.sh + i * w.dh, ow * w.sw + j * w.dw)

/-! ### CONV2D -/

/-- The K indices of a position: plane, row, column (R328). -/
def convTaps (o : ConvF) (wo m : Nat) : List (Nat × Nat × Nat) :=
  ((convWin o).taps (m / wo) (m % wo)).flatMap fun t => (List.range o.cin).map fun c => (c, t.1, t.2)

/-- Encodings of the gathered rows of an image (R328). -/
def Site.convRows (x : Site) (o : ConvF) (a : Opnd) (m wo b : Nat) : List (List Nat) :=
  let ps := (List.range o.cin).map fun p => (List.range a.desc.rows).map fun r =>
    elems a.desc.fmt ((x.memFor a).read (a.planeAt o.xIstr b p r 0) a.desc.rowBytes) a.desc.cols
  (List.range m).map fun i => (convTaps o wo i).map fun t => sampleAt ps t.1 t.2.1 t.2.2

/-- The reads of gathered rows r0 .. r0 + h - 1. -/
def convReads (o : ConvF) (a : Opnd) (wo b r0 h : Nat) : List (Nat × Nat × Nat) :=
  (List.range' r0 h).flatMap fun i =>
    (convTaps o wo i).map fun t => (a.desc.mem, a.planeAt o.xIstr b t.1 t.2.1 t.2.2, (fmtBits a.desc.fmt + 7) / 8)

/-- The operands of a CONV2D; a planar operand carries its planes and image stride. -/
def convNeeds (x : Site) (o : ConvF) : List Need :=
  let e := o.epi
  let n := ((x.opnd o.f).map (·.desc.rows)).getD 1
  [{ Need.matrix o.x o.batch plainFmts with planes := max 1 o.cin, istr := o.xIstr }, Need.matrix o.f o.batch allFmts,
   { Need.accum o.y o.batch [0] with planes := max 1 n, istr := o.yIstr }] ++
  (if o.acc = 0 then (e.bias.map fun r => { Need.tile r o.batch with mems := [0, 1] }).toList else []) ++
  (if epiRedOn e then [{ Need.tile e.redT o.batch with mems := [1] }] else []) ++
  (e.d.map fun r => { Need.tile r o.batch with planes := max 1 n, istr := o.yIstr }).toList

/-- Y or D overlaps X or F (0x1134). -/
def convOverlap (o : ConvF) (a f y : Opnd) (d : Option Opnd) : Bool :=
  let n := f.desc.rows
  let ins := [planarRegion a (max 1 o.cin) o.batch o.xIstr, regionOf f o.batch]
  let outs := planarRegion y n o.batch o.yIstr :: (d.map fun t => planarRegion t n o.batch o.yIstr).toList
  outs.any fun r => ins.any (regionsMeet r)

/-- Shapes of bias, RED_T and D (0x1110). -/
def convEpiShape (o : ConvF) (m n : Nat) (y : Opnd) (bias r d : Option Opnd) : Bool :=
  (match bias with | some t => t.desc.fmt != 0 || t.desc.rows != 1 || t.desc.cols != n | none => false) ||
  (match r with | some t => ! epiRedShape o.epi m n t | none => false) ||
  shapeOff d y.desc.rows y.desc.cols

/-- The checks of CONV2D's own (R275, R330, R331, R341). -/
def convOwn (x : Site) (o : ConvF) (a f y : Opnd) (bias r d : Option Opnd) : List (Nat × Bool) :=
  let e := o.epi
  let m := y.desc.rows * y.desc.cols
  let n := f.desc.rows
  let w := convWin o
  [(0x1110, convEpiShape o m n y bias r d),
   (0x1111, epiReserved e),
   (0x1112, o.batch == 0 || (e.bias.isSome && o.acc == 1) || (epiRedOn e && min (32 * e.split) n == 0) ||
      (bit e.stream 3 && bit e.stream 2 && e.d.isNone)),
   (0x1130, w.shapeBad a y || f.desc.cols != o.fh * o.fw * o.cin || planarBad a || planarBad y ||
      (match d with | some t => planarBad t | none => false)),
   (0x1131, w.reserved),
   (0x1132, o.cin % 32 != 0),
   (0x1134, convOverlap o a f y d),
   (0x1135, e.gateT.isSome || e.reuse != 0 || e.reuseBound != 0 || e.reuseMaxAge != 0 || e.reuseEpoch != 0 ||
      e.reuseT != 0)] ++ x.farOwn d.toList

/-- The matrix job of a CONV2D (R327 to R329). -/
def convJob (c : Cmd) (o : ConvF) (a f y : Opnd) (bias r d : Option Opnd) : MatJob :=
  let wo := y.desc.cols
  let m := y.desc.rows * wo
  { c := c, instr := .conv2d c o, e := o.epi, batch := o.batch, m := m, n := f.desc.rows, aFmt := a.desc.fmt
    tgt := if o.epi.proFmt = 0xFF then a.desc.fmt else o.epi.proFmt
    gated := false, acc := o.acc == 1, reuse := false, carry := false
    ct := { o := y, wo := wo, istr := o.yIstr }, dt := d.map fun t => { o := t, wo := wo, istr := o.yIstr }
    bias := bias, g := none, r := r, t := none, bBase := fun _ => 0
    aReads := fun b r0 h => convReads o a wo b r0 h, aRows := fun x b => x.convRows o a m wo b
    bReads := fun b c0 w => f.bReads 1 b c0 w, bCols := fun x b => x.bCols f 1 b }

/-- C5b and C6 of CONV2D. -/
def convBody (c : Cmd) (o : ConvF) (s : State) (e : Env) : Ran :=
  let x := e.site s
  let p := o.epi
  match x.opnd o.x, x.opnd o.f, x.opnd o.y with
  | some a, some f, some y =>
    let bias := x.opt (o.acc == 0) p.bias
    let r := x.opt (epiRedOn p) (some p.redT)
    let d := x.opt true p.d
    let m := y.desc.rows * y.desc.cols
    let n := f.desc.rows
    let tgt := if p.proFmt = 0xFF then a.desc.fmt else p.proFmt
    let shape := [(0x1013, e.c.scaleBad p.proScale || e.c.scaleBad p.epiScale),
      (0x1014, m % 32 != 0 || n % 32 != 0 || decide (Config.maxMN < m) || decide (Config.maxMN < n)),
      (0x1015, (o.fh * o.fw * o.cin) % 32 != 0), (0x1019, (convWin o).tooBig)]
    .checked s (x.check (convNeeds x o) shape ((decide (p.proFmt ≤ 4) || p.proFmt == 0xFF) && ! pairOk tgt f.desc.fmt)
        (epiCvts p) (convOwn x o a f y bias r d)) fun _ => (convJob c o a f y bias r d).run s e
  | _, _, _ => .checked s (x.check (convNeeds x o) [] false [] []) fun _ => .done s

/-- The tile registers a CONV2D names. -/
def convRegs (o : ConvF) : List Nat :=
  [o.x, o.f, o.y] ++ (if o.acc = 0 then o.epi.bias.toList else []) ++ (if epiRedOn o.epi then [o.epi.redT] else []) ++
  o.epi.d.toList

/-- CONV2D (R324 to R333): only an MX queue takes it. -/
def execConv2d (c : Cmd) (o : ConvF) (s : State) : Res :=
  .next (s.command c (fitsCmd c && fitsConv o) (· == 0) (fun _ => []) (convRegs o) id (convBody c o))

/-! ### Planar results (R336) -/

/-- The stores of narrowed planes: images in ascending order, planes within an image, rows within a plane. -/
def planeStores (o : Opnd) (brick istr : Nat) (cvt : Cvt) :
    Nat → List ((Nat × Nat × Nat) × List Nat) → Rnd → List Store × Rnd
  | _, [], r => ([], r)
  | i, (k, row) :: rows, r =>
    let (y, r) := narrowAll o.desc.fmt cvt 0 i row r
    let (ss, r) := planeStores o brick istr cvt (i + row.length) rows r
    ({ mem := o.desc.mem, brick := brick, addr := o.planeAt istr k.1 k.2.1 k.2.2 0
       bytes := rowBytesOf o.desc.fmt y } :: ss, r)

/-- Image, plane and row of every output row, in draw order. -/
def planeKeys (batch planes rows : Nat) : List (Nat × Nat × Nat) :=
  (List.range batch).flatMap fun b => (List.range planes).flatMap fun p => (List.range rows).map fun r => (b, p, r)

/-- Samples read at positions of a plane. -/
def sampleReads (o : Opnd) (istr b p : Nat) (ts : List (Nat × Nat)) : List (Nat × Nat × Nat) :=
  ts.map fun t => (o.desc.mem, o.planeAt istr b p t.1 t.2, (fmtBits o.desc.fmt + 7) / 8)

/-- A list completed to a multiple of 32 (R335, R339). -/
def pad32 (v : Nat) (l : List Nat) : List Nat := l ++ List.replicate (roundUp l.length 32 - l.length) v

/-! ### POOL2D -/

/-- The result of a window (R335). -/
def poolVal (mode : Nat) (xs : List Nat) : Nat :=
  if mode = 0 then max32 (pad32 0xFF800000 xs)
  else if mode = 1 then fdiv (sum32 (pad32 0 xs)) (ofNat32 xs.length)
  else sum32 (pad32 0 xs)

def poolNeeds (o : PoolF) : List Need :=
  [{ Need.tile o.x o.batch with mems := [0, 1], planes := max 1 o.ch, istr := o.xIstr },
   { Need.tile o.y o.batch with mems := [0, 1], planes := max 1 o.ch, istr := o.yIstr }]

/-- The checks of POOL2D's own (R334, R341). -/
def poolOwn (o : PoolF) (a y : Opnd) : List (Nat × Bool) :=
  [(0x1130, (poolWin o).shapeBad a y || planarBad a || planarBad y || o.ch == 0 || o.batch == 0),
   (0x1131, (poolWin o).reserved || o.mode == 3),
   (0x1134, regionsMeet (planarRegion a o.ch o.batch o.xIstr) (planarRegion y o.ch o.batch o.yIstr))]

/-- C6 of POOL2D. -/
def poolRun (c : Cmd) (o : PoolF) (s : State) (e : Env) (a y : Opnd) : Ran :=
  let w := poolWin o
  let keys := planeKeys o.batch o.ch y.desc.rows
  let reads := keys.flatMap fun k => (List.range y.desc.cols).flatMap fun ow =>
    sampleReads a o.xIstr k.1 k.2.1 (w.taps k.2.2 ow)
  withReads s e c (.pool2d c o) reads fun s x =>
    let imgs := (List.range o.batch).map fun b => x.planes32 a o.xIstr b o.ch
    let rows := keys.map fun k => (k, (List.range y.desc.cols).map fun ow =>
      poolVal o.mode ((w.taps k.2.2 ow).map fun t => sampleAt (imgs.getD k.1 []) k.2.1 t.1 t.2))
    let (ss, r) := planeStores y e.brick o.yIstr o.cvt 0 rows (e.c.rnd e.stream)
    withStores (s.modCtx e.key (Ctx.withRnd r)) e c (.pool2d c o) ss

/-- C5b and C6 of POOL2D. -/
def poolBody (c : Cmd) (o : PoolF) (s : State) (e : Env) : Ran :=
  let x := e.site s
  match x.opnd o.x, x.opnd o.y with
  | some a, some y =>
    .checked s (x.check (poolNeeds o) [(0x1019, (poolWin o).tooBig)] false [o.cvt] (poolOwn o a y)) fun _ =>
      poolRun c o s e a y
  | _, _ => .checked s (x.check (poolNeeds o) [] false [] []) fun _ => .done s

/-- POOL2D (R334 to R336): only a WX queue takes it. -/
def execPool2d (c : Cmd) (o : PoolF) (s : State) : Res :=
  .next (s.command c (fitsCmd c && fitsPool o) (· == 2) (fun _ => []) [o.x, o.y] id (poolBody c o))

/-! ### RESAMPLE -/

/-- Rounds a ratio of naturals to an integer, ties to even. -/
def roundDiv (n d : Nat) : Nat :=
  let q := n / d
  let r := n % d
  if d < 2 * r ∨ (2 * r = d ∧ q % 2 = 1) then q + 1 else q

/-- The integer part and the phase in 1/256 of a finite coordinate (R338). -/
def phaseOf (sx : Nat) : Option (Int × Nat) :=
  match fmt32.decode sx with
  | .fin neg m e =>
    if 0 ≤ e then some (signed neg (m <<< e.toNat), 0)
    else
      let d : Nat := 2 ^ (-e).toNat
      let v := signed neg m
      let i := v / (d : Int)
      let q := roundDiv ((v % (d : Int)).toNat * 256) d
      if q = 256 then some (i + 1, 0) else some (i, q)
  | _ => none

/-- The source coordinate of an output index (R337). -/
def resampCoord (n r o : Nat) : Nat := fadd (fmul (ofNat32 n) r) o

/-- k(t) of the bicubic kernel at |t| = u / 256 (R338). -/
def cubicAt (u : Nat) : Nat :=
  let v : Int := u
  if u ≤ 256 then roundInt (3 * v ^ 3 - 5 * 256 * v ^ 2 + 2 * 256 ^ 3) (-25)
  else roundInt (-(v ^ 3) + 5 * 256 * v ^ 2 - 8 * 256 ^ 2 * v + 4 * 256 ^ 3) (-25)

/-- k(t) of the Lanczos kernel at |t| = u / 256, at most 3 (R338). -/
def lanczosAt (u : Nat) : Nat :=
  if u = 0 then one32
  else if u % 256 = 0 then 0
  else
    let num := 3 * fxSinPi (u % 256) 256 * fxSinPi u 768 * 65536
    let den := fxPi * fxPi * u * u
    round32 (u / 256 % 2 == 1) ((num <<< 128) / den) (-128) true

/-- Offsets and weights of one axis at a phase (R338). -/
def kernelTaps (kernel q : Nat) : List (Int × Nat) :=
  let at' (j : Int) : Nat := (256 * j - q).natAbs
  if kernel = 0 then [(if q < 128 then 0 else 1, one32)]
  else if kernel = 1 then ([0, 1] : List Int).map fun j => (j, roundInt ((256 : Int) - at' j) (-8))
  else if kernel = 2 then ([-1, 0, 1, 2] : List Int).map fun j => (j, cubicAt (at' j))
  else ([-2, -1, 0, 1, 2, 3] : List Int).map fun j => (j, lanczosAt (at' j))

/-- The positions and weights of an axis for an output index; none when the coordinate is not finite. -/
def axisTaps (kernel n r o : Nat) : Option (List (Int × Nat)) :=
  (phaseOf (resampCoord n r o)).map fun p => (kernelTaps kernel p.2).map fun t => (p.1 + t.1, t.2)

/-- A tap of an axis lies outside the input (0x1133). -/
def axisBad (kernel n r o size : Nat) : Bool :=
  match axisTaps kernel n r o with
  | some ts => ts.any fun t => decide (t.1 < 0) || decide ((size : Int) ≤ t.1)
  | none => true

/-- The positions and weights a pixel reads, in row-major order. -/
def pixelTaps (ry rx : List (Int × Nat)) : List ((Nat × Nat) × Nat) :=
  ry.flatMap fun y => rx.map fun x => ((y.1.toNat, x.1.toNat), fmul y.2 x.2)

/-- The value of a pixel (R339). -/
def pixelVal (kernel : Nat) (ts : List (Nat × Nat)) : Nat :=
  if kernel = 0 then (ts.headD (0, 0)).1
  else fdiv (sum32 (pad32 0 (ts.map fun t => fmul t.2 t.1))) (sum32 (pad32 0 (ts.map (·.2))))

def resampNeeds (o : ResampF) : List Need :=
  [{ Need.tile o.x o.batch with mems := [0, 1], planes := max 1 o.ch, istr := o.xIstr },
   { Need.tile o.y o.batch with mems := [0, 1], planes := max 1 o.ch, istr := o.yIstr }]

/-- Positive and finite. -/
def ratioOk (r : Nat) : Bool := isFinite32 r && flt 0 r

/-- The checks of RESAMPLE's own (R337, R340, R341). -/
def resampOwn (o : ResampF) (a y : Opnd) : List (Nat × Bool) :=
  [(0x1130, planarBad a || planarBad y || o.ch == 0 || o.batch == 0),
   (0x1131, ! ratioOk o.rx || ! ratioOk o.ry),
   (0x1133, [0, y.desc.cols - 1].any (fun n => axisBad o.kernel n o.rx o.ox a.desc.cols) ||
      [0, y.desc.rows - 1].any (fun n => axisBad o.kernel n o.ry o.oy a.desc.rows)),
   (0x1134, regionsMeet (planarRegion a o.ch o.batch o.xIstr) (planarRegion y o.ch o.batch o.yIstr))]

/-- The taps of every pixel of an output row. -/
def rowTaps (o : ResampF) (row cols : Nat) : List (List ((Nat × Nat) × Nat)) :=
  let ry := (axisTaps o.kernel row o.ry o.oy).getD []
  (List.range cols).map fun n => pixelTaps ry ((axisTaps o.kernel n o.rx o.ox).getD [])

/-- C6 of RESAMPLE. -/
def resampRun (c : Cmd) (o : ResampF) (s : State) (e : Env) (a y : Opnd) : Ran :=
  let keys := planeKeys o.batch o.ch y.desc.rows
  let taps := (List.range y.desc.rows).map fun r => rowTaps o r y.desc.cols
  let reads := keys.flatMap fun k => (taps.getD k.2.2 []).flatMap fun ts =>
    sampleReads a o.xIstr k.1 k.2.1 (ts.map (·.1))
  withReads s e c (.resample c o) reads fun s x =>
    let imgs := (List.range o.batch).map fun b => x.planes32 a o.xIstr b o.ch
    let rows := keys.map fun k => (k, (taps.getD k.2.2 []).map fun ts =>
      pixelVal o.kernel (ts.map fun t => (sampleAt (imgs.getD k.1 []) k.2.1 t.1.1 t.1.2, t.2)))
    let (ss, r) := planeStores y e.brick o.yIstr o.cvt 0 rows (e.c.rnd e.stream)
    withStores (s.modCtx e.key (Ctx.withRnd r)) e c (.resample c o) ss

/-- C5b and C6 of RESAMPLE. -/
def resampBody (c : Cmd) (o : ResampF) (s : State) (e : Env) : Ran :=
  let x := e.site s
  match x.opnd o.x, x.opnd o.y with
  | some a, some y => .checked s (x.check (resampNeeds o) [] false [o.cvt] (resampOwn o a y)) fun _ => resampRun c o s e a y
  | _, _ => .checked s (x.check (resampNeeds o) [] false [] []) fun _ => .done s

/-- RESAMPLE (R337 to R340): only a WX queue takes it. -/
def execResample (c : Cmd) (o : ResampF) (s : State) : Res :=
  .next (s.command c (fitsCmd c && fitsResamp o) (· == 2) (fun _ => []) [o.x, o.y] id (resampBody c o))

end Sys2Proof.Machine
end

