-- ==== Sys2Proof/Machine/Random.lean ====
section
/-! DEFINITION. RNG_FILL (R350 to R358). -/

namespace Sys2Proof.Machine

/-- A 64-bit operand: an immediate, or an argument pair; none for a reserved source (R352). -/
def Ctx.rngSrc (c : Ctx) (r : RngSrc) : Option Nat :=
  if r.src = 0 then some r.imm
  else if r.src = 1 ∧ r.arg ≤ 62 then some (c.argPair r.arg)
  else none

/-- The index of element (0, 0, 0) (R353). -/
def rngBase (c : Ctx) (stream : Nat) (o : RngF) : Nat :=
  (c.rngSrc o.idx).getD 0 + (if bit o.idxLsel 3 then o.idxLstr * c.loopIdx stream (bits o.idxLsel 2 0) else 0)

/-- An element's value from its words (R354). -/
def rngVal (dist p0 p1 w0 w1 : Nat) : Nat :=
  if dist = 0 then w0
  else if dist = 1 then fadd p0 (fmul (roundInt ((w0 / 256 : Nat) : Int) (-24)) (fsub p1 p0))
  else if dist = 2 then
    let a := fmul (flog2u (w0 / 256 + 1)) 0xBFB17218
    let rr := if isZero a then 0 else fmul a (frsqrt a)
    fadd p0 (fmul p1 (fmul rr (fcos2pi (w1 / 256))))
  else if w0 < p0 then p1 else 0

/-- The words of element `k` with index `e`: the element's block, or the lane's next draws (R353, R354). -/
def rngWords (o : RngF) (seed tid e k : Nat) (r : Rnd) : (Nat × Nat) × Rnd :=
  if o.gen = 0 then (philox seed tid e, r)
  else
    let (w0, r) := r.lane (k % 4096)
    if o.dist = 2 then let (w1, r) := r.lane (k % 4096); ((w0, w1), r) else ((w0, 0), r)

/-- The values of a list of elements given by their indices, element `k` on. -/
def rngRow (o : RngF) (seed tid : Nat) : Nat → List Nat → Rnd → List Nat × Rnd
  | _, [], r => ([], r)
  | k, e :: es, r =>
    let (w, r) := rngWords o seed tid e k r
    let (vs, r) := rngRow o seed tid (k + 1) es r
    (rngVal o.dist o.p0 o.p1 w.1 w.2 :: vs, r)

/-- Rows narrowed; the bit patterns of BITS are stored as they are, and stochastic rounding draws all the same (R234,
R354, R355). -/
def rngNarrow (o : RngF) (fmt i : Nat) (row : List Nat) (r : Rnd) : List Nat × Rnd :=
  let (ys, r) := narrowAll fmt o.cvt 0 i row r
  (if o.dist = 0 then row else ys, r)

/-- The stores of a RNG_FILL, row by row: member, row, the indices of its elements. -/
def rngStores (y : Opnd) (brick : Nat) (o : RngF) (seed tid : Nat) : Nat → List (Nat × Nat × List Nat) → Rnd →
    List Store × Rnd
  | _, [], r => ([], r)
  | k, (b, row, es) :: rows, r =>
    let (vs, r) := rngRow o seed tid k es r
    let (ys, r) := rngNarrow o y.desc.fmt k vs r
    let (ss, r) := rngStores y brick o seed tid (k + es.length) rows r
    (y.storeRow brick b row 0 ys :: ss, r)

/-- Member, row and element indices of every row (R353). -/
def rngKeys (y : Opnd) (o : RngF) (e0 : Nat) : List (Nat × Nat × List Nat) :=
  (List.range o.batch).flatMap fun b => (List.range y.desc.rows).map fun row =>
    (b, row, (List.range y.desc.cols).map fun col => e0 + b * o.idxBatch + row * o.idxRow + col)

/-- The parameters of a distribution are not allowed (0x1141). -/
def rngParamBad (o : RngF) : Bool :=
  (o.dist == 1 && (! isFinite32 o.p0 || ! isFinite32 o.p1 || fle o.p1 o.p0)) ||
  (o.dist == 2 && (! isFinite32 o.p0 || ! isFinite32 o.p1 || flt o.p1 0)) ||
  (o.dist == 3 && ! isFinite32 o.p1)

/-- The checks of RNG_FILL's own (R358). -/
def rngOwn (x : Site) (o : RngF) (y : Opnd) : List (Nat × Bool) :=
  let last := rngBase x.c x.stream o + (o.batch - 1) * o.idxBatch + (y.desc.rows - 1) * o.idxRow + (y.desc.cols - 1)
  [(0x1140, decide (1 < o.gen) || decide (3 < o.dist) || (o.gen == 0 &&
      ((x.c.rngSrc o.seed).isNone || (x.c.rngSrc o.tid).isNone || (x.c.rngSrc o.idx).isNone))),
   (0x1141, rngParamBad o),
   (0x1142, o.gen == 0 && o.batch != 0 && decide (2 ^ 64 ≤ last))] ++ x.farOwn [y]

/-- C5b and C6 of RNG_FILL. -/
def rngBody (c : Cmd) (o : RngF) (s : State) (e : Env) : Ran :=
  let x := e.site s
  let own := match x.opnd o.y with | some y => rngOwn x o y | none => []
  let pair := match x.opnd o.y with | some y => o.dist == 0 && y.desc.fmt != 0 | none => false
  .checked s (x.check [Need.tile o.y o.batch] [] pair [o.cvt] own) fun _ =>
    match x.opnd o.y with
    | none => .done s
    | some y =>
      let seed := (e.c.rngSrc o.seed).getD 0
      let tid := (e.c.rngSrc o.tid).getD 0
      let (ss, r) := rngStores y e.brick o seed tid 0 (rngKeys y o (rngBase e.c e.stream o)) (e.c.rnd e.stream)
      withStores (s.modCtx e.key (Ctx.withRnd r)) e c (.rngFill c o) ss

/-- RNG_FILL: only a VX queue takes it. -/
def execRngFill (c : Cmd) (o : RngF) (s : State) : Res :=
  .next (s.command c (fitsCmd c && fitsRng o) (· == 1) (fun _ => []) [o.y] id (rngBody c o))

end Sys2Proof.Machine
end

