-- ==== Sys2Proof/Machine/Training.lean ====
section
/-! DEFINITION. Training support: SCALE_UPDATE in its five modes and NONFINITE_VOTE (R502 to R511). -/

namespace Sys2Proof.Machine

/-- A MODE encoding that the row does not own is reserved (0x1162, R502). -/
def modeReserved (o : ScaleF) : Bool := decide (4 < o.mode)

/-- A tile that is not 1 × `cols` FP32 in AM (0x1160). -/
def scalarBad (t : Option Opnd) (cols : Nat) : Bool :=
  match t with
  | some t => t.desc.mem != 1 || t.desc.rows != 1 || t.desc.cols != cols || t.desc.fmt != 0
  | none => false

/-- The word of a 1 × 1 tile. -/
def Site.word (x : Site) (t : Opnd) (i : Nat) : Nat := (x.row t 0 0).getD i 0

/-- A reserved MODE names no tile. -/
def scaleReserved (s : State) : Ran := .checked s (some 0x1162) fun _ => .done s

/-! ### AMAX and SUMSQ (R503) -/

/-- The widened elements of a tile in order: rows within a member, members ascending. -/
def Site.elements (x : Site) (t : Opnd) (batch : Nat) : List Nat :=
  (List.range batch).flatMap fun b => (x.rows32 t b).flatten

def amaxOf (xs : List Nat) : Nat := max32 (pad32 0 (xs.map fabs))
def sumsqOf (xs : List Nat) : Nat := sum32 (pad32 0 (xs.map fun v => fmul v v))

/-- C5b and C6 of AMAX and SUMSQ: the result of the sequence, combined with R under ACC. -/
def reduceBody (i : Instr) (c : Cmd) (o : ScaleF) (f : List Nat → Nat) (op : Nat → Nat → Nat) (s : State) (e : Env) : Ran :=
  if modeReserved o then scaleReserved s else
  let x := e.site s
  let needs := [Need.tile o.x o.batch, Need.tile o.r 1]
  match x.opnd o.x, x.opnd o.r with
  | some a, some r =>
    .checked s (x.check needs [] false [] (x.farOwn [a, r] ++ [(0x1160, scalarBad (some r) 1 || o.batch == 0)])) fun _ =>
      withReads s e c i (a.allReads o.batch ++ (if o.acc = 1 then r.allReads 1 else [])) fun s x =>
        let v := f (x.elements a o.batch)
        withStores s e c i [r.storeRow e.brick 0 0 0 [if o.acc = 1 then op (x.word r 0) v else v]]
  | _, _ => .checked s (x.check needs [] false [] []) fun _ => .done s

/-- AMAX (R503): only a VX queue takes a SCALE_UPDATE. -/
def execAmax (c : Cmd) (o : ScaleF) (s : State) : Res :=
  .next (s.command c (fitsCmd c && fitsScaleF o) (· == 1) (fun _ => []) [o.x, o.r] id
    (reduceBody (.amax c o) c o amaxOf fmax))

/-- SUMSQ (R503). -/
def execSumsq (c : Cmd) (o : ScaleF) (s : State) : Res :=
  .next (s.command c (fitsCmd c && fitsScaleF o) (· == 1) (fun _ => []) [o.x, o.r] id
    (reduceBody (.sumsq c o) c o sumsqOf fadd))

/-! ### PUSH (R504, R505) -/

/-- The header of a scale record. -/
structure ScaleRec where
  hlen : Nat
  fmt : Nat
  margin : Int
  pos : Nat
  fill : Nat
  scale : Nat
  inv : Nat
  pushes : Nat
  refused : Nat
  last : Nat
deriving DecidableEq, Repr

def parseScale (b : List Byte) : ScaleRec :=
  { hlen := fieldLE b 0 2, fmt := fieldLE b 2 1, margin := sext 8 (fieldLE b 3 1), pos := fieldLE b 4 2
    fill := fieldLE b 6 2, scale := fieldLE b 8 4, inv := fieldLE b 0x0C 4, pushes := fieldLE b 0x10 4
    refused := fieldLE b 0x14 4, last := fieldLE b 0x18 4 }

/-- Bytes 0x04 to 0x1B, the part that PUSH updates. -/
def ScaleRec.bytes (r : ScaleRec) : List Byte :=
  leBytes 2 r.pos ++ leBytes 2 r.fill ++ leBytes 4 r.scale ++ leBytes 4 r.inv ++ leBytes 4 r.pushes ++
  leBytes 4 r.refused ++ leBytes 4 r.last

/-- A positive normal power of two. -/
def isPow2 (x : Nat) : Bool := x % 2 ^ 23 == 0 && decide (1 ≤ x / 2 ^ 23) && decide (x / 2 ^ 23 ≤ 254)

/-- The header is valid for a REC of `cols` columns (0x1161). -/
def ScaleRec.ok (r : ScaleRec) (b : List Byte) (cols : Nat) : Bool :=
  decide (1 ≤ r.hlen) && decide (r.hlen ≤ 1024) && (r.fmt == 3 || r.fmt == 4) && decide (-16 ≤ r.margin) &&
  decide (r.margin ≤ 16) && decide (r.pos < r.hlen) && decide (r.fill ≤ r.hlen) && isPow2 r.scale && isPow2 r.inv &&
  r.scale / 2 ^ 23 + r.inv / 2 ^ 23 == 254 && zeroField b 0x1C 36 && cols == 16 + r.hlen

/-- The largest e with m · 2^e at most FMAX, 1.75 · 2^8 or 1.75 · 2^15 (R505). -/
def scaleExp (fmt m : Nat) : Int :=
  match fmt32.decode m with
  | .fin _ k x =>
    let l := Nat.log2 k
    (if fmt = 3 then 8 else 15) - ((l : Int) + x) - (if 4 * k ≤ 7 * 2 ^ l then 0 else 1)
  | _ => 0

/-- An FP32 power of two, for an exponent from -126 to 127. -/
def pow2 (e : Int) : Nat := (e + 127).toNat * 2 ^ 23

/-- PUSH of a into a record with its history (R505): the record, and the history slot written. -/
def ScaleRec.push (r : ScaleRec) (hist : List Nat) (a : Nat) : ScaleRec × Option (Nat × Nat) :=
  if ! isFinite32 a then ({ r with last := a, refused := sat32 (r.refused + 1) }, none) else
  let hist := hist.set r.pos a
  let fill := min (r.fill + 1) r.hlen
  let m := (hist.take fill).foldl fmax 0
  let e := max (-126) (min 126 (scaleExp r.fmt m - r.margin))
  let up := flt 0 m
  ({ r with
      last := a, pos := (r.pos + 1) % r.hlen, fill := fill, pushes := sat32 (r.pushes + 1)
      scale := if up then pow2 e else r.scale, inv := if up then pow2 (-e) else r.inv }, some (r.pos, a))

/-- The stores of a PUSH: the header, the history slot, and OUT. -/
def pushStores (t : Opnd) (out : Option Opnd) (brick : Nat) (r : ScaleRec) (slot : Option (Nat × Nat)) : List Store :=
  let st (a : Nat) (bs : List Byte) : Store := { mem := t.desc.mem, brick := brick, addr := a, bytes := bs }
  [st (t.base + 4) r.bytes] ++ (slot.map fun p => st (t.base + 0x40 + 4 * p.1) (leBytes 4 p.2)).toList ++
  (out.map fun o => o.storeRow brick 0 0 0 [r.scale, r.inv]).toList

/-- REC is not 1 × (16 + HLEN) FP32 in AM or device memory. -/
def recBad (t : Opnd) : Bool :=
  (t.desc.mem != 1 && t.desc.mem != 2) || t.desc.rows != 1 || t.desc.fmt != 0 || decide (t.desc.cols < 17)

def pushNeeds (o : ScaleF) : List Need :=
  [Need.tile o.src 1, Need.tile o.recT 1] ++ (o.out.map fun r => Need.tile r 1).toList

/-- C5b and C6 of PUSH. -/
def pushBody (c : Cmd) (o : ScaleF) (s : State) (e : Env) : Ran :=
  if modeReserved o then scaleReserved s else
  let x := e.site s
  let out := o.out.bind x.opnd
  match x.opnd o.src, x.opnd o.recT with
  | some a, some t =>
    .checked s (x.check (pushNeeds o) [] false []
        (x.farOwn ([a, t] ++ out.toList) ++ [(0x1160, scalarBad (some a) 1 || scalarBad out 2 || recBad t)])) fun _ =>
      withReads s e c (.push c o) (t.allReads 1 ++ a.allReads 1) fun s x =>
        let b := (x.memFor t).read t.base t.desc.rowBytes
        let r := parseScale b
        if ! r.ok b t.desc.cols then .fault s 0x1161 5 0 0xFFFFFFFF else
        let (r', slot) := r.push ((x.row t 0 0).drop 16) (fabs (widen 0 (x.word a 0)))
        withStores s e c (.push c o) (pushStores t out e.brick r' slot)
  | _, _ => .checked s (x.check (pushNeeds o) [] false [] []) fun _ => .done s

/-- PUSH (R505). -/
def execPush (c : Cmd) (o : ScaleF) (s : State) : Res :=
  .next (s.command c (fitsCmd c && fitsScaleF o) (· == 1) (fun _ => []) ((pushNeeds o).map (·.reg)) id (pushBody c o))

/-! ### CLIP and PRODUCT (R506) -/

/-- The clip factor. -/
def clipOf (maxnorm v : Nat) : Nat :=
  if isNan v || v == 0x7F800000 || flt v 0 then nan32
  else
    let c := fmul maxnorm (frsqrt v)
    if fle one32 c then one32 else c

/-- C5b and C6 of CLIP. -/
def clipBody (c : Cmd) (o : ScaleF) (s : State) (e : Env) : Ran :=
  if modeReserved o then scaleReserved s else
  let x := e.site s
  let needs := [Need.tile o.src 1, Need.tile o.r 1]
  match x.opnd o.src, x.opnd o.r with
  | some a, some r =>
    .checked s (x.check needs [] false [] (x.farOwn [a, r] ++ [(0x1160, scalarBad (some a) 1 || scalarBad (some r) 1),
        (0x1163, ! ratioOk o.maxnorm)])) fun _ =>
      withReads s e c (.clip c o) (a.allReads 1) fun s x =>
        withStores s e c (.clip c o) [r.storeRow e.brick 0 0 0 [clipOf o.maxnorm (x.word a 0)]]
  | _, _ => .checked s (x.check needs [] false [] []) fun _ => .done s

/-- CLIP (R506). -/
def execClip (c : Cmd) (o : ScaleF) (s : State) : Res :=
  .next (s.command c (fitsCmd c && fitsScaleF o) (· == 1) (fun _ => []) [o.src, o.r] id (clipBody c o))

/-- C5b and C6 of PRODUCT. -/
def productBody (c : Cmd) (o : ScaleF) (s : State) (e : Env) : Ran :=
  if modeReserved o then scaleReserved s else
  let x := e.site s
  let needs := [Need.tile o.src 1, Need.tile o.src2 1, Need.tile o.r 1]
  match x.opnd o.src, x.opnd o.src2, x.opnd o.r with
  | some a, some b, some r =>
    .checked s (x.check needs [] false []
        (x.farOwn [a, b, r] ++ [(0x1160, [a, b, r].any fun t => scalarBad (some t) 1)])) fun _ =>
      withReads s e c (.product c o) (a.allReads 1 ++ b.allReads 1) fun s x =>
        withStores s e c (.product c o) [r.storeRow e.brick 0 0 0 [fmul (x.word a 0) (x.word b 0)]]
  | _, _, _ => .checked s (x.check needs [] false [] []) fun _ => .done s

/-- PRODUCT (R506). -/
def execProduct (c : Cmd) (o : ScaleF) (s : State) : Res :=
  .next (s.command c (fitsCmd c && fitsScaleF o) (· == 1) (fun _ => []) [o.src, o.src2, o.r] id (productBody c o))

/-! ### NONFINITE_VOTE (R508) -/

/-- C5b and C6 of NONFINITE_VOTE: the predicate is written before the signals (R509). -/
def voteBody (c : Cmd) (o : VoteF) (s : State) (e : Env) : Ran :=
  let x := e.site s
  let needs := [Need.tile o.x o.batch]
  match x.opnd o.x with
  | some a =>
    .checked s (x.check needs [] false [] (x.farOwn [a])) fun _ =>
      withReads s e c (.nonfiniteVote c o) (a.allReads o.batch) fun s x =>
        let n := (x.elements a o.batch).any fun v => ! isFinite32 v
        .done (s.modCtx e.key (Ctx.setPred o.pred ((e.c.preds.getD o.pred false && o.acc == 1) || n)))
  | none => .checked s (x.check needs [] false [] []) fun _ => .done s

/-- NONFINITE_VOTE: only a VX queue takes it. -/
def execNonfiniteVote (c : Cmd) (o : VoteF) (s : State) : Res :=
  .next (s.command c (fitsCmd c && fitsVote o) (· == 1) (fun _ => []) [o.x] id (voteBody c o))

end Sys2Proof.Machine
end

