-- ==== Sys2Proof/Machine/Collective.lean ====
section
/-! DEFINITION. Collectives: groups, handshakes, the order-fixed tree, streamed sources, aborts and time-outs (R486 to
R495). -/

namespace Sys2Proof.Machine

/-! ### Kinds and groups -/

/-- The operations: ALL_REDUCE, REDUCE_SCATTER, VETO_OR of COLL_REDUCE; ALL_GATHER, BROADCAST of COLL_SEND (R491). -/
inductive CollKind where
  | allReduce | reduceScatter | vetoOr | allGather | broadcast
deriving DecidableEq, Repr

/-- The OP field of a row. -/
def CollKind.op : CollKind → Nat
  | .allReduce => 0 | .reduceScatter => 1 | .vetoOr => 2 | .allGather => 0 | .broadcast => 1

def CollKind.reduces (k : CollKind) : Bool := k == .allReduce || k == .reduceScatter
def CollKind.hasTiles (k : CollKind) : Bool := k != .vetoOr

/-- A kind as a handshake states it. -/
def CollKind.code : CollKind → Nat
  | .allReduce => 0 | .reduceScatter => 1 | .vetoOr => 2 | .allGather => 8 | .broadcast => 9

/-- A group as read at issue (R486). -/
structure Group where
  gid : Nat
  chips : List Nat
  rankwise : Bool
  crc : Nat
  ok : Bool
deriving DecidableEq, Repr

/-- A local group: the ranks of the list. -/
def State.localGroup (s : State) : Group :=
  { gid := 0, chips := [s.haw.chip], rankwise := false, crc := 0, ok := true }

/-- A descriptor at an address, for a partition's range (R486). -/
def State.groupAt (s : State) (part a : Nat) : Group :=
  let r := s.range part
  let count := leNat (s.mem.read (a + 8) 2)
  let b := s.mem.read a (16 + 2 * count)
  let chips := (List.range count).map fun i => fieldLE b (16 + 2 * i) 2
  let gid := fieldLE b 4 4
  { gid := gid, chips := chips, rankwise := bit (fieldLE b 0x0A 1) 0, crc := crc32 b
    ok := a % 64 == 0 && decide (r.1 ≤ a) && decide (a + 16 + 2 * count ≤ r.2) && fieldLE b 0 4 == 0x47525550 &&
      gid != 0 && decide (1 ≤ count) && decide (count ≤ 8192) && decide (fieldLE b 0x0A 1 < 2) && zeroField b 0x0B 5 &&
      chips.all (fun c => decide (1 ≤ c) && decide (c ≤ 8192)) && decide chips.Nodup && chips.contains s.haw.chip }

/-- The group a command names. -/
def State.groupOf (s : State) (e : Env) (o : CollF) : Group :=
  if o.groupSrc = 1 then s.groupAt e.c.part (e.c.argPair o.groupArg) else s.localGroup

/-- TAG and first leaf (R491). -/
def collTag (c : Ctx) (o : CollF) : Nat := if o.tagSrc = 0 then o.tag else c.args.getD (o.tag % 64) 0
def collLeaf (c : Ctx) (o : CollF) : Nat :=
  if o.leafSrc = 0 then o.leaf else if o.leafSrc = 1 then c.args.getD (o.leaf % 64) 0 else c.rank * o.leaves

/-- The instance a command belongs to (R488). -/
def collKey (e : Env) (o : CollF) (g : Group) : CollKey :=
  { group := g.gid, tag := collTag e.c o, rank := if g.rankwise then e.c.rank else 0
    list := if o.groupSrc = 1 then 0 else e.l.owner + 1 }

def State.coll? (s : State) (k : CollKey) : Option Coll := s.haw.colls.find? (·.key == k)
def State.modColl (s : State) (k : CollKey) (f : Coll → Coll) : State :=
  { s with haw := { s.haw with colls := s.haw.colls.map fun c => if c.key = k then f c else c } }

/-- The collective a queue takes part in. -/
def State.collAt (s : State) (l : Loc) : Option Coll :=
  s.haw.colls.find? fun c => c.members.any fun m => m.loc? == some l

/-! ### Issue -/

/-- Blocks of a tile (R257). -/
def blockCount (o : Opnd) : Nat := ceilDiv o.desc.rows 128 * ceilDiv o.desc.cols 128

/-- The members X carries: its leaves, or one. -/
def collBatch (k : CollKind) (o : CollF) : Nat :=
  if k.reduces && o.src == 0 && decide (1 ≤ o.leaves) && decide (o.leaves ≤ 8192) then o.leaves else 1

def collNeeds (k : CollKind) (o : CollF) : List Need :=
  if k.hasTiles then
    [{ Need.tile o.x (collBatch k o) with mems := [1, 2] }, { Need.tile o.y 1 with mems := [1, 2] }]
  else []

/-- The key is held by an active instance: by a command of this brick, or of another list (0x1156, R488). -/
def State.keyBusy (s : State) (e : Env) (key : CollKey) : Bool :=
  match s.coll? key with
  | none => false
  | some c => c.members.any fun m =>
    match m.cmd with
    | some (d, _) => d.loc.brick == e.brick || (match s.ctx (ctxKey d.loc) with
        | some x => x.owner != e.l.owner
        | none => true)
    | none => false

/-- The checks of R501. -/
def collOwn (s : State) (e : Env) (k : CollKind) (o : CollF) (x y : Option Opnd) : List (Nat × Bool) :=
  let far := (x.toList ++ y.toList).any fun t => t.chip != 0
  let g := s.groupOf e o
  let solo := s.fuses.solitary
  [(0x1150, o.op != k.op || decide (1 < o.groupSrc) || (o.groupSrc == 1 && o.groupArg == 63) ||
      (k.reduces && o.leafSrc == 3) || (far && ! solo)),
   (0x1151, o.groupSrc == 1 && ! solo && g.chips.any fun c => c != 0 && ! s.haw.chips.contains c),
   (0x1152, solo && (far || (o.groupSrc == 1 && (chipField (e.c.argPair o.groupArg) != 0 || g.chips.any (· != 0))))),
   (0x1153, k.reduces && (decide (Config.maxLog2V < o.log2V) || o.leaves == 0 || decide (8192 < o.leaves) ||
      decide (2 ^ o.log2V < collLeaf e.c o + o.leaves))),
   (0x1154, o.groupSrc == 1 && ! g.ok),
   (0x1155, o.groupSrc == 1 && s.job e.c.part == 0),
   (0x1156, s.keyBusy e (collKey e o g)),
   (0x1157, k.hasTiles && o.src == 1 && ((k.reduces && o.leaves != 1) ||
      (match x with | some t => o.blocks != blockCount t | none => false)))]

/-- What a participant states (R489); a value that its operation does not use is 0. -/
def collShake (e : Env) (k : CollKind) (o : CollF) (g : Group) (x y : Option Opnd) : CollShake :=
  let d (t : Option Opnd) (f : TileDesc → Nat) : Nat := (t.map fun t => f t.desc).getD 0
  { op := k.code, redop := if k.reduces then o.redop else 0, log2V := if k.reduces then o.log2V else 0
    root := if k = .broadcast then o.root else 0, rows := d x (·.rows), cols := d x (·.cols), fmt := d x (·.fmt)
    yRows := d y (·.rows), yCols := d y (·.cols), yFmt := d y (·.fmt)
    leaf := if k.reduces then collLeaf e.c o else 0, leaves := if k.reduces then o.leaves else 0
    ranks := e.l.bricks.length, crc := g.crc }

/-- A handshake's data: its fields as 32-bit words in network byte order. -/
def CollShake.bytes (h : CollShake) : List Byte :=
  [h.op, h.redop, h.log2V, h.root, h.rows, h.cols, h.fmt, h.yRows, h.yCols, h.yFmt, h.leaf, h.leaves, h.ranks,
    h.crc].flatMap (beBytes 4)

def parseShake (b : List Byte) : CollShake :=
  let w (i : Nat) : Nat := beNat (sliceB b (4 * i) 4)
  { op := w 0, redop := w 1, log2V := w 2, root := w 3, rows := w 4, cols := w 5, fmt := w 6, yRows := w 7, yCols := w 8
    yFmt := w 9, leaf := w 10, leaves := w 11, ranks := w 12, crc := w 13 }

/-- A participant joins; the instance is opened when it is the first to. -/
def State.collJoin (s : State) (key : CollKey) (chips : List Nat) (rankwise : Bool) (m : CollMember) : State :=
  match s.coll? key with
  | some _ => s.modColl key fun c =>
      { c with chips := if chips = [] then c.chips else chips, rankwise := c.rankwise || rankwise
               members := c.members ++ [m], progress := s.now }
  | none => { s with haw := { s.haw with colls := s.haw.colls ++
      [{ key := key, chips := chips, rankwise := rankwise, members := [m], agreed := false, nodes := []
         progress := s.now }] } }

/-- C5b and the start of C6 of a collective: the command joins its instance and is held (R489, R490). -/
def collBody (k : CollKind) (c : Cmd) (o : CollF) (s : State) (e : Env) : Ran :=
  let x := e.site s
  let a := x.opt k.hasTiles (some o.x)
  let y := x.opt k.hasTiles (some o.y)
  .checked s (x.check (collNeeds k o) [] false (if k.hasTiles then [o.cvt] else []) (collOwn s e k o a y)) fun _ =>
    let g := s.groupOf e o
    let key := collKey e o g
    let others := g.chips.filter (· != s.haw.chip)
    if others.any fun ch => ! s.reachable ch then
      let s := forAll others (fun s ch => s.sendCtrl ch 0 fCollCtrl (s.job e.c.part) (ctrlOp 1 key 0x3021) []) s
      .fault s 0x3021 6 0 0xFFFFFFFF
    else
      let h := collShake e k o g a y
      let m : CollMember := { chip := s.haw.chip, rank := e.c.rank, shake := h, pred := some (e.c.preds.getD o.predIn false)
                              cmd := some (c, o), src := a, dst := y, given := false }
      let s := s.collJoin key g.chips g.rankwise m
      let s := forAll others (fun s ch =>
        s.sendCtrl ch 0 fCollCtrl (s.job e.c.part) (ctrlOp 0 key e.c.rank) h.bytes) s
      .held s (.coll (if k.hasTiles && o.src == 1 then o.blocks else 0) [])

/-! ### Faults of an instance -/

/-- A collective faults: the other chips are told, every local participant faults with its own record, and the list ends
with the first of them (R202, R490). -/
def State.collFault (s : State) (c : Coll) (code : Nat) : State :=
  let s := (s.sendAborts c code).dropColl c.key
  match c.members.filterMap (·.cmd) with
  | [] => s
  | (d, _) :: others =>
    let recs := others.filterMap fun p => (s.env p.1.loc).map fun e =>
      ErrRec.ofOwner s (cmdRec s e p.1 code 6 [] 0 0xFFFFFFFF) e.l.owner
    let s := match s.env d.loc with
      | some e => s.faultCmd e d code 6 [] 0 0xFFFFFFFF
      | none => s
    forAll recs (fun s r => s.raise { rec0 := r, unit := noUnit, row := 0, scope := .none }) s

/-! ### The handshake (R489) -/

/-- The participants of a chip, by rank. -/
def Coll.ofChip (c : Coll) (chip : Nat) : List CollMember :=
  (List.range 16).flatMap fun r => c.members.filter fun m => m.chip == chip && m.rank == r

/-- The participants in order (R487). -/
def Coll.order (c : Coll) : List CollMember := c.chips.flatMap c.ofChip

/-- Every participant has stated its handshake. -/
def Coll.arrived (c : Coll) : Bool :=
  c.chips != [] && c.chips.all fun ch =>
    let ms := c.ofChip ch
    if c.rankwise then ms != [] else ms != [] && ms.all fun m => m.shake.ranks == ms.length

/-- The leaf ranges cover 0 to V - 1 exactly once. -/
def coversOnce (v : Nat) (l : List (Nat × Nat)) : Bool :=
  (l.map (·.2)).sum == v && l.all (fun p => decide (p.1 + p.2 ≤ v)) &&
  l.all (fun p => p.2 == 0 || (l.filter fun q => decide (p.1 < q.1 + q.2) && decide (q.1 < p.1 + p.2)).length == 1)

/-- A handshake without what may differ between participants. -/
def CollShake.common (h : CollShake) : CollShake := { h with leaf := 0, leaves := 0, ranks := 0 }

/-- The shapes an operation requires among `n` participants. -/
def CollShake.shapesOk (h : CollShake) (n : Nat) : Bool :=
  if h.op = 0 then h.yRows == h.rows && h.yCols == h.cols
  else if h.op = 1 then h.rows % (32 * n) == 0 && h.yRows == h.rows / n && h.yCols == h.cols
  else if h.op = 8 then h.yRows == n * h.rows && h.yCols == h.cols
  else if h.op = 9 then h.yRows == h.rows && h.yCols == h.cols && decide (h.root < n)
  else true

/-- The handshake agrees. -/
def Coll.agrees (c : Coll) : Bool :=
  let ms := c.order
  match ms with
  | [] => false
  | m :: _ =>
    ms.all (fun d => d.shake.common == m.shake.common) && m.shake.shapesOk ms.length &&
    (decide (1 < m.shake.op) || coversOnce (2 ^ m.shake.log2V) (ms.map fun d => (d.shake.leaf, d.shake.leaves)))

/-! ### Data -/

/-- Rows cut into blocks of 128 × 128, in block order, each flat (R257). -/
def blocksOf (rows cols : Nat) (m : List (List Nat)) : List (List Nat) :=
  (List.range (ceilDiv rows 128)).flatMap fun br => (List.range (ceilDiv cols 128)).map fun bc =>
    (((m.drop (128 * br)).take 128).map fun r => (r.drop (128 * bc)).take 128).flatten

/-- A block cut into fragments of 2,048 values, 8,192 bytes each. -/
def fragsOf : Nat → List Nat → List (List Nat)
  | 0, _ => []
  | k + 1, l => if l.isEmpty then [] else l.take 2048 :: fragsOf k (l.drop 2048)

/-- The fragments of one leaf or source. -/
def nodesOf (index : Nat) (blocks : List (List Nat)) : List CollNode :=
  (blocks.zip (List.range blocks.length)).flatMap fun b =>
    let fs := fragsOf b.1.length b.1
    (fs.zip (List.range fs.length)).map fun f =>
      { level := 0, index := index, block := b.2, frag := f.2, data := f.1 }

/-- The blocks taken from a stream, put at their places and widened (R495). -/
def streamBlocks (x : Opnd) (taken : List CxBlock) : List (List Nat) :=
  let nbc := ceilDiv x.desc.cols 128
  (List.range (blockCount x)).map fun i =>
    match taken.find? fun b => b.brow * nbc + b.bcol == i with
    | some b => b.data.map (widen b.fmt)
    | none => []

/-- The place of a participant. -/
def Coll.placeOf (c : Coll) (m : CollMember) : Nat := c.order.findIdx fun d => d.chip == m.chip && d.rank == m.rank

/-- What a local participant puts in: its leaves, or its source under its own place. -/
def Coll.input (c : Coll) (x : Site) (m : CollMember) (a : Opnd) (taken : List CxBlock) (stream : Bool) : List CollNode :=
  let first := if m.shake.op ≤ 1 then m.shake.leaf else c.placeOf m
  if stream then nodesOf first (streamBlocks a taken)
  else
    (List.range (max 1 m.shake.leaves)).flatMap fun b =>
      nodesOf (first + b) (blocksOf a.desc.rows a.desc.cols (x.rows32 a b))

/-- Tree node and fragment words of a COLL_DATA frame: index [19:0], level [23:20], instance rank [31:24]; fragment
[2:0], block [31:3] (log entry 27). -/
def CollNode.head (n : CollNode) (k : CollKey) : List Byte :=
  beBytes 4 k.group ++ beBytes 4 k.tag ++ beBytes 4 (n.index + 2 ^ 20 * n.level + 2 ^ 24 * k.rank) ++
  beBytes 4 (8 * n.block + n.frag)

/-- A participant's data goes to every other chip. -/
def State.sendNodes (s : State) (c : Coll) (owner job : Nat) (ns : List CollNode) : State :=
  forAll (s.otherChips c) (fun s ch => forAll ns (fun s n =>
    s.sendSeq ch (n.block % 16) fCollData owner 0 job (n.head c.key) (n.data.flatMap (beBytes 4))) s) s

/-- A fragment of a node: as received, or formed from its two children (R493). -/
def fragAt (ns : List CollNode) (op : Nat → Nat → Nat) (block frag : Nat) : Nat → Nat → Option (List Nat)
  | 0, i => (ns.find? fun n => n.level == 0 && n.index == i && n.block == block && n.frag == frag).map (·.data)
  | j + 1, i =>
    match ns.find? fun n => n.level == j + 1 && n.index == i && n.block == block && n.frag == frag with
    | some n => some n.data
    | none =>
      match fragAt ns op block frag j (2 * i), fragAt ns op block frag j (2 * i + 1) with
      | some a, some b => some (List.zipWith op a b)
      | _, _ => none

/-- Height and width of a block. -/
def blockDims (rows cols i : Nat) : Nat × Nat :=
  let nbc := ceilDiv cols 128
  (min 128 (rows - 128 * (i / nbc)), min 128 (cols - 128 * (i % nbc)))

/-- A whole node as rows; none while a fragment is missing. -/
def nodeRows (ns : List CollNode) (op : Nat → Nat → Nat) (level index rows cols : Nat) : Option (List (List Nat)) :=
  let nbc := ceilDiv cols 128
  let blocks := (List.range (ceilDiv rows 128 * nbc)).map fun i =>
    let d := blockDims rows cols i
    ((List.range (ceilDiv (d.1 * d.2) 2048)).mapM fun f => fragAt ns op i f level index).map List.flatten
  (blocks.mapM id).map fun bs => (List.range rows).map fun r =>
    (List.range nbc).flatMap fun bc =>
      let w := (blockDims rows cols (r / 128 * nbc + bc)).2
      ((bs.getD (r / 128 * nbc + bc) []).drop (r % 128 * w)).take w

/-- The result at every participant before narrowing, in order; none while data is missing (R491). -/
def Coll.results (c : Coll) : Option (List (List (List Nat))) :=
  match c.order with
  | [] => none
  | m :: _ =>
    let h := m.shake
    let n := c.order.length
    if h.op ≤ 1 then
      (nodeRows c.nodes (if h.redop = 1 then fmax else fadd) h.log2V 0 h.rows h.cols).map fun root =>
        (List.range n).map fun p => if h.op = 0 then root else (root.drop (p * h.yRows)).take h.yRows
    else if h.op = 8 then
      ((List.range n).mapM fun q => nodeRows c.nodes fadd 0 q h.rows h.cols).map fun xs =>
        List.replicate n xs.flatten
    else if h.op = 9 then
      (nodeRows c.nodes fadd 0 h.root h.rows h.cols).map fun x => List.replicate n x
    else none

/-- The veto of every participant (R491). -/
def Coll.veto (c : Coll) : Option Bool := (c.order.mapM fun (m : CollMember) => m.pred).map fun l => l.any id

/-! ### An instance goes on -/

/-- A local participant's blocks from its stream, and its context. -/
def takenOf (e : Env) (l : Loc) : List CxBlock × Nat :=
  match (e.c.stream l.stream).busy with
  | .exec _ _ (.coll need taken) => (taken, need)
  | _ => ([], 0)

/-- A local participant puts its data in and sends it, once its stream has given every block. -/
def State.giveOne (s : State) (key : CollKey) (i : Nat) : State :=
  match s.coll? key with
  | none => s
  | some c =>
    match c.members[i]? with
    | none => s
    | some m =>
      match m.cmd with
      | none => s
      | some (d, o) =>
        match s.env d.loc with
        | none => s
        | some e =>
          let (taken, need) := takenOf e d.loc
          if m.given || decide (taken.length < need) then s
          else
            let mark (c : Coll) : Coll := { c with members := modAt c.members i fun m => { m with given := true } }
            match m.src with
            | none =>
              let s := forAll (s.otherChips c) (fun s ch => s.sendCtrl ch 0 fCollCtrl (s.job e.c.part)
                (ctrlOp (if m.pred = some true then 3 else 2) c.key m.rank) []) s
              s.modColl key mark
            | some a =>
              let stream := o.src == 1
              let x := e.site s
              let reads := if stream then [] else a.allReads (max 1 m.shake.leaves)
              match x.readsFault reads with
              | some (code, addr) => s.faultCmd e d code 6 [o.x, o.y] addr 0xFFFFFFFF
              | none =>
                let ns := c.input x m a taken stream
                let s := s.chargeReads e.c.part reads
                (s.sendNodes c e.l.owner (s.job e.c.part) ns).modColl key fun c =>
                  { mark c with nodes := c.nodes ++ ns, progress := s.now }

/-- A local participant writes its result and completes (R491). -/
def State.finishColl (s : State) (m : CollMember) (rows : List (List Nat)) (veto : Bool) : State :=
  match m.cmd with
  | none => s
  | some (d, o) =>
    match s.env d.loc with
    | none => s
    | some e =>
      match m.dst with
      | none =>
        let s := s.modCtx e.key (Ctx.setPred o.predOut veto)
        s.finish { e with c := (s.ctx e.key).getD e.c } d 6 [] d.last
      | some y =>
        let (ss, r) := memberStores y e.brick o.cvt 0 0 [rows] (e.c.rnd e.stream)
        let s := s.modCtx e.key (Ctx.withRnd r)
        match (e.site s).writesFault ss with
        | some (code, addr) => s.faultCmd e d code 6 [o.x, o.y] addr 0xFFFFFFFF
        | none => (s.commit e.c.part ss).finish { e with c := (s.ctx e.key).getD e.c } d 6 [o.x, o.y] d.last

/-- Every local participant completes. -/
def State.finishAll (s : State) (c : Coll) (res : List (List (List Nat))) (veto : Bool) : State :=
  let ms := c.order.zip (List.range c.order.length)
  forAll ms (fun s m => s.finishColl m.1 (res.getD m.2 []) veto) (s.dropColl c.key)

/-- An instance goes on as far as it can: handshake, data, result. -/
def State.pump (s : State) (key : CollKey) : State :=
  match s.coll? key with
  | none => s
  | some c =>
    if ! c.arrived then s
    else if ! c.agreed && ! c.agrees then s.collFault c 0x3023
    else
      let s := s.modColl key fun c => { c with agreed := true }
      let s := forAll (List.range c.members.length) (fun s i => s.giveOne key i) s
      match s.coll? key with
      | none => s
      | some c =>
        if (c.members.all fun m => m.cmd.isNone || m.given) then
          match c.veto, c.results with
          | some v, none => if (c.order.head?.map (·.shake.op)) = some 2 then s.finishAll c [] v else s
          | _, some res => s.finishAll c res false
          | none, none => s
        else s

/-- A block does not belong to the leaf: another member, another size or place, or a place taken before (R495). -/
def cxBad (x : Opnd) (taken : List CxBlock) (b : CxBlock) : Bool :=
  b.member != 0 || decide (x.desc.rows ≤ 128 * b.brow) || decide (x.desc.cols ≤ 128 * b.bcol) ||
  (b.rows, b.cols) != blockDims x.desc.rows x.desc.cols (b.brow * ceilDiv x.desc.cols 128 + b.bcol) ||
  taken.any fun t => t.brow == b.brow && t.bcol == b.bcol

/-- A collective that names the stream takes the blocks that wait, in arrival order, up to its count (R261, R495). -/
def State.takeBlocks (s : State) (l : Loc) : State :=
  match s.env l, s.collAt l with
  | some e, some c =>
    match (e.c.stream l.stream).busy, (c.members.find? fun m => m.loc? == some l).bind (·.src) with
    | .exec d regs (.coll need taken), some x =>
      let q := l.stream % 4
      let input := e.c.cxIn.getD q []
      let new := input.take (need - taken.length)
      let all := taken ++ new
      if (List.range new.length).any fun i => cxBad x (taken ++ new.take i) (new.getD i
          { member := 1, brow := 0, bcol := 0, rows := 0, cols := 0, fmt := 0, data := [] }) then
        s.faultCmd e d 0x1157 6 regs 0 0xFFFFFFFF
      else
        let s := s.modCtx e.key fun k =>
          let k := { k with cxIn := modAt k.cxIn q fun _ => input.drop new.length }
          k.modStream l.stream fun t => { t with busy := .exec d regs (.coll need all) }
        if new = [] then s else s.modList e.l.owner fun r => { r with lastActive := s.now }
    | _, _ => s
  | _, _ => s

/-- After a collective command or a block: take blocks, then go on. -/
def State.collGo (s : State) (l : Loc) : State :=
  let s := s.takeBlocks l
  match s.collAt l with
  | some c => s.pump c.key
  | none => s

/-- One collective command: only a CX queue takes it. -/
def collCommand (k : CollKind) (c : Cmd) (o : CollF) (s : State) : State :=
  (s.command c (fitsCmd c && fitsColl o) (· == 4) (fun _ => []) (if k.hasTiles then [o.x, o.y] else []) id
    (collBody k c o)).collGo c.loc

/-- ALL_REDUCE (R491). -/
def execAllReduce (c : Cmd) (o : CollF) (s : State) : Res := .next (collCommand .allReduce c o s)
/-- REDUCE_SCATTER (R491). -/
def execReduceScatter (c : Cmd) (o : CollF) (s : State) : Res := .next (collCommand .reduceScatter c o s)
/-- VETO_OR (R491, R509). -/
def execVetoOr (c : Cmd) (o : CollF) (s : State) : Res := .next (collCommand .vetoOr c o s)
/-- ALL_GATHER (R491). -/
def execAllGather (c : Cmd) (o : CollF) (s : State) : Res := .next (collCommand .allGather c o s)
/-- BROADCAST (R491). -/
def execBroadcast (c : Cmd) (o : CollF) (s : State) : Res := .next (collCommand .broadcast c o s)

/-- EPILOGUE_STREAM_HANDOFF: at a matrix queue, blocks held in E8 are handed over while the input has room (R260, R261); at
a CX queue, its collective takes the blocks that wait (R495). -/
def execEpilogueStreamHandoff (l : Loc) (s : State) : Res :=
  if ! s.awake then .next s
  else if engineOf l.stream = 4 then .next (s.collGo l)
  else .next (handOff l s)

/-- HAW_COLL_TIMEOUT in nanoseconds (R490). -/
def State.collLimit (s : State) : Nat := (s.reg 0x500004).toNat % 65536 * 1000000

/-- COLL_TIMEOUT: a collective has made no progress for HAW_COLL_TIMEOUT (R490). -/
def execCollTimeout (l : Loc) (s : State) : Res :=
  match s.collAt l with
  | some c => if s.awake && decide (c.progress + s.collLimit ≤ s.now) then .next (s.collFault c 0x3024) else .next s
  | none => .next s

end Sys2Proof.Machine
end

