-- ==== Sys2Proof/Machine/Wake.lean ====
section
/-! DEFINITION. What many events share: waking from IDLE and DOZE (R541, R543), the errors of retirable units with
their class details (R558, R565, R588). -/

namespace Sys2Proof.Machine

/-! ### Waking -/

/-- The power state changes; a transition is over. -/
def State.setPwr (s : State) (p : PwrSt) : State :=
  { s with wdn := { s.wdn with st := p, busy := false, waking := false, idleSince := s.now, dozeSince := s.now } }

/-- A brick after power comes back: every OB and AM granule never written (R204, R543). -/
def BrickS.fresh (_ : BrickS) : BrickS := BrickS.reset

/-- A brick is off for DOZE: not because it is retired, which isolates it (R584). -/
def State.dozing (s : State) (b : Nat) : Bool := ! (s.brick b).powered && s.unit (brickUnit b) != .retired

/-- The bricks once those that were off for DOZE have power again; `g` acts on the others. -/
def State.wakeBricks (s : State) (g : BrickS → BrickS) : List BrickS :=
  (List.range s.bricks.length).map fun b => if s.dozing b then (s.brick b).fresh else g (s.brick b)

/-- The return from DOZE to RUN (R543). -/
def State.leaveDoze (s : State) : State := { s.setPwr .run with bricks := s.wakeBricks id }

/-- A drain toward DOZE is called off. -/
def BrickS.undoze (b : BrickS) : BrickS := if b.drain = some .doze then { b with drain := none } else b

/-- An event that returns the device from IDLE or DOZE to RUN (R541, R543). While DOZE is being entered, it abandons the
entry, or, once a brick has powered down, follows it at once (15, "At the edges"). -/
def State.wakeUp (s : State) : State :=
  match s.wdn.st with
  | .idle =>
    if s.wdn.busy && (List.range 16).any s.dozing then { s with wdn := { s.wdn with waking := true } }
    else { s.setPwr .run with bricks := s.bricks.map BrickS.undoze }
  | .doze => s.leaveDoze
  | _ => s

/-- Rings, engines and links take part: the device is up, has set READY, and is not in WARDEN or OFF. -/
def State.online (s : State) : Bool :=
  s.phase == .up && s.boot.ready && (s.wdn.st == .run || s.wdn.st == .idle || s.wdn.st == .doze)

/-! ### Errors of retirable units -/

/-- The code of a failed self-test or probation (R556). -/
def failCode (kind : Nat) : Nat :=
  if kind = 1 then 0x1066 else if kind = 6 then 0x3013 else if kind = 7 then 0x4034 else 0x2037

/-- The code of a readmission (R556, R590). -/
def backCode (kind : Nat) : Nat :=
  if kind = 1 then 0x1065 else if kind = 6 then 0x3012 else if kind = 7 then 0x4033 else 0x2036

/-- The readmission in progress stands in U1 to U4 (R587). -/
def Readmit.early (r : Readmit) : Bool :=
  match r.step with
  | .handOver _ => false
  | _ => true

/-- A readmission fails: the unit returns to RETIRED, its failure code is raised (R588). -/
def State.readmitFails (s : State) (u : UnitKey) : State :=
  let s := (s.setUnit u .retired)
  let s := { s with repair := { s.repair with readmit := none } }
  let s := if u.kind = 6 then s.modPort u.index fun p => { p with state := .retired } else s
  s.raise1 (failCode u.kind) 0 u 0

/-- An error event of a retirable unit: its bucket, its record, and the readmission it may fail (R557, R588). -/
def State.unitErr (s : State) (u : UnitKey) (w part : Nat) (r : ErrRec) : State :=
  let s := s.raiseW u w part r .none
  match s.repair.readmit with
  | some m => if m.unit = u ∧ m.early = true then s.readmitFails u else s
  | none => s

/-- A link-class record (R565): port, chip, connection, PSN, attempts, PCIe completion status. -/
def linkRec (now code sev : Nat) (u : UnitKey) (part port chip lane psn attempts status : Nat) : ErrRec :=
  { ErrRec.mk0 now code sev (dieOf u) u part with
    detail := detailOf [(1, port), (2, chip), (1, lane), (4, psn), (1, attempts), (1, status)] }

/-- An error of a Hawser port (R558). -/
def State.portErr (s : State) (p code sev w chip lane psn attempts : Nat) : State :=
  s.unitErr (hawUnit p) w 0 (linkRec s.now code sev (hawUnit p) 0 p chip lane psn attempts 0)

end Sys2Proof.Machine
end

