-- ==== Sys2Proof/Machine/Hawser.lean ====
section
/-! DEFINITION. The Hawser dies: ports and their bring-up, received frames, retry and retransmission, pauses, planes
(R463 to R498). -/

namespace Sys2Proof.Machine

/-! ### Commands that go on after remote accesses -/

/-- C5b and C6 of a command that may name another chip, run again once what it read is back. -/
def instrBody (i : Instr) (s : State) (e : Env) : Ran :=
  match i with
  | .copy c o => copyBody c o s e
  | .matmul c o => matBody i c 0 o s e
  | .matmulAcc c o => matBody i c 1 o s e
  | .matmulGated c o => matBody i c 2 o s e
  | .act c o => actBody c o s e
  | .normRow c o => normBody c o s e
  | .softmaxRow c o => softBody c o s e
  | .attnBlock c o => attnBody c o s e
  | .gatherPages c o => gatherBody c o s e
  | .scatterWrite c o => writeBody c o s e
  | .conv2d c o => convBody c o s e
  | .pool2d c o => poolBody c o s e
  | .resample c o => resampBody c o s e
  | .rngFill c o => rngBody c o s e
  | .amax c o => reduceBody i c o amaxOf fmax s e
  | .sumsq c o => reduceBody i c o sumsqOf fadd s e
  | .push c o => pushBody c o s e
  | .clip c o => clipBody c o s e
  | .product c o => productBody c o s e
  | .nonfiniteVote c o => voteBody c o s e
  | _ => .done s

/-- Every answer a command waited for is here: it reads on, or its stores are acknowledged and it completes (R181,
R483). -/
def State.remoteDone (s : State) (r : RemoteOp) : State :=
  if r.writing then
    (s.dropRemote r.cmd.loc).resume r.cmd.loc fun s _ _ h =>
      match h with
      | .remote spl pins => some (.done (s.unpinAll spl pins))
      | _ => none
  else
    s.resume r.cmd.loc fun s e _ h =>
      match h with
      | .remote _ _ => some (instrBody r.instr s { e with c := { e.c with tiles := r.tiles } })
      | _ => none

def State.answered (s : State) (tag : Nat) (data : List Byte) : State :=
  match s.answer tag data with
  | (s, some r) => s.remoteDone r
  | (s, none) => s

/-! ### Acknowledgements and resends (R476, R477) -/

/-- The frames up to a PSN, and those after it; none when no frame carries it. -/
def splitPsn (psn : Nat) : List TxFrame → Option (List TxFrame × List TxFrame)
  | [] => none
  | f :: fs => if f.psn = psn then some ([f], fs) else (splitPsn psn fs).map fun p => (f :: p.1, p.2)

/-- Frames of a connection are acknowledged up to a PSN: their stores are visible at their destination (R483). -/
def State.ackUpTo (s : State) (chip lane psn : Nat) : State :=
  let c := s.conn chip lane
  match splitPsn psn c.unacked with
  | none => s
  | some (done, rest) =>
    let s := (s.setConn { c with unacked := rest }).modPort c.plane fun p => { p with replayCount := 0 }
    forAll (done.filter fun f => f.type == fWrite) (fun s f => s.answered f.tag []) s

/-- Every unacknowledged frame of a connection is resent, on its plane in service (R476, R496). `k` is added to the
attempts. A paused priority holds them. -/
def State.resend (s : State) (chip lane k : Nat) : State :=
  let c := s.conn chip lane
  match s.connPlane c with
  | none => s
  | some p =>
    let paused := (s.port p).paused.contains (s.binding p).prioData
    let fs := c.unacked.map fun f => { f with attempts := if paused then 0 else f.attempts + k }
    let s := s.setConn { c with plane := p, unacked := fs }
    if paused then s
    else forAll fs (fun s f => s.xmit1 true p chip lane f.type f.psn f.job f.op f.data) s

/-- An acknowledgement of what has come in order on a connection (R476). -/
def State.sendAck (s : State) (chip lane : Nat) : State :=
  let c := s.conn chip lane
  (s.setConn { c with rxOwed := 0 }).sendCtrl chip lane fAck 0 (beBytes 4 c.ackPsn ++ List.replicate 12 0) []

/-- The operation header of a NAK: kind (0 expected PSN, 1 refusal, 2 link-level), code, PSN or tag (log entry 27). -/
def nakOp (kind code v : Nat) : List Byte :=
  beBytes 1 kind ++ beBytes 1 0 ++ beBytes 2 code ++ beBytes 4 v ++ List.replicate 8 0

def State.refuse (s : State) (h : HawFrame) (code tag : Nat) : State :=
  s.sendCtrl h.src h.lane fNak 0 (nakOp 1 code tag) []

/-! ### Planes (R485, R492, R496) -/

/-- The operation header of a PORT_STATE: plane, in service (log entry 27). -/
def portStateOp (plane : Nat) (up : Bool) : List Byte := beBytes 1 plane ++ beBytes 1 (b2n up) ++ List.replicate 14 0

/-- The other chips of the record. -/
def State.peers (s : State) : List Nat := s.haw.chips.filter (· != s.haw.chip)

/-- L4: a port is announced in service, through itself (R472). -/
def State.tellUp (s : State) (p : Nat) : State :=
  forAll s.peers (fun s c => s.xmit p c p fPortState 0 0 (portStateOp p true) []) s

/-- A port is announced out of service on every remaining plane (R496). -/
def State.tellDown (s : State) (p : Nat) : State :=
  forAll ((List.range 16).filter fun q => s.portUp q) (fun s q =>
    forAll s.peers (fun s c => s.xmit q c q fPortState 0 0 (portStateOp p false) []) s) s

/-- A collective that needs a chip no plane reaches any more faults on every reachable participant (R485). -/
def State.cutColls (s : State) : State :=
  forAll (s.haw.colls.filter fun c => (s.otherChips c).any fun ch => ! s.reachable ch) (fun s c => s.collFault c 0x3021) s

/-- A port leaves service in a state: the other chips hear of it and its connections move (R492). `now` says whether
their frames are resent at once (R496) or left to their timers (R475). -/
def State.portOut (s : State) (p : Nat) (st : PortSt) (resend : Bool) : State :=
  let up := s.portUp p
  let s := s.modPort p fun q => { q with state := st, replayCount := 0 }
  if ! up then s
  else
    let s := s.tellDown p
    let cs := if resend then s.haw.conns.filter fun c => c.plane == p && c.unacked != [] else []
    (forAll cs (fun s c => s.resend c.chip c.lane 0) s).cutColls

/-- A port's binding is proved: UP and announced, or into probation with its probes (R472, R497). -/
def State.bound (s : State) (p : Nat) : State :=
  match s.repair.readmit with
  | some { unit := u, step := .linkUp } =>
    if u = hawUnit p then
      let s := s.modPort p fun q => { q with state := .probation, probed := [] }
      let s := { s with repair := { s.repair with
                  readmit := some { unit := u, step := .probation (s.now + 60000000000) } } }
      forAll (s.peers.filter fun c => (s.planesOf c).contains p)
        (fun s c => s.xmit p c p fProbe 0 0 (List.replicate 16 0) []) s
    else (s.modPort p fun q => { q with state := .up }).tellUp p
  | _ => (s.modPort p fun q => { q with state := .up }).tellUp p

/-- A binding mismatch, or none within the bound: HELD with 0x3002, or the end of a readmission (R472, R588). -/
def State.unbound (s : State) (p : Nat) : State :=
  if s.unit (hawUnit p) = .readmitting then s.readmitFails (hawUnit p)
  else if (s.port p).state = .held then s
  else
    let s := s.modPort p fun q => { q with state := .held }
    s.raise { rec0 := linkRec s.now 0x3002 2 (hawUnit p) 0 p 0 0 0 0 0, unit := noUnit, row := 0, scope := .none }

/-! ### Bring-up -/

/-- A port that may start does: its binding is used, its CTRL bit is set, the record is valid (R469, R472). -/
def State.startPort (s : State) (p : Nat) : State :=
  if s.online && s.haw.instState == 0 && ! s.fuses.solitary && bit (s.regN (0x500100 + 0x40 * p)) 0 &&
      (s.binding p).used == 1 && (s.port p).state == .down && s.unit (hawUnit p) == .inService then
    s.modPort p fun q => { q with state := .training }
  else s

/-- LINK_TRAINED: L1 is complete (R472). -/
def execLinkTrained (p : Nat) (s : State) : Res :=
  if s.online && (s.port p).state == .training && ! s.pins.lostClks.contains RefClk.link then
    .next (s.modPort p fun q => { q with state := .binding, bindAt := s.now, replayCount := 0 })
  else .next s

/-- LLDP_SEND: a port whose link is up sends its LLDPDU (R472). -/
def execLldpSend (p : Nat) (s : State) : Res :=
  let st := (s.port p).state
  if s.online && (st == .binding || st == .held || st == .up || st == .probation) then .next (s.emit (.lldp p)) else .next s

/-- LLDP_RECEIVED: L2, then L3 with the secret held and L4 (R472, R478). -/
def execLldpReceived (p mac partnerPort : Nat) (retry : Bool) (s : State) : Res :=
  let st := (s.port p).state
  if s.online && (st == .binding || st == .held) then
    let b := s.binding p
    if b.mac = mac ∧ b.partnerPort = partnerPort then
      let s := s.modPort p fun q => { q with retry := retry, bindAt := s.now }
      if s.haw.secrets = [] then .next s else .next (s.bound p)
    else .next (s.unbound p)
  else .next s

/-- BINDING_TIMEOUT: no partner LLDPDU for 35 s (R472). -/
def execBindingTimeout (p : Nat) (s : State) : Res :=
  if s.online && (s.port p).state == .binding && decide ((s.port p).bindAt + 35000000000 ≤ s.now) then
    .next (s.unbound p)
  else .next s

/-- HAWSER_LINK_LOST: 0x3001, and L1 begins again (R472, R558). -/
def execHawserLinkLost (p : Nat) (s : State) : Res :=
  let st := (s.port p).state
  if s.online && (st == .binding || st == .held || st == .up || st == .probation) then
    .next ((s.portOut p .training false).portErr p 0x3001 2 16 0 0 0 0)
  else .next s

/-! ### Receiving -/

/-- A port takes frames: it is UP, or in PROBATION. -/
def State.takes (s : State) (p : Nat) : Bool := s.portUp p || (s.port p).state == .probation

/-- A frame authenticates under a secret this chip holds (R479, R615). -/
def State.authentic (s : State) (h : HawFrame) : Bool := h.authOk && s.haw.secrets.any fun k => k.gen % 2 == h.keyId % 2

/-- Every received frame: authenticated, or dropped and counted (R479); its ACK_PSN acknowledges (R474). -/
def State.receive (s : State) (h : HawFrame) (k : State → State) : State :=
  if ! s.online || ! s.takes h.port then s
  else if ! s.authentic h then
    (s.modPort h.port fun p => { p with authFail := sat32 (p.authFail + 1) }).portErr h.port 0x3006 0 1 h.src h.lane 0 0
  else k (s.ackUpTo h.src h.lane h.ackPsn)

/-- A sequenced frame: the expected PSN is taken and owed an acknowledgement, any other is dropped and answered with the
expected one (R476). -/
def State.inOrder (s : State) (h : HawFrame) (k : State → State) : State :=
  let c := s.conn h.src h.lane
  if h.psn = c.rxNext then
    let s := k (s.setConn { c with rxNext := (c.rxNext + 1) % 2 ^ 32, rxOwed := c.rxOwed + 1
                                   rxSince := if c.rxOwed = 0 then s.now else c.rxSince })
    if 32 ≤ (s.conn h.src h.lane).rxOwed then s.sendAck h.src h.lane else s
  else s.sendCtrl h.src h.lane fNak 0 (nakOp 0 0 c.rxNext) []

/-- The partition that runs a job (R482). -/
def State.jobPart (s : State) (job : Nat) : Option Nat :=
  (List.range 16).find? fun n => (s.part n).allocated && s.job n == job && job != 0

/-- A remote access is refused: no partition runs the job, its extent leaves the range, a reset of the partition is in
progress, or its windows deny it (R380, R482, R612). -/
def State.denies (s : State) (part a n : Nat) : Bool :=
  let r := s.range part
  ! (decide (r.1 ≤ a) && decide (a + n ≤ r.2)) || (s.part part).resetting ||
  (decide (0 < n) && (s.accessFault part a n).isSome)

/-- The access two windows match, a fault of the device (R381). -/
def State.check2011 (s : State) (a n : Nat) : State :=
  if 0 < n ∧ s.twoWindows a n = true then s.raise1 0x2011 4 noUnit 0 else s

/-- WRITE: stored, or refused with a NAK (R482, R483). -/
def serveWrite (h : HawFrame) (s : State) : State :=
  let off := beNat (sliceB h.op 0 8)
  let tag := beNat (sliceB h.op 8 4)
  match s.jobPart h.job with
  | none => s.refuse h 0x3020 tag
  | some n =>
    if s.denies n off h.data.length then (s.refuse h 0x3020 tag).check2011 off h.data.length
    else
      let s := s.storeDev off h.data
      if h.data = [] then s else s.charge n h.data.length

def execWrite (h : HawFrame) (s : State) : Res :=
  .next (s.receive h fun s => s.wakeUp.inOrder h (serveWrite h))

/-- READ_REQ: answered with READ_RESP, or refused (R482, R483). A poisoned location moves no data. -/
def serveRead (h : HawFrame) (s : State) : State :=
  let off := beNat (sliceB h.op 0 8)
  let tag := beNat (sliceB h.op 8 4)
  let len := min 8192 (beNat (sliceB h.op 12 4))
  match s.jobPart h.job with
  | none => s.refuse h 0x3020 tag
  | some n =>
    if s.denies n off len then (s.refuse h 0x3020 tag).check2011 off len
    else if s.mem.poisoned off len then s.refuse h 0x2003 tag
    else
      let s := if len = 0 then s else s.charge n len
      s.sendSeq h.src h.lane fReadResp 0 0 (s.job n) (opHead off tag len) (s.mem.read off len)

def execReadReq (h : HawFrame) (s : State) : Res :=
  .next (s.receive h fun s => s.wakeUp.inOrder h (serveRead h))

/-- READ_RESP: data for a command of this chip (R480). -/
def execReadResp (h : HawFrame) (s : State) : Res :=
  .next (s.receive h fun s => s.inOrder h fun s => s.answered (beNat (sliceB h.op 8 4)) h.data)

/-- The key a collective frame names; the instance of a group always has list 0 (R488). -/
def frameKey (op : List Byte) (rank : Nat) : CollKey :=
  { group := beNat (sliceB op 0 4), tag := beNat (sliceB op 4 4), rank := rank, list := 0 }

/-- A fragment of a node, as it arrives. -/
def frameNode (h : HawFrame) : CollNode :=
  let w := beNat (sliceB h.op 8 4)
  let f := beNat (sliceB h.op 12 4)
  { level := bits w 23 20, index := bits w 19 0, block := f / 8, frag := f % 8
    data := (List.range (h.data.length / 4)).map fun i => beNat (sliceB h.data (4 * i) 4) }

/-- COLL_DATA: a fragment goes into its instance, which then goes on (R493). -/
def serveCollData (h : HawFrame) (s : State) : State :=
  let key := frameKey h.op (bits (beNat (sliceB h.op 8 4)) 31 24)
  match s.coll? key with
  | none => s
  | some _ =>
    (s.modColl key fun c => { c with nodes := c.nodes ++ [frameNode h], progress := s.now }).pump key

def execCollData (h : HawFrame) (s : State) : Res :=
  .next (s.receive h fun s => s.wakeUp.inOrder h (serveCollData h))

/-- An abort arrives: every local participant faults with the code it carries, 0x3025 unless it is one that every
participant faults with (R485, R489, R490). -/
def State.collAborted (s : State) (c : Coll) (code : Nat) : State :=
  let code := if code = 0x3021 ∨ code = 0x3023 ∨ code = 0x3024 then code else 0x3025
  ({ c with chips := [] } : Coll) |> fun c => s.collFault c code

/-- COLL_CTRL: a handshake, an abort, or a veto bit (R489 to R491). -/
def serveCollCtrl (h : HawFrame) (s : State) : State :=
  let kind := beNat (sliceB h.op 0 1)
  let v := beNat (sliceB h.op 2 2)
  let key := frameKey (h.op.drop 4) (beNat (sliceB h.op 12 4))
  if kind = 0 then
    let known := match s.coll? key with
      | some c => c.members.any fun m => m.chip == h.src && m.rank == v
      | none => false
    if known then s
    else
      let m : CollMember := { chip := h.src, rank := v, shake := parseShake h.data, pred := none, cmd := none, src := none
                              dst := none, given := false }
      (s.collJoin key [] false m).pump key
  else if kind = 1 then
    match s.coll? key with
    | some c => s.collAborted c v
    | none => s
  else if kind = 2 ∨ kind = 3 then
    (s.modColl key fun c =>
      { c with progress := s.now
               members := c.members.map fun m =>
                 if m.chip = h.src ∧ m.rank = v then { m with pred := some (kind == 3) } else m }).pump key
  else s

def execCollCtrl (h : HawFrame) (s : State) : Res :=
  .next (s.receive h fun s => serveCollCtrl h s.wakeUp)

/-- ACK: what its ACK_PSN acknowledges (R476). -/
def execAck (h : HawFrame) (s : State) : Res := .next (s.receive h id)

/-- A link-level replay, or, after eight of one frame, the retraining of the port with 0x3004 (R475). -/
def State.replay (s : State) (p : Nat) : State :=
  if ! (s.port p).retry then s
  else if 8 ≤ (s.port p).replayCount then (s.portOut p .training false).portErr p 0x3004 0 4 0 0 0 8
  else s.modPort p fun q => { q with replayCount := q.replayCount + 1, replays := sat64 (q.replays + 1) }

/-- NAK: the sender resends from the expected PSN, the command whose access was refused faults, or the link replays
(R475, R476, R482). -/
def serveNak (h : HawFrame) (s : State) : State :=
  let kind := beNat (sliceB h.op 0 1)
  let code := beNat (sliceB h.op 2 2)
  let v := beNat (sliceB h.op 4 4)
  if kind = 0 then
    let s := s.ackUpTo h.src h.lane ((v + (2 ^ 32 - 1)) % 2 ^ 32)
    if (s.conn h.src h.lane).unacked.any fun f => f.psn == v then s.resend h.src h.lane 1 else s
  else if kind = 1 then s.remoteFault v (if code = 0x2003 then 0x2003 else 0x3020)
  else if kind = 2 then s.replay h.port
  else s

/-- A NAK: a refusal takes effect before the acknowledgement its frame carries. -/
def execNak (h : HawFrame) (s : State) : Res :=
  .next (s.receive { h with ackPsn := 2 ^ 32 } fun s => (serveNak h s).ackUpTo h.src h.lane h.ackPsn)

/-- PROBE: answered; an answer counts for the port in probation (R497). -/
def serveProbe (h : HawFrame) (s : State) : State :=
  if beNat (sliceB h.op 0 1) = 0 then
    s.xmit h.port h.src h.lane fProbe 0 0 (beBytes 1 1 ++ List.replicate 15 0) []
  else s.modPort h.port fun p => { p with probed := setIns h.src p.probed }

def execProbe (h : HawFrame) (s : State) : Res := .next (s.receive h (serveProbe h))

/-- PORT_STATE: the planes in service at the sender (R492); its connections on a lost plane move (R496). -/
def servePortState (h : HawFrame) (s : State) : State :=
  let plane := beNat (sliceB h.op 0 1)
  let up := beNat (sliceB h.op 1 1) == 1
  let ps := s.planesOf h.src
  let s := { s with haw := { s.haw with
              planes := mapSet [] h.src (if up then setIns plane ps else setDel plane ps) s.haw.planes } }
  if up then s
  else
    let cs := s.haw.conns.filter fun c => c.chip == h.src && c.plane == plane && c.unacked != []
    (forAll cs (fun s c => s.resend c.chip c.lane 0) s).cutColls

def execPortState (h : HawFrame) (s : State) : Res := .next (s.receive h (servePortState h))

/-- HAWSER_RESERVED_FRAME: a frame of a reserved type is dropped and counted (R474). -/
def execHawserReservedFrame (p type : Nat) (s : State) : Res :=
  if s.online && s.takes p && (type == 0 || (decide (10 ≤ type) && decide (type ≤ 15))) then
    .next { s with haw := { s.haw with reserved := s.haw.reserved + 1 } }
  else .next s

/-! ### Pauses and timers -/

/-- What a priority's pause held back leaves (R471). -/
def State.unpause (s : State) (p prio : Nat) : State :=
  let b := s.binding p
  let s :=
    if prio = b.prioCtrl then
      let hs := (s.port p).held
      forAll hs (fun s f => s.xmit p f.chip f.lane f.type 0 f.job f.op f.data) (s.modPort p fun q => { q with held := [] })
    else s
  if prio = b.prioData then
    forAll (s.haw.conns.filter fun c => c.plane == p && c.unacked.any fun f => f.attempts == 0) (fun s c =>
      let fs := c.unacked.filter fun f => f.attempts == 0
      let s := s.setConn { c with unacked := (c.unacked.map fun f => { f with attempts := max 1 f.attempts }) }
      forAll fs (fun s f => s.xmit p c.chip c.lane f.type f.psn f.job f.op f.data) s) s
  else s

/-- PFC_PAUSE: a pause, or its release, for one priority (R471). -/
def execPfcPause (p prio : Nat) (on : Bool) (s : State) : Res :=
  if ! s.online then .next s
  else if on then .next (s.modPort p fun q => { q with paused := setIns prio q.paused })
  else .next ((s.modPort p fun q => { q with paused := setDel prio q.paused }).unpause p prio)

/-- ACK_TIMER: the receiver acknowledges what it owes (R476). -/
def execAckTimer (chip lane : Nat) (s : State) : Res :=
  if s.online && decide (0 < (s.conn chip lane).rxOwed) then .next (s.sendAck chip lane) else .next s

/-- REPLAY_TIMER: no link-level acknowledgement within 4 us (R475). -/
def execReplayTimer (p : Nat) (s : State) : Res :=
  if s.online && s.takes p then .next (s.replay p) else .next s

/-- A frame that will not be acknowledged faults the command that sent it (R477). -/
def State.lostFrame (s : State) (f : TxFrame) : State :=
  if f.type = fWrite ∨ f.type = fReadReq then s.remoteFault f.tag 0x3010
  else if f.type = fCollData then
    match s.coll? (frameKey f.op (bits (beNat (sliceB f.op 8 4)) 31 24)) with
    | none => s
    | some c =>
      match c.members.findSome? fun m => m.cmd with
      | none => s
      | some (d, _) =>
        match s.env d.loc with
        | some e => s.faultCmd e d 0x3010 6 [] 0 0xFFFFFFFF
        | none => s
  else s

/-- RETRANSMIT_TIMER: a resend with one more attempt, or, after the eighth, the reset of the connection (R477). -/
def execRetransmitTimer (chip lane : Nat) (s : State) : Res :=
  let c := s.conn chip lane
  match c.unacked with
  | [] => .next s
  | f :: _ =>
    if ! s.online || f.attempts == 0 then .next s
    else if f.attempts < 8 then .next (s.resend chip lane 1)
    else .next (forAll c.unacked State.lostFrame (s.setConn { c with txPsn := 0, unacked := [] }))

/-- HAWSER_FCS_FAILURE: uncorrectable codewords count in the bucket (0x3005); under link-level retry the receiver NAKs the
frame (R475, R558). -/
def execHawserFcsFailure (p : Nat) (fec : Bool) (s : State) : Res :=
  if s.online && s.takes p then
    let s := if fec then s.portErr p 0x3005 0 1 0 0 0 0 else s
    .next (if (s.port p).retry then s.xmit p 0 0 fNak 0 0 (nakOp 2 0 0) [] else s)
  else .next s

end Sys2Proof.Machine
end

