-- ==== Sys2Proof/Machine/Memory.lean ====
section
/-! DEFINITION. Memory errors and their buckets, scrubbing, row repair, migration, the Mortar cache's slices and node moves,
regulators (R359 to R407, R558 to R560, R646, R647). -/

namespace Sys2Proof.Machine

/-! ### Records -/

/-- A memory-class record (R565): stack, pseudo-channel, slice, way, local address, symbols, row. -/
def memRec (now code sev : Nat) (u : UnitKey) (part addr pc slice way loc symbols row retries : Nat) : ErrRec :=
  { ErrRec.mk0 now code sev (dieOf u) u part with
    addr := addr, retries := retries
    detail := detailOf [(1, pc / 64), (1, pc % 64), (1, slice), (1, way), (8, loc), (4, symbols), (4, row)] }

/-- The partition whose ring a memory error's record goes to: the owner of the range, else partition 0. -/
def State.recPart (s : State) (d : Nat) : Nat := (s.rangeOwner d).getD 0

/-! ### HBM errors: row and pseudo-channel (R558, R560) -/

/-- A row's bank has a spare row left: all banks have, or none has, or the part decides (R362, R368). -/
def State.bankHasSpare (s : State) (pc : Nat) : Bool :=
  let p := mapRd (s.mortar.spareAll, s.mortar.spareMin) pc s.mortar.spare
  decide (0 < p.1) && (decide (0 < p.2) || Config.bankSpare s.free)

/-- An HBM error adds to the buckets of its row and its pseudo-channel. At the pseudo-channel's threshold, or at the row's
without a spare row, the pseudo-channel is at fault; at the row's alone, the row (R558, R560). -/
def State.hbmErr (s : State) (pc row wr wp : Nat) (r : ErrRec) : State :=
  let u := pcUnit pc
  let c0 := s.rowCount pc row
  let s := s.rowSet pc row (c0 + wr)
  let rowPerm := decide (c0 < 8) && decide (8 ≤ c0 + wr)
  let pcPerm := s.unit u == .inService && decide (s.bucketCount u < 256) && decide (256 ≤ s.bucketCount u + wp)
  if ! rowPerm || pcPerm then s.unitErr u wp r.part r
  else
    let counts := s.unit u == .inService || s.unit u == .retiring
    let s := if counts then s.bucketAdd u wp else s
    if s.restricted then
      s.raise { rec0 := { r with kind := 4, bucket := c0 + wr, threshold := 8, permanent := true, severity := 4 }
                unit := rowUnit pc, row := row, scope := .none }
    else
      let spare := s.bankHasSpare pc
      let s := s.drew 1
      if spare then
        s.raise { rec0 := { r with kind := 4, bucket := c0 + wr, threshold := 8, permanent := true }
                  unit := rowUnit pc, row := row, scope := .none }
      else
        s.raise { rec0 := { r with bucket := s.bucketCount u, threshold := 256, permanent := true }
                  unit := u, row := row, scope := .none }

/-- A location of device space is marked poisoned (R366). -/
def State.poisonDev (s : State) (a : Nat) : State := { s with mem := s.mem.poisonAt (a / 64) }

/-- The record of an error at a device-space address. -/
def State.hbmRec (s : State) (code sev addr row symbols retries : Nat) : ErrRec :=
  memRec s.now code sev (pcUnit (pcOf addr)) (s.recPart addr) addr (pcOf addr) 0 0 (localOf addr) symbols row retries

/-- The record of an error in a cache line. -/
def State.wayRec (s : State) (code sev : Nat) (e : EccSite) (retries : Nat) : ErrRec :=
  memRec s.now code sev (wayUnit e.slice e.way) (s.recPart e.addr) e.addr (pcOf e.addr) e.slice e.way (localOf e.addr)
    e.symbols 0 retries

/-- An error site that exists: backed space, a slice and way that exist. -/
def siteOk (e : EccSite) : Bool := decide (e.addr < Config.deviceEnd) && decide (e.slice < 8) && decide (e.way < 16)

/-- Memory and cache serve traffic. -/
def State.memoryOn (s : State) : Bool :=
  s.phase == .up && (s.wdn.st == .run || s.wdn.st == .idle || s.wdn.st == .doze)

/-- ECC_CORRECTED (R365). -/
def execEccCorrected (e : EccSite) (s : State) : Res :=
  if ! s.memoryOn || ! siteOk e then .next s
  else if e.inCache then
    .next (s.unitErr (wayUnit e.slice e.way) 1 (s.recPart e.addr) (s.wayRec 0x2001 0 e 0))
  else .next (s.hbmErr (pcOf e.addr) e.row 1 1 (s.hbmRec 0x2001 0 e.addr e.row e.symbols 0))

/-- ECC_UNCORRECTABLE: the re-read, or the refetch of a clean line, makes it good, or the location is poisoned (R366,
R558, R559). -/
def execEccUncorrectable (e : EccSite) (retryOk : Bool) (s : State) : Res :=
  if ! s.memoryOn || ! siteOk e then .next s
  else if e.inCache then
    if retryOk || ! (e.dirty || e.pinned) then
      .next (s.unitErr (wayUnit e.slice e.way) 8 (s.recPart e.addr) (s.wayRec 0x2001 0 e 1))
    else .next ((s.poisonDev e.addr).unitErr (wayUnit e.slice e.way) 8 (s.recPart e.addr) (s.wayRec 0x2002 1 e 1))
  else if retryOk then .next (s.hbmErr (pcOf e.addr) e.row 8 4 (s.hbmRec 0x2001 0 e.addr e.row e.symbols 1))
  else .next ((s.poisonDev e.addr).hbmErr (pcOf e.addr) e.row 8 4 (s.hbmRec 0x2002 1 e.addr e.row e.symbols 1))

/-- TAG_COPY_ERROR (R647). -/
def execTagCopyError (slice : Nat) (both : Bool) (s : State) : Res :=
  if ! s.memoryOn || decide (8 ≤ slice) then .next s
  else
    let u := sliceUnit slice
    if both then .next (s.raise1 0x2038 4 u 0)
    else .next (s.unitErr u 16 0 (memRec s.now 0x2035 0 u 0 0 0 slice 0 0 0 0 0))

/-- OB_AM_ECC_ERROR (R646). -/
def execObAmEccError (brick : Nat) (am corrected : Bool) (addr : Nat) (s : State) : Res :=
  if ! s.memoryOn || decide (16 ≤ brick) || ! (s.brick brick).powered ||
      decide ((if am then Config.amBytes else Config.obBytes) ≤ addr) then .next s
  else
    let u := brickUnit brick
    let part := (s.brickOwner brick).getD 0
    let r (code sev : Nat) : ErrRec := { ErrRec.mk0 s.now code sev brick u part with addr := addr }
    if corrected then .next (s.unitErr u 1 part (r 0x2050 0))
    else
      let s := s.modBrick brick fun b =>
        if am then { b with am := b.am.poisonAt (addr / 64) } else { b with ob := b.ob.poisonAt (addr / 64) }
      .next (s.unitErr u 8 part (r 0x2051 1))

/-- ENGINE_ERROR: the block is recomputed from the same operands (R229); a recompute that fails ends the list (R559,
R553). -/
def execEngineError (brick : Nat) (recomputeOk : Bool) (l : Loc) (s : State) : Res :=
  if ! s.memoryOn || decide (16 ≤ brick) then .next s
  else
    let u := brickUnit brick
    let part := (s.brickOwner brick).getD 0
    match if l.brick = brick then s.env l else none with
    | none =>
      let r := { ErrRec.mk0 s.now 0x1060 (if recomputeOk then 0 else 2) brick u part with retries := 1 }
      .next (s.unitErr u (if recomputeOk then 4 else 16) part r)
    | some e =>
      let (index, regs) := match (e.c.stream l.stream).busy with
        | .exec c rs _ => (c.index, rs)
        | _ => (0xFFFFFFFF, [])
      let c : Cmd :=
        { loc := l, decodes := true, index := index, last := false, wait0 := ⟨0, 0, 0, 0, 0⟩, wait1 := ⟨0, 0, 0, 0, 0⟩
          sig0 := ⟨0, 0, 0, 0⟩, sig1 := ⟨0, 0, 0, 0⟩, sel := 0 }
      let r := { ErrRec.ofOwner s (cmdRec s e c 0x1060 6 regs 0 0xFFFFFFFF) e.l.owner with
                 kind := 1, index := brick, retries := 1 }
      if recomputeOk then .next (s.unitErr u 4 part { r with severity := 0 })
      else
        let s := s.endList e.l.owner (Ending.faulted 0x1060 0 s.now)
        .next (s.raiseW u 16 part { r with severity := 2 } (.desc (e.l.owner / 32) (e.l.owner % 32)))

/-! ### Scrubbing (R367) -/

/-- Bytes of a pseudo-channel's addressable part, of its reserve slot and of a chunk (R361, R369). -/
def chunkBytes : Nat := 24 * 2 ^ 20

/-- The device-space offset that a stack, pseudo-channel and local address hold: R360 turned round. -/
def offsetOf (pc loc : Nat) : Nat :=
  let hi := loc / 256
  let g9 := hi * 512
  let lo := (pc / 64) ^^^ bits g9 11 9 ^^^ bits g9 20 18
  let mid := (pc % 64) ^^^ bits g9 17 12
  (g9 + mid * 8 + lo) * 256 + loc % 256

/-- 64-byte locations of device space, and of all with the reserve slots. -/
def spaceLocs : Nat := Config.deviceEnd / 64
def allLocs : Nat := 512 * (768 * 2 ^ 20) / 64

/-- The pseudo-channel and the device-space offset, if any, that the scrubber's next location holds. -/
def State.scrubLoc (s : State) : Nat × Option Nat :=
  let i := s.mortar.scrubAt
  if i < spaceLocs then (pcOf (64 * i), some (64 * i))
  else
    let r := i - spaceLocs
    let pc := r / (chunkBytes / 64)
    (pc, (s.mortar.remap.find? fun m => m.stack == pc / 64 && m.slot == pc % 64).map fun m =>
      offsetOf (m.stack * 64 + m.src) (m.chunk * chunkBytes + r % (chunkBytes / 64) * 64))

/-- PATROL_SCRUB: the next location is read, under R365 and R366 (R367). -/
def execPatrolScrub (r : ScrubResult) (s : State) : Res :=
  if ! s.awake then .next s
  else
    let (pc, d) := s.scrubLoc
    let s1 := { s with mortar := { s.mortar with scrubAt := (s.mortar.scrubAt + 1) % allLocs } }
    let rcd (code sev row symbols retries : Nat) : ErrRec :=
      match d with
      | some d => { s.hbmRec code sev d row symbols retries with index := pc }
      | none => memRec s.now code sev (pcUnit pc) 0 0 pc 0 0 0 symbols row retries
    match r with
    | .clean => .next s1
    | .corrected row symbols => .next (s1.hbmErr pc row 1 1 (rcd 0x2001 0 row symbols 0))
    | .uncorrectable ok row symbols =>
      if ok then .next (s1.hbmErr pc row 8 4 (rcd 0x2001 0 row symbols 1))
      else
        let s1 := match d with | some d => s1.poisonDev d | none => s1
        .next (s1.hbmErr pc row 8 4 (rcd 0x2002 1 row symbols 1))

/-! ### Pin areas (R389 to R393) -/

/-- The valid pin entries: partition, entry, base, size. -/
def State.pinEnts (s : State) : List (Nat × Nat × Nat × Nat) :=
  (s.regs.filter fun p => decide (0x30100 ≤ p.1) && decide (p.1 < 0x40000) && p.1 % 16 == 0xC &&
      decide (0x100 ≤ p.1 % 0x1000) && decide (p.1 % 0x1000 < 0x500) && bit p.2.toNat 0).map fun p =>
    let o := p.1 - 0xC
    ((o - 0x30000) / 0x1000, (o % 0x1000 - 0x100) / 16, s.reg64 o, s.regN (o + 8))

/-- NP: pinned lines per node (R390). -/
def State.np (s : State) : Nat := (s.pinEnts.map fun p => p.2.2.2).sum / 32768

/-- A line is pinned. -/
def State.linePinned (s : State) (line : Nat) : Bool :=
  s.pinEnts.any fun p => decide (p.2.2.1 ≤ 128 * line) && decide (128 * line < p.2.2.1 + p.2.2.2)

/-! ### Slices (R384, R394 to R400) -/

def State.sliceUp (s : State) (k : Nat) : Bool := s.unit (sliceUnit k) == .inService

/-- The highest RANK among a slice's nodes plus one; 0 for a slice without nodes. -/
def rankTop (nodes : List NodeEnt) (k : Nat) : Nat :=
  ((nodes.filter (·.current == k)).map (·.rank + 1)).foldl max 0

/-- The first in-service slice after `turn`, cyclically. -/
def State.nextSlice (s : State) (turn : Nat) : Option Nat :=
  ((List.range 8).map fun i => (turn + 1 + i) % 8).find? s.sliceUp

/-- One node given to a slice (R394, R396): after N5 it is settled there. -/
def moveNode (nodes : List NodeEnt) (n recipient rank : Nat) : List NodeEnt :=
  modAt nodes n fun e => { current := recipient, forward := false, donor := e.current, rank := rank }

/-- Every node of slice `k` given to the in-service slices in turn (R394). -/
def State.spread (s : State) : List Nat → Nat → List NodeEnt → Option (List NodeEnt)
  | [], _, nodes => some nodes
  | n :: ns, turn, nodes =>
    match s.nextSlice turn with
    | none => none
    | some r => s.spread ns r (moveNode nodes n r (rankTop nodes r))

/-- Nodes a slice holds in a node table, ascending. -/
def heldBy (nodes : List NodeEnt) (k : Nat) : List Nat :=
  (List.range 256).filter fun n => (nodes.getD n (NodeEnt.reset n)).current == k

/-- Nodes a slice holds now. -/
def State.nodesAt (s : State) (k : Nat) : List Nat := heldBy s.mortar.nodes k

/-- Nodes a slice movement has still to move. -/
def SliceMove.left (m : SliceMove) (nodes : List NodeEnt) : List Nat :=
  if m.nodes = [] ∧ m.turn = m.slice ∧ m.back = false then heldBy nodes m.slice else m.nodes

/-- Where the nodes lie once the slice movements waiting or running are over. -/
def State.afterMoves (s : State) : List SliceMove → List NodeEnt → Option (List NodeEnt)
  | [], nodes => some nodes
  | m :: ms, nodes =>
    if m.back then s.afterMoves ms ((m.left nodes).foldl (fun ns n => moveNode ns n m.slice (n / 8)) nodes)
    else (s.spread (m.left nodes) m.turn nodes).bind (s.afterMoves ms)

/-- The slice movements that are left when slice `k` is retired: a return of its nodes stops, and those not yet moved stay
where they are (R399, 11, "At the edges"). -/
def State.movesBut (s : State) (k : Nat) : List SliceMove := s.mortar.moves.filter fun m => ! (m.back && m.slice == k)

/-- A retirement of slice `k`, after the movements already queued, keeps the pinned lines of every recipient within 12
ways (R395, R400). -/
def State.sliceFits (s : State) (k : Nat) : Bool :=
  let s' := s.setUnit (sliceUnit k) .retiring
  match (s'.afterMoves (s.movesBut k) s.mortar.nodes).bind fun nodes => s'.spread (heldBy nodes k) k nodes with
  | none => false
  | some nodes => ((List.range 8).filter s'.sliceUp).all fun r => decide (rankTop nodes r * s.np ≤ 786432)

/-- A record of a retirement's end: PERMANENT and RETIRED (R584). -/
def State.retiredRec (s : State) (code : Nat) (u : UnitKey) (part : Nat) : State :=
  let r0 := ErrRec.mk0 s.now code 2 (dieOf u) u part
  let r : ErrRec := { r0 with permanent := true, retired := true, bucket := s.bucketCount u, threshold := (bucketRule u.kind).1 }
  s.raise { rec0 := r, unit := u, row := 0, scope := .none }

/-- The slice movement in hand has no node left: a retired slice takes its ways with it (R560). -/
def State.endMove (s : State) (m : SliceMove) : State :=
  let s := { s with mortar := { s.mortar with moves := s.mortar.moves.tail } }
  if m.back then s
  else
    let held := (List.range 16).filter fun w => ! s.outOfService (wayUnit m.slice w)
    let s := forAll held (fun s w => s.setUnit (wayUnit m.slice w) .retired) s
    let s := { s with mortar := { s.mortar with
                withSlice := held.foldl (fun l w => setIns (m.slice * 16 + w) l) s.mortar.withSlice } }
    (s.setUnit (sliceUnit m.slice) .retired).retiredRec 0x2032 (sliceUnit m.slice) 0

/-- NODE_MOVE: the next node of the slice movement in hand goes through N1 to N5; a pinned or dirty line its donor cannot
read arrives poisoned (R396 to R398). -/
def nodeMove (unreadable : List Nat) (s : State) : State :=
  match s.mortar.moves with
  | [] => s
  | m :: ms =>
    let nodes := m.left s.mortar.nodes
    match nodes with
    | [] => s.endMove m
    | n :: rest =>
      match if m.back then some m.slice else s.nextSlice m.turn with
      | none => s
      | some r =>
        let rank := if m.back then n / 8 else rankTop s.mortar.nodes r
        let lost := unreadable.filter fun l => nodeOf l == n && (s.mortar.dirty.contains l || s.linePinned l)
        let m' := { m with nodes := rest, turn := r }
        let poisoned := lost.foldl (fun (q : Mem) l => (q.poisonAt (2 * l)).poisonAt (2 * l + 1)) s.mem
        let s := { s with mem := poisoned
                          mortar := { s.mortar with nodes := moveNode s.mortar.nodes n r rank, moves := m' :: ms } }
        if rest = [] then s.endMove m' else s

def execNodeMove (unreadable : List Nat) (s : State) : Res :=
  if s.memoryOn then .next (nodeMove unreadable s) else .next s

/-- A slice begins to retire, or the device cannot let it (R394, R395). -/
def State.retireSlice (s : State) (k : Nat) : State :=
  if ! s.sliceFits k then s.raise1 0x2033 4 (sliceUnit k) 0
  else
    let s := s.setUnit (sliceUnit k) .retiring
    { s with mortar := { s.mortar with
        moves := s.movesBut k ++ [{ slice := k, back := false, nodes := [], turn := k }] } }

/-- A cache way retires: its dirty lines are written back, the pin areas re-laid, and its slice's bucket takes its weight,
which may retire the slice (R558, R584). -/
def State.retireWay (s : State) (i : Nat) : State :=
  let u : UnitKey := { kind := 2, index := i }
  let k := sliceUnit (i / 16)
  let s := (s.setUnit u .retired).retiredRec 0x2032 u 0
  let c : Nat := s.bucketCount k
  if s.unit k == .inService then
    let s := s.bucketAdd k 8
    if decide (c < 32) && decide (32 ≤ c + 8) then s.retireSlice (i / 16) else s
  else s

/-! ### Pseudo-channels (R369 to R372) -/

def State.migrOf (s : State) (st : Nat) : List Migration := s.mortar.migr.getD st []
def State.setMigr (s : State) (st : Nat) (l : List Migration) : State :=
  { s with mortar := { s.mortar with migr := modAt s.mortar.migr st fun _ => l } }

/-- Pseudo-channels of a stack that are not in service (R371). -/
def State.pcsOut (s : State) (st : Nat) : List Nat :=
  (List.range 64).filter fun c => s.outOfService (pcUnit (st * 64 + c))

/-- The free reserve slot with the lowest pseudo-channel index (R369). -/
def State.freeReserve (s : State) (st : Nat) : Option Nat :=
  (List.range 64).find? fun c => ! s.outOfService (pcUnit (st * 64 + c)) &&
    ! s.mortar.remap.any fun m => m.stack == st && m.slot == c

/-- A pseudo-channel begins to retire: its chunks wait their turn; a third in one stack is a DEVICE fault (R370, R371). The
hosted chunk, here 31, moves first. A copy-back of it is abandoned. -/
def State.retirePc (s : State) (pc : Nat) : State :=
  let st := pc / 64
  let u := pcUnit pc
  if 2 ≤ ((s.pcsOut st).filter (· != pc % 64)).length then s.raise1 0x2031 4 u 0
  else
    let m : Migration := { pc := pc % 64, back := false, chunks := 31 :: List.range 31 }
    let q := s.migrOf st
    let q := if q.any fun x => x.pc == pc % 64 && x.back then
        q.map fun x => if x.pc = pc % 64 ∧ x.back = true then m else x
      else q ++ [m]
    (s.setUnit u .retiring).setMigr st q

/-- The chunks of a migration that still need copying: the hosted chunk if there is one, and the chunks no valid entry
names (R369, R372). -/
def State.chunksLeft (s : State) (st : Nat) (m : Migration) : List Nat :=
  m.chunks.filter fun j =>
    if j = 31 then s.mortar.remap.any fun r => r.stack == st && r.slot == m.pc
    else ! s.mortar.remap.any fun r => r.stack == st && r.src == m.pc && r.chunk == j

/-- CHUNK_COPY_DONE: the chunk in hand takes its slot; after the last the pseudo-channel is RETIRED with 0x2030 (R369,
R370, R584). -/
def chunkCopyDone (st : Nat) (s : State) : State :=
  match s.migrOf st with
  | [] => s
  | m :: ms =>
    if m.back then s
    else
      match s.chunksLeft st m with
      | [] => ((s.setMigr st ms).setUnit (pcUnit (st * 64 + m.pc)) .retired).retiredRec 0x2030 (pcUnit (st * 64 + m.pc)) 0
      | j :: _ =>
        match s.freeReserve st with
        | none => s
        | some k =>
          let ents := if j = 31 then
              s.mortar.remap.map fun r => if r.stack = st ∧ r.slot = m.pc then { r with slot := k } else r
            else s.mortar.remap ++ [{ stack := st, slot := k, src := m.pc, chunk := j }]
          let m' := { m with chunks := m.chunks.filter (· != j) }
          let s := ({ s with mortar := { s.mortar with remap := ents } }).setMigr st (m' :: ms)
          if s.chunksLeft st m' = [] then
            ((s.setMigr st ms).setUnit (pcUnit (st * 64 + m.pc)) .retired).retiredRec 0x2030 (pcUnit (st * 64 + m.pc)) 0
          else s

def execChunkCopyDone (stack : Nat) (s : State) : Res :=
  if s.memoryOn then .next (chunkCopyDone stack s) else .next s

/-- COPY_BACK_CHUNK_DONE: the chunk's remap entry is invalidated and its slot is free (R372). -/
def copyBackChunkDone (st : Nat) (s : State) : State :=
  match s.migrOf st with
  | [] => s
  | m :: ms =>
    if ! m.back then s
    else
      match m.chunks with
      | [] => s.setMigr st ms
      | j :: js =>
        let s := { s with mortar := { s.mortar with
                    remap := s.mortar.remap.filter fun r => ! (r.stack == st && r.src == m.pc && r.chunk == j) } }
        if js = [] then s.setMigr st ms else s.setMigr st ({ m with chunks := js } :: ms)

def execCopyBackChunkDone (stack : Nat) (s : State) : Res :=
  if s.memoryOn then .next (copyBackChunkDone stack s) else .next s

/-- A row is repaired: its spare row serves it, its bucket is cleared, the repair is recorded for training, and its
pseudo-channel's bucket takes the weight of a row retirement (R368, R558, R584). -/
def State.repairRow (s : State) (pc row part : Nat) : State :=
  let p := mapRd (s.mortar.spareAll, s.mortar.spareMin) pc s.mortar.spare
  let p' := (p.1 - 1, min (p.1 - 1) (if Config.fewestBank s.free then p.2 - 1 else p.2))
  let s := { s with
    mortar := { s.mortar with spare := mapSet (s.mortar.spareAll, s.mortar.spareMin) pc p' s.mortar.spare }
    flash := { s.flash with softRepairs := (pc, row) :: s.flash.softRepairs } }
  let r := { ErrRec.mk0 s.now 0x2034 0 (dieOf (rowUnit pc)) (rowUnit pc) part with
             permanent := true, retired := true, threshold := 8
             detail := detailOf [(1, pc / 64), (1, pc % 64), (1, 0), (1, 0), (8, 0), (4, 0), (4, row)] }
  let s := ((s.drew 1).rowSet pc row 0).raise { rec0 := r, unit := rowUnit pc, row := row, scope := .none }
  let u := pcUnit pc
  let c : Nat := s.bucketCount u
  if s.unit u == .inService then
    let s := s.bucketAdd u 16
    if decide (c < 256) && decide (256 ≤ c + 16) then s.retirePc pc else s
  else s

/-! ### Regulators (R401 to R404) -/

/-- BUCKET_REFILL: every 2.5 ns each bucket of a Mortar die gains tokens up to BURST (R402). -/
def execBucketRefill (mortar : Nat) (s : State) : Res :=
  if ! s.memoryOn then .next s
  else
    .next { s with mortar := { s.mortar with
      regs := (List.range s.mortar.regs.length).map fun i =>
        let r := s.mortar.regs.getD i { tokens := 0, charged := 0, borrowed := 0 }
        let p := s.part (i % 16)
        if i / 16 = mortar ∧ p.allocated = true then
          { r with tokens := min (bits p.bwr 12 0 * 1024)
                    (r.tokens + (if s.boot.rate64 then 16 else 20) * bits p.bwr 24 16) }
        else r } }

end Sys2Proof.Machine
end

