-- ==== Sys2Proof/Machine/Ingest.lean ====
section
/-! DEFINITION. The ingest die: packets, the classifier, fusion streams, epochs and the time alignment buffer (R408 to
R434, R455 to R462). -/

namespace Sys2Proof.Machine

/-! ### Configuration -/

/-- A source entry (R417, R640). -/
structure SrcCfg where
  valid : Bool
  fmt : Nat
  w : Nat
  h : Nat
  rows : Nat
  cols : Nat
  offset : Nat
  gain : Nat
  rn : Nat
  scale : Nat
  sat : Nat
deriving DecidableEq, Repr

def State.srcCfg (s : State) (n : Nat) : SrcCfg :=
  let r (o : Nat) : Nat := s.regN (0x401000 + 64 * n + o)
  { valid := bit (r 0) 31, fmt := bits (r 0) 7 0, w := bits (r 4) 15 0, h := bits (r 4) 31 16, rows := bits (r 8) 15 0
    cols := bits (r 8) 31 16, offset := r 0x10, gain := r 0x14, rn := r 0x18, scale := r 0x1C, sat := r 0x20 }

/-- Bytes of a pixel (R415); 0 for a reserved format. -/
def pixBytes (fmt : Nat) : Nat := if fmt = 1 then 1 else if fmt ≤ 4 ∧ 2 ≤ fmt then 2 else if fmt = 5 then 4 else 0

/-- Columns of the strip grid, and strips of a frame. -/
def SrcCfg.gridCols (c : SrcCfg) : Nat := ceilDiv c.w c.cols
def SrcCfg.strips (c : SrcCfg) : Nat := ceilDiv c.h c.rows * c.gridCols

/-- An FP32 value that is negative or not finite (R417). -/
def negOrNot (x : Nat) : Bool := ! isFinite32 x || flt x 0

/-- The checks of a source entry as it would be (R417, R640). -/
def State.srcOk (s : State) (n : Nat) : Bool :=
  let c := s.srcCfg n
  let r (o : Nat) : Nat := s.regN (0x401000 + 64 * n + o)
  let dim (v : Nat) : Bool := decide (1 ≤ v) && decide (v ≤ 16384)
  dim c.w && dim c.h && decide (1 ≤ c.cols) && decide (c.cols ≤ c.w) && decide (1 ≤ c.rows) && decide (c.rows ≤ c.h) &&
  pixBytes c.fmt != 0 && decide (c.strips ≤ 262144) && ! negOrNot c.gain && ! negOrNot c.scale && ! negOrNot c.rn &&
  bits (r 0) 30 8 == 0 && r 0xC == 0 && (List.range 7).all fun i => r (0x24 + 4 * i) == 0

/-- A classifier rule (R419). -/
structure Rule where
  valid : Bool
  prio : Nat
  ports : Nat
  vlanEn : Bool
  ipver : Nat
  vlan : Nat
  udpLo : Nat
  udpHi : Nat
  srcLo : Nat
  srcHi : Nat
  drop : Bool
  role : Bool
  stream : Nat
  pre : Nat
  dst : Nat
  bad : Bool
deriving DecidableEq, Repr

def State.rule (s : State) (n : Nat) : Rule :=
  let r (o : Nat) : Nat := s.regN (0x402000 + 32 * n + o)
  let w0 := r 0
  let w1 := r 4
  let w2 := r 8
  let w3 := r 12
  let pre := bits w3 7 0
  let ipver := bits w0 17 16
  { valid := bit w0 31, prio := bits w0 27 24, ports := bits w0 23 20, vlanEn := bit w0 19, ipver := ipver
    vlan := bits w0 11 0, udpLo := bits w1 31 16, udpHi := bits w1 15 0, srcLo := bits w2 29 24, srcHi := bits w2 21 16
    drop := bit w2 12, role := bit w2 11, stream := bits w2 10 8, pre := pre
    dst := beNat ([r 16, r 20, r 24, r 28].flatMap (leBytes 4))
    bad := ipver == 3 || decide ((if ipver = 1 then 32 else 128) < pre) || decide (bits w2 21 16 < bits w2 29 24) ||
      decide (bits w1 15 0 < bits w1 31 16) || bits w0 30 28 != 0 || bit w0 18 || bits w0 15 12 != 0 ||
      bits w2 31 30 != 0 || bits w2 23 22 != 0 || bits w2 15 13 != 0 || bits w2 7 0 != 0 || bits w3 31 8 != 0 }

/-- A rule that can match: valid, and its bit in ING_RULE_BAD clear (R420). -/
def State.ruleLive (s : State) (n : Nat) : Bool := (s.rule n).valid && ! (s.rule n).bad && ! s.ing.ruleBad.contains n

/-- The top `n` bits of two addresses of `w` bits agree. -/
def sameTop (w n a b : Nat) : Bool := n == 0 || (a >>> (w - n)) == (b >>> (w - n))

/-- A rule's destination matches (R419); an IPv4 address stands in the last 4 bytes. -/
def Rule.dstFits (r : Rule) (v6 : Bool) (dst : Nat) : Bool :=
  if v6 then r.ipver != 1 && sameTop 128 r.pre (r.dst % 2 ^ 128) dst
  else r.ipver != 2 && decide (r.pre ≤ 32) && sameTop 32 r.pre (r.dst % 2 ^ 32) dst

def Rule.fits (r : Rule) (p : Packet) (src : Nat) : Bool :=
  bit r.ports p.port && (! r.vlanEn || p.vlan == some r.vlan) && r.dstFits p.ipv6 p.dstIp &&
  decide (r.udpLo ≤ p.udpPort) && decide (p.udpPort ≤ r.udpHi) && decide (r.srcLo ≤ src) && decide (src ≤ r.srcHi)

/-- Two destinations of one family share a packet. -/
def dstMeet (a b : Rule) : Bool :=
  (a.ipver != 2 && b.ipver != 2 && decide (a.pre ≤ 32) && decide (b.pre ≤ 32) &&
    sameTop 32 (min a.pre b.pre) (a.dst % 2 ^ 32) (b.dst % 2 ^ 32)) ||
  (a.ipver != 1 && b.ipver != 1 && sameTop 128 (min a.pre b.pre) (a.dst % 2 ^ 128) (b.dst % 2 ^ 128))

/-- Words and fields of a stream (R641). -/
def State.strW (s : State) (n off : Nat) : Nat := s.regN (0x404000 + 0x100 * n + off)
def State.strOn (s : State) (n : Nat) : Bool := bit (s.strW n 0) 31
def State.strPart (s : State) (n : Nat) : Nat := bits (s.strW n 0) 19 16
def State.auxMask (s : State) (n : Nat) : Nat := s.strW n 8 + 2 ^ 32 * s.strW n 0xC
def State.istream (s : State) (n : Nat) : IngStream := s.ing.streams.getD n IngStream.reset
def State.modStr (s : State) (n : Nat) (g : IngStream → IngStream) : State :=
  { s with ing := { s.ing with streams := modAt s.ing.streams n g } }
def State.iport (s : State) (q : Nat) : IngPort := s.ing.ports.getD q IngPort.reset
def State.modIport (s : State) (q : Nat) (g : IngPort → IngPort) : State :=
  { s with ing := { s.ing with ports := modAt s.ing.ports q g } }

/-- Two rules that can match conflict, the streams' partitions as they are (R422). -/
def State.conflict (s : State) (a b : Rule) : Bool :=
  a.prio == b.prio && ! a.drop && ! b.drop && s.strPart a.stream != s.strPart b.stream && (a.ports &&& b.ports) != 0 &&
  (! a.vlanEn || ! b.vlanEn || a.vlan == b.vlan) && dstMeet a b && decide (a.udpLo ≤ b.udpHi) &&
  decide (b.udpLo ≤ a.udpHi) && decide (a.srcLo ≤ b.srcHi) && decide (b.srcLo ≤ a.srcHi)

/-- Some two live rules conflict. -/
def State.anyConflict (s : State) : Bool :=
  let rs := ((List.range 128).filter s.ruleLive).map s.rule
  rs.any fun a => rs.any fun b => s.conflict a b

/-- A live rule conflicts with rule `n` (R422). -/
def State.conflictWith (s : State) (n : Nat) : Bool :=
  (List.range 128).any fun m => m != n && s.ruleLive m && s.conflict (s.rule n) (s.rule m)

/-! ### The time alignment buffer (R426, R427) -/

/-- The TAB: its first offset, and whether its window is valid. -/
def State.tabBase (s : State) : Nat := (s.windows.getD 16 Window.reset).base * Config.gib
def State.tabOn (s : State) : Bool := bit (s.regN 0x400000) 0 && (s.windows.getD 16 Window.reset).valid

/-- The TAB is KEYLESS: ingest moves no data there (R612). -/
def State.tabLost (s : State) : Bool := (s.windows.getD 16 Window.reset).lost

/-- The extents in use, by address. -/
def State.extents (s : State) : List (Nat × Nat) :=
  s.ing.streams.flatMap fun t => t.epochs.flatMap fun e => e.frames.map fun f => (f.extent, f.size)

/-- The lowest free address at which `n` bytes fit, among the ends of extents (R427). -/
def State.tabFit (s : State) (n : Nat) : Option Nat :=
  let xs := s.extents
  let free (a : Nat) : Bool := decide (a + n ≤ Config.deviceEnd) &&
    xs.all fun x => decide (x.1 + x.2 ≤ a) || decide (a + n ≤ x.1)
  if ! s.tabOn || decide (128 ≤ xs.length) then none
  else
    (((s.tabBase :: xs.map fun x => x.1 + x.2).filter free).foldl (fun (b : Option Nat) a =>
      match b with
      | none => some a
      | some b => some (min a b)) none)

def SrcCfg.extentSize (c : SrcCfg) : Nat := roundUp (c.w * c.h * pixBytes c.fmt + ceilDiv c.strips 8) (2 ^ 20)

/-! ### Records -/

/-- An ingest-class record (R565): port, stream, source, level, EXPOSURE_ID. -/
def ingRec (now code sev : Nat) (u : UnitKey) (part port stream src level exposure : Nat) : ErrRec :=
  { ErrRec.mk0 now code sev 0x26 u part with
    detail := detailOf [(1, port), (1, stream), (1, src), (1, level), (4, exposure)] }

/-- An error of a stream: its partition's ring (R462). -/
def State.streamErr (s : State) (n code sev port src level exposure : Nat) : State :=
  let u : UnitKey := { kind := 0x0C, index := n }
  s.raise { rec0 := ingRec s.now code sev u (s.strPart n) port n src level exposure, unit := u, row := 0, scope := .none }

/-- An error of a port: its bucket, partition 0's ring (R462, R558). -/
def State.iportErr (s : State) (q code sev w : Nat) : State :=
  s.unitErr (ingUnit q) w 0 (ingRec s.now code sev (ingUnit q) 0 q 0 0 0 0)

/-! ### Epochs (R428 to R434) -/

def State.epoch? (s : State) (n exposure : Nat) : Option Epoch :=
  (s.istream n).epochs.find? fun e => e.exposure == exposure
def State.modEpoch (s : State) (n exposure : Nat) (g : Epoch → Epoch) : State :=
  s.modStr n fun t => { t with epochs := t.epochs.map fun e => if e.exposure = exposure then g e else e }

/-- Deadline slots of DLN_MODE 3 that wait for an epoch are armed when it opens (R458). -/
def State.armEpoch (s : State) (part n exposure stamp : Nat) : State :=
  { s with slots := s.slots.map fun p =>
      let x := p.2
      if x.part = part ∧ x.kind = 3 ∧ x.armed = none ∧ x.stream = n ∧ x.exposure = exposure then
        (p.1, x.arm s.now (stamp + x.offset)) else p }

/-- An epoch closes: it is remembered among the 64 most recent, and the device returns to RUN (R429, R541). -/
def State.closeEpoch (s : State) (n exposure reason : Nat) : State :=
  match s.epoch? n exposure with
  | none => s
  | some e =>
    if e.state != .gathering then s
    else
      let s := s.modEpoch n exposure fun e => { e with state := .closing, tClose := s.now, reason := reason }
      let c : ClosedEpoch := { exposure := exposure, level := 0, ts := e.stamp, written := false }
      (s.modStr n fun t => { t with closed := (c :: t.closed.filter fun d => d.exposure != exposure).take 64 }).wakeUp

/-- Epochs of a stream are ABANDONED: their extents are free, no planes are written (R429). One that was closed stays
remembered, without an outcome. -/
def State.abandon (s : State) (n : Nat) (p : Epoch → Bool) : State :=
  s.modStr n fun t =>
    let out := t.epochs.filter p
    { t with epochs := t.epochs.filter fun e => ! p e
             closed := t.closed.map fun c =>
               if out.any fun e => e.exposure == c.exposure then { c with level := 5, written := false } else c }

/-- The epochs of every stream of a partition are ABANDONED (R429). -/
def State.abandonPart (s : State) (part : Nat) : State :=
  forAll ((List.range 8).filter fun n => s.strPart n == part) (fun s n => s.abandon n fun _ => true) s

/-- The reference and every AUX_MASK frame of an epoch are complete (R429). -/
def State.epochFull (s : State) (n : Nat) (e : Epoch) : Bool :=
  let full (src : Nat) : Bool := e.frames.any fun f => f.source == src && f.strips.length == f.expected
  match e.ref with
  | none => false
  | some r => full r && (List.range 64).all fun a => ! bit (s.auxMask n) a || full a

/-! ### Packets (R409 to R418, R421, R430) -/

/-- A drop: counted per port under its reason, in the order of R410's table. -/
def State.dropPkt (s : State) (q reason : Nat) : State :=
  s.modIport q fun p => { p with drops := modAt p.drops reason fun k => sat64 (k + 1) }

/-- The strip header (R415). -/
structure Strip where
  version : Nat
  srcByte : Nat
  fmt : Nat
  flags : Nat
  exposure : Nat
  ts : Nat
  index : Nat
  row : Nat
  rows : Nat
  col : Nat
  cols : Nat
  rsv : Nat

def parseStrip (b : List Byte) : Strip :=
  let f (o n : Nat) : Nat := beNat (sliceB b o n)
  { version := f 0 1, srcByte := f 1 1, fmt := f 2 1, flags := f 3 1, exposure := f 4 4, ts := f 8 8, index := f 16 4
    row := f 20 2, rows := f 22 2, col := f 24 2, cols := f 26 2, rsv := f 28 4 }

/-- A header is valid, and TEST is clear (R415, R416). -/
def Strip.ok (h : Strip) (len : Nat) : Bool :=
  h.version == 1 && decide (h.srcByte < 64) && decide (h.flags < 2) && h.rsv == 0 && pixBytes h.fmt != 0 &&
  len == 32 + h.rows * h.cols * pixBytes h.fmt

/-- A strip agrees with its source's entry (R418). -/
def Strip.agrees (h : Strip) (c : SrcCfg) : Bool :=
  c.valid && h.fmt == c.fmt && h.row % c.rows == 0 && h.col % c.cols == 0 && decide (h.row < c.h) && decide (h.col < c.w) &&
  h.index == h.row / c.rows * c.gridCols + h.col / c.cols && h.rows == min c.rows (c.h - h.row) &&
  h.cols == min c.cols (c.w - h.col)

/-- The stores a strip makes in its frame's extent: its pixels in place, and its bit of the bitmap behind them. The layout
within an extent is the model's (log entry 28). -/
def Strip.stores (h : Strip) (c : SrcCfg) (f : Frame) (pixels : List Byte) (m : Mem) : List Store :=
  let pb := pixBytes c.fmt
  let rowOf (r : Nat) : Store :=
    { mem := 2, brick := 0, addr := f.extent + ((h.row + r) * c.w + h.col) * pb
      bytes := (pixels.drop (r * h.cols * pb)).take (h.cols * pb) }
  let at_ := f.extent + c.w * c.h * pb + h.index / 8
  let old := (m.rd at_).toNat
  (List.range h.rows).map rowOf ++
    [{ mem := 2, brick := 0, addr := at_, bytes := [BitVec.ofNat 8 (old ||| 2 ^ (h.index % 8))] }]

/-- A strip that found its frame is stored (R427). -/
def State.storeStrip (s : State) (n : Nat) (h : Strip) (c : SrcCfg) (f : Frame) (pixels : List Byte) : State :=
  let ss := if s.tabLost then [] else h.stores c f pixels s.mem
  let s := s.stores ss
  let s := s.charge (s.strPart n) (devBytes ss)
  s.modEpoch n h.exposure fun e =>
    { e with frames := e.frames.map fun g =>
        if g.source = f.source then
          { g with strips := setIns h.index g.strips, last := s.now
                   badStrips := if bit h.flags 0 then setIns h.index g.badStrips else g.badStrips }
        else g }

/-- The oldest GATHERING epoch of a stream. -/
def oldestGathering (l : List Epoch) : Option Epoch :=
  (l.filter fun e => e.state == .gathering).foldl (fun (b : Option Epoch) e =>
    match b with
    | none => some e
    | some x => if e.tOpen < x.tOpen then some e else some x) none

/-- The TAB has no room for a frame: OVERFLOW, and 0x4020 once per frame (R427). -/
def State.tabFull (s : State) (q n : Nat) (h : Strip) : State :=
  let src := h.srcByte
  let s1 := s.dropPkt q 9
  if (s.istream n).overflown.contains (h.exposure, src) then s1
  else
    (s1.modStr n fun t => { t with overflown := ((h.exposure, src) :: t.overflown).take 256 }).streamErr n 0x4020 0 q src 0
      h.exposure

/-- A strip is accepted into its epoch, which it may open, and may complete (R427 to R431). -/
def State.acceptStrip (s : State) (q n : Nat) (role : Bool) (h : Strip) (c : SrcCfg) (pixels : List Byte) : State :=
  let src := h.srcByte
  let frame? := (s.epoch? n h.exposure).bind fun e => e.frames.find? fun f => f.source == src
  let done (s : State) (f : Frame) : State :=
    let s := s.storeStrip n h c f pixels
    let s := if role then s.modEpoch n h.exposure fun e => { e with ref := some (e.ref.getD src) } else s
    match s.epoch? n h.exposure with
    | some e => if s.epochFull n e then s.closeEpoch n h.exposure 0 else s
    | none => s
  match frame? with
  | some f => done s f
  | none =>
    match s.tabFit c.extentSize with
    | none => s.tabFull q n h
    | some a =>
      let f : Frame := { source := src, ts := h.ts, strips := [], badStrips := [], expected := c.strips, first := s.now
                         last := s.now, extent := a, size := c.extentSize }
      if (s.epoch? n h.exposure).isSome then
        done (s.modEpoch n h.exposure fun e => { e with frames := e.frames ++ [f] }) f
      else
        let s := if (s.istream n).epochs.length < 4 then s
          else match oldestGathering (s.istream n).epochs with
            | some e => s.closeEpoch n e.exposure 1
            | none => s
        let e : Epoch := { exposure := h.exposure, state := .gathering, tOpen := s.now, stamp := h.ts, tClose := 0
                           reason := 0, ref := none, frames := [f], out := none }
        let s := s.modStr n fun t => { t with epochs := t.epochs ++ [e] }
        done (s.armEpoch (s.strPart n) n h.exposure h.ts) f

/-- The epoch checks of a strip, GEOMETRY before DUPLICATE before LATE (R430, R431, R460). -/
def State.epochStrip (s : State) (q n : Nat) (role : Bool) (h : Strip) (c : SrcCfg) (pixels : List Byte) : State :=
  let src := h.srcByte
  let t := s.istream n
  let s := match (s.iport q).handOver with
    | some 0 => s.modIport q fun p => { p with handOver := some s.now }
    | _ => s
  let late := (s.dropPkt q 8).modStr n fun t => { t with late := sat32 (t.late + 1) }
  match s.epoch? n h.exposure with
  | none => if t.closed.any fun k => k.exposure == h.exposure then late else s.acceptStrip q n role h c pixels
  | some e =>
    let f? := e.frames.find? fun f => f.source == src
    if e.state != .gathering then late
    else if role && (match e.ref with | some r => r != src | none => false) then
      (s.dropPkt q 6).modStr n fun t => { t with refConflict := sat32 (t.refConflict + 1) }
    else if (match f? with | some f => f.ts != h.ts | none => false) then s.dropPkt q 6
    else if (match f? with | some f => f.strips.contains h.index | none => false) then s.dropPkt q 7
    else if (match (s.iport q).handOver with | some p => decide (e.tOpen < p) | none => false) then late
    else s.acceptStrip q n role h c pixels

/-- The winner among matching rules: highest PRIORITY, then lowest number (R421). -/
def winner (s : State) (l : List Nat) : Option Nat :=
  let top := (l.map fun n => (s.rule n).prio).foldl max 0
  l.find? fun n => (s.rule n).prio == top

/-- A packet of a valid header is classified and goes to its stream (R421, R422, R455). -/
def State.classify (s : State) (p : Packet) (h : Strip) : State :=
  let hits := (List.range 128).filter fun n => s.ruleLive n && (s.rule n).fits p h.srcByte
  let rs := hits.map s.rule
  if rs.any fun a => rs.any fun b =>
      a.prio == b.prio && ! a.drop && ! b.drop && s.strPart a.stream != s.strPart b.stream then
    let s := s.dropPkt p.port 5
    s.raise { rec0 := ingRec s.now 0x4023 0 noUnit 0 p.port 0 h.srcByte 0 h.exposure, unit := noUnit, row := 0, scope := .none }
  else
    match winner s hits with
    | none => s.dropPkt p.port 5
    | some w =>
      let r := s.rule w
      let multi := decide (1 < (rs.filter fun x => x.prio == r.prio).length)
      let s := if multi then
          { s with ing := { s.ing with clsMulti := mapPut w (sat32 (mapRd 0 w s.ing.clsMulti + 1)) s.ing.clsMulti } }
        else s
      if r.drop then s.dropPkt p.port 5
      else if ! s.strOn r.stream || (s.istream r.stream).halted then s.dropPkt p.port 10
      else
        let c := s.srcCfg h.srcByte
        if ! h.agrees c then s.dropPkt p.port 6
        else s.epochStrip p.port r.stream r.role h c (p.payload.drop 32)

/-- The checks of R410 before the protocol header, in table order: the reason of the first that fails. -/
def pktReason (p : Packet) : Option Nat :=
  if ! p.fcsOk || p.fecBad then some 0
  else if p.bufferFull then some 9
  else if ! p.udp then some 1
  else if p.fragment then some 2
  else if ! p.checksumOk then some 3
  else if ! (parseStrip p.payload).ok p.payload.length || decide (p.payload.length < 32) then some 4
  else none

/-- A port receives: it is started and its link is up. -/
def State.ingestUp (s : State) (q : Nat) : Bool :=
  bit (s.regN (0x400100 + 0x100 * q)) 0 && (s.iport q).linkUp

/-- A wake from WARDEN is latched, once (W1 of R547); rails for RUN are requested. -/
def State.latchWake (s : State) : State :=
  if s.wdn.waking then s
  else { s with wdn := { s.wdn with waking := true, busy := true, railReq := if s.fuses.solitary then 0x3BF else 0x3FF } }.emit
    .i3cInterrupt

/-- INGEST_PACKET (R409 to R411, R461). -/
def ingestPacket (p : Packet) (s : State) : State :=
  let asleep := s.wdn.st == .doze || s.wdn.st == .warden
  let good := p.fcsOk && ! p.fecBad
  if s.phase != .up || ! s.boot.ready || decide (4 ≤ p.port) || ! p.addressed then s
  else if s.wdn.st = .warden then
    if ! bit (s.regN (0x400100 + 0x100 * p.port)) 0 then s
    else
      let s := s.dropPkt p.port 11
      if good && s.boot.outcome != .recovery then s.latchWake else s
  else if ! s.ingestUp p.port then s
  else if asleep then
    let s := s.dropPkt p.port 11
    if good then s.wakeUp else s
  else
    let s := if good && s.wdn.st == .idle && s.wdn.busy then s.wakeUp else s
    let s := if p.fecBad then s.iportErr p.port 0x4030 0 1 else s
    if s.unit (ingUnit p.port) != .inService then s
    else
      match pktReason p with
      | some r => s.dropPkt p.port r
      | none => s.classify p (parseStrip p.payload)

def execIngestPacket (p : Packet) (s : State) : Res := .next (ingestPacket p s)

/-- ARP_REQUEST: an ARP or neighbour solicitation for the port's address is answered (R409). -/
def execArpRequest (r : ArpReq) (s : State) : Res :=
  let own := if r.ipv6 then
      beNat ([0, 4, 8, 12].flatMap fun o => leBytes 4 (s.regN (0x400120 + 0x100 * r.port + o)))
    else s.regN (0x400110 + 0x100 * r.port)
  if s.awake && decide (r.port < 4) && s.ingestUp r.port && s.unit (ingUnit r.port) == .inService && r.target == own then
    .next (s.emit (.eth r.port r.ipv6))
  else .next s

/-- INGEST_LINK_UP: a started port's link comes up (R408). -/
def execIngestLinkUp (q : Nat) (s : State) : Res :=
  let u := s.unit (ingUnit q)
  if s.online && decide (q < 4) && bit (s.regN (0x400100 + 0x100 * q)) 0 && (u == .inService || u == .readmitting) &&
      ! s.pins.lostClks.contains RefClk.ing then
    .next (s.modIport q fun p => { p with linkUp := true })
  else .next s

/-- INGEST_LINK_LOST (R462, R558). -/
def execIngestLinkLost (q : Nat) (s : State) : Res :=
  if s.online && decide (q < 4) && s.ingestUp q then
    .next ((s.modIport q fun p => { p with linkUp := false }).iportErr q 0x4031 2 16)
  else .next s

/-- GATHER_LIMIT: an epoch has gathered for its limit and closes (R429). -/
def execGatherLimit (n exposure : Nat) (s : State) : Res :=
  match s.epoch? n exposure with
  | some e =>
    if s.awake && e.state == .gathering && decide (e.tOpen + s.strW n 0x10 * 1000 ≤ s.now) then
      .next (s.closeEpoch n exposure 1)
    else .next s
  | none => .next s

end Sys2Proof.Machine
end

