-- ==== Sys2Proof/Machine/Fusion.lean ====
section
/-! DEFINITION. The fusion unit: projection, calibration, consistency tests, fusion, output slots, degradation steps (R432 to
R454). -/

namespace Sys2Proof.Machine

/-! ### Transform entries (R436 to R439) -/

/-- An entry of the transform table. -/
structure Xform where
  order : Nat
  kernel : Nat
  h : List Nat
  norm : Nat
  au : List Nat
  av : List Nat
deriving DecidableEq, Repr

/-- Entry (r, s) of a stream's table; none when it is invalid (R439). -/
def State.xform (s : State) (n ref src : Nat) : Option Xform :=
  let a := s.strW n 0x28 + 2 ^ 32 * s.strW n 0x2C + 256 * (64 * ref + src)
  let b := if s.keylessAt (s.strPart n) a 256 then List.replicate 256 0 else s.mem.read a 256
  let x : Xform :=
    { order := fieldLE b 1 1, kernel := fieldLE b 2 1, h := (List.range 9).map fun i => fieldLE b (4 + 4 * i) 4
      norm := fieldLE b 0x28 4, au := (List.range 21).map fun i => fieldLE b (0x2C + 4 * i) 4
      av := (List.range 21).map fun i => fieldLE b (0x80 + 4 * i) 4 }
  if fieldLE b 0 1 = 1 ∧ x.order ≤ 5 ∧ x.kernel ≤ 3 ∧ fieldLE b 3 1 = 0 ∧ zeroField b 0xD4 44 = true ∧
      (x.norm :: (x.h ++ x.au ++ x.av)).all isFinite32 = true then some x else none

/-- The exponents of the terms (R437). -/
def projTerms (order : Nat) : List (Nat × Nat) :=
  (List.range (order + 1)).flatMap fun d => (List.range (d + 1)).map fun q => (d - q, q)

/-- Half an extent as FP32. -/
def half32 (n : Nat) : Nat := roundInt n (-1)

/-- The powers 0 to `k`, each rounded. -/
def powers (u : Nat) : Nat → List Nat
  | 0 => [one32]
  | k + 1 => let l := powers u k; l ++ [fmul (l.getLastD one32) u]

/-- The running sums of rounded products, from +0. -/
def runSums (acc : Nat) : List Nat → List Nat
  | [] => []
  | a :: r => let t := fadd acc a; t :: runSums t r

/-- A projected coordinate: de, su, sv, and whether every value of R436 was finite. -/
structure Coord where
  de : Nat
  su : Nat
  sv : Nat
  finite : Bool

/-- The source coordinate of output pixel (x, y) (R436). -/
def Xform.project (t : Xform) (rw rh sw sh x y : Nat) : Coord :=
  let h (i : Nat) : Nat := t.h.getD i 0
  let xc := fsub (ofNat32 x) (half32 rw)
  let yc := fsub (ofNat32 y) (half32 rh)
  let lin (i : Nat) : List Nat :=
    let a := fmul (h i) xc
    let b := fmul (h (i + 1)) yc
    let ab := fadd a b
    [a, b, ab, fadd ab (h (i + 2))]
  let nus := lin 0
  let nvs := lin 3
  let des := lin 6
  let de := des.getLastD 0
  let u := fdiv (nus.getLastD 0) de
  let v := fdiv (nvs.getLastD 0) de
  let un := fmul u t.norm
  let vn := fmul v t.norm
  let up := powers un t.order
  let vp := powers vn t.order
  let ps := (projTerms t.order).map fun p => fmul (up.getD p.1 0) (vp.getD p.2 0)
  let aus := (t.au.zip ps).map fun p => fmul p.1 p.2
  let avs := (t.av.zip ps).map fun p => fmul p.1 p.2
  let dus := runSums 0 aus
  let dvs := runSums 0 avs
  let u1 := fadd u (dus.getLastD 0)
  let v1 := fadd v (dvs.getLastD 0)
  let su := fadd u1 (half32 sw)
  let sv := fadd v1 (half32 sh)
  { de := de, su := su, sv := sv
    finite := ([xc, yc] ++ nus ++ nvs ++ des ++ [u, v, un, vn] ++ up ++ vp ++ ps ++ aus ++ avs ++ dus ++ dvs ++
      [u1, v1, su, sv]).all isFinite32 }

/-- de is positive. -/
def Coord.front (c : Coord) : Bool := flt 0 c.de

/-- The pixel lies in the footprint of a source of this size (R443). -/
def Coord.inFoot (c : Coord) (w h : Nat) : Bool :=
  c.front && fle 0 c.su && fle c.su (ofNat32 (w - 1)) && fle 0 c.sv && fle c.sv (ofNat32 (h - 1))

/-! ### Calibration and resampling (R440 to R443) -/

/-- A raw pixel widened to FP32 (R415, R441); multi-byte pixels are big-endian. -/
def rawPixel (fmt : Nat) (b : List Byte) : Nat :=
  let n := beNat b
  if fmt = 3 then roundInt (sext 16 n) 0
  else if fmt = 4 then widen 1 n
  else if fmt = 5 then widen 0 n
  else ofNat32 n

/-- A calibrated sample, flux and variance; none when it is invalid (R441). -/
def State.sample (s : State) (c : SrcCfg) (f : Frame) (x y : Nat) : Option (Nat × Nat) :=
  let i := y / c.rows * c.gridCols + x / c.cols
  if ! f.strips.contains i || f.badStrips.contains i || s.tabLost then none
  else
    let pb := pixBytes c.fmt
    let raw := rawPixel c.fmt (s.mem.read (f.extent + (y * c.w + x) * pb) pb)
    if isNan raw || (! isZero c.sat && fle c.sat raw) then none
    else
      let e := fmul (fsub raw c.offset) c.gain
      let ve := fadd c.rn (fmax e 0)
      some (fmul e c.scale, fmul ve (fmul c.scale c.scale))

/-- The taps of an axis at a coordinate. -/
def coordTaps (kernel su : Nat) : List (Int × Nat) :=
  match phaseOf su with
  | some p => (kernelTaps kernel p.2).map fun t => (p.1 + t.1, t.2)
  | none => []

/-- A resampled sample; none when a tap is outside or invalid (R442). -/
def State.resampled (s : State) (c : SrcCfg) (f : Frame) (t : Xform) (k : Coord) : Option (Nat × Nat) :=
  if ! k.finite || ! k.front then none
  else
    let ts := (coordTaps t.kernel k.sv).flatMap fun ty => (coordTaps t.kernel k.su).map fun tx =>
      (tx.1, ty.1, fmul ty.2 tx.2)
    if ts.any fun p => decide (p.1 < 0) || decide ((c.w : Int) ≤ p.1) || decide (p.2.1 < 0) || decide ((c.h : Int) ≤ p.2.1) then
      none
    else
      match ts.mapM fun p => (s.sample c f p.1.toNat p.2.1.toNat).map fun v => (p.2.2, v) with
      | none => none
      | some vs =>
        if t.kernel = 0 then (vs.head?).map fun p => p.2
        else
          let sw := sum32 (pad32 0 (vs.map fun p => p.1))
          let num := sum32 (pad32 0 (vs.map fun p => fmul p.1 p.2.1))
          let nv := sum32 (pad32 0 (vs.map fun p => fmul (fmul p.1 p.1) p.2.2))
          some (fdiv num sw, fdiv nv (fmul sw sw))

/-! ### Members -/

/-- A member of an epoch in the fusion unit: source, status, its transform, its frame, its samples row by row (none where
invalid), its footprint. -/
structure Member where
  src : Nat
  status : Nat
  frame : Option Frame
  samples : List (List (Option (Nat × Nat)))
  foot : List (List Bool)

def Member.at (m : Member) (x y : Nat) : Option (Nat × Nat) := (m.samples.getD y []).getD x none
def Member.covers (m : Member) (x y : Nat) : Bool := (m.at x y).isSome
def Member.flux (m : Member) (x y : Nat) : Nat := ((m.at x y).map (·.1)).getD 0
def Member.inFoot (m : Member) (x y : Nat) : Bool := (m.foot.getD y []).getD x false
def Member.active (m : Member) : Bool := decide (m.status < 2)

/-- Difference of two times. -/
def absDiff (a b : Nat) : Nat := (a - b) + (b - a)

/-- The status of a frame with no reference to compare it with: complete, partial or missing. -/
def frameStatus : Option Frame → Nat
  | none => 2
  | some f => if f.strips.length = f.expected then 0 else 1

/-- The status of an auxiliary member (R434). -/
def State.auxStatus (s : State) (n : Nat) (e : Epoch) (refTs : Nat) (f : Option Frame) (xf : Option Xform) : Nat :=
  let _ := e
  match f with
  | none => 2
  | some f =>
    if s.strW n 0x14 * 1000 < absDiff f.ts refTs then 3
    else if xf.isNone then 4
    else frameStatus (some f)

def gridOf {α : Type} (w h : Nat) (g : Nat → Nat → α) : List (List α) :=
  (List.range h).map fun y => (List.range w).map fun x => g x y

/-- An auxiliary member (R434 to R443). -/
def State.auxMember (s : State) (n : Nat) (e : Epoch) (ref : Nat) (refTs w h src : Nat) : Member :=
  let c := s.srcCfg src
  let f := e.frames.find? fun f => f.source == src
  let xf := s.xform n ref src
  let st := s.auxStatus n e refTs f xf
  match xf with
  | none => { src := src, status := st, frame := f, samples := [], foot := [] }
  | some t =>
    { src := src, status := st, frame := f
      samples := match f with
        | some f => if st < 2 then gridOf w h fun x y => s.resampled c f t (t.project w h c.w c.h x y) else []
        | none => []
      foot := gridOf w h fun x y => (t.project w h c.w c.h x y).inFoot c.w c.h }

/-- The reference, member 0 (R425, R442). -/
def State.refMember (s : State) (n : Nat) (f : Frame) : Member :=
  let c := s.srcCfg f.source
  let big := decide (bits (s.strW n 0x24) 15 0 < c.w) || decide (bits (s.strW n 0x24) 31 16 < c.h)
  let st := if big then 6 else if f.strips.length = f.expected then 0 else 1
  { src := f.source, status := st, frame := some f
    samples := if big then [] else gridOf c.w c.h fun x y => s.sample c f x y
    foot := if big then [] else gridOf c.w c.h fun _ _ => true }

/-- The auxiliary sources of a stream, ascending (R425). -/
def State.auxSources (s : State) (n : Nat) : List Nat := (List.range 64).filter fun a => bit (s.auxMask n) a

/-! ### Consistency tests (R444 to R447) -/

/-- A test block: first column, first row, width, height. -/
structure TestBlock where
  x : Nat
  y : Nat
  w : Nat
  h : Nat

/-- The blocks of a grid in row-major order (R444). -/
def testBlocks (w h : Nat) : List TestBlock :=
  (List.range (ceilDiv h 256)).flatMap fun r => (List.range (ceilDiv w 256)).map fun c =>
    { x := 256 * c, y := 256 * r, w := min 256 (w - 256 * c), h := min 256 (h - 256 * r) }

def TestBlock.pixels (b : TestBlock) : List (Nat × Nat) :=
  (List.range b.h).flatMap fun y => (List.range b.w).map fun x => (b.x + x, b.y + y)

/-- A member covers at least half of a block. -/
def Member.coversBlock (m : Member) (b : TestBlock) : Bool :=
  decide (b.w * b.h ≤ 2 * (b.pixels.filter fun p => m.covers p.1 p.2).length)

def sumPx (l : List Nat) : Nat := sum32 (pad32 0 l)

/-- The flux test passes (R445). -/
def fluxOk (tol floor_ : Nat) (i j : Member) (ps : List (Nat × Nat)) : Bool :=
  let fi := sumPx (ps.map fun p => i.flux p.1 p.2)
  let fj := sumPx (ps.map fun p => j.flux p.1 p.2)
  let lim := fadd (fmul tol (fmax (fabs fi) (fabs fj))) (fmul floor_ (ofNat32 ps.length))
  ! flt lim (fabs (fsub fi fj))

/-- The residual test passes (R445). -/
def residOk (tol : Nat) (i j : Member) (ps : List (Nat × Nat)) : Bool :=
  let qs := ps.filter fun p => decide (0 < p.1) && decide (0 < p.2) && j.covers (p.1 - 1) p.2 && j.covers (p.1 + 1) p.2 &&
    j.covers p.1 (p.2 - 1) && j.covers p.1 (p.2 + 1)
  let half := 0x3F000000
  let g := qs.map fun p =>
    (fmul half (fsub (j.flux (p.1 + 1) p.2) (j.flux (p.1 - 1) p.2)),
     fmul half (fsub (j.flux p.1 (p.2 + 1)) (j.flux p.1 (p.2 - 1))), fsub (i.flux p.1 p.2) (j.flux p.1 p.2))
  let a := sumPx (g.map fun t => fmul t.1 t.1)
  let b := sumPx (g.map fun t => fmul t.1 t.2.1)
  let c := sumPx (g.map fun t => fmul t.2.1 t.2.1)
  let u := sumPx (g.map fun t => fmul t.1 t.2.2)
  let w := sumPx (g.map fun t => fmul t.2.1 t.2.2)
  let det := fsub (fmul a c) (fmul b b)
  if ! flt 0 det then true
  else
    let dx := fdiv (fsub (fmul c u) (fmul b w)) det
    let dy := fdiv (fsub (fmul a w) (fmul b u)) det
    ! flt (fmul tol tol) (fadd (fmul dx dx) (fmul dy dy))

/-- A pair agrees in a block (R445). -/
def pairAgrees (flux floor_ resid : Nat) (i j : Member) (b : TestBlock) : Bool :=
  let ps := b.pixels.filter fun p => i.covers p.1 p.2 && j.covers p.1 p.2
  decide (ps.length < 1024) || (fluxOk flux floor_ i j ps && residOk resid i j ps)

/-- What the test pass stores of a block: the covering members and the agreeing pairs (i, j), i > j. -/
structure BlockTest where
  cover : List Nat
  agree : List (Nat × Nat)

def testBlock (flux floor_ resid : Nat) (ms : List Member) (b : TestBlock) : BlockTest :=
  let mem (i : Nat) : Member := ms.getD i { src := 0, status := 2, frame := none, samples := [], foot := [] }
  let cover := (List.range ms.length).filter fun i => (mem i).active && (mem i).coversBlock b
  { cover := cover
    agree := cover.flatMap fun i => (cover.filter fun j => decide (j < i) && pairAgrees flux floor_ resid (mem i) (mem j) b).map
      fun j => (i, j) }

/-- A block's decision: state (0 AGREED, 1 CONTESTED, 2 UNRESOLVED, 3 OUTVOTED), the accepted members, the contested pair
(R446). -/
structure Decision where
  state : Nat
  accepted : List Nat
  pair : Option (Nat × Nat)
  cover : List Nat

/-- Members are accepted when they agree with at least ceil((n - 1) / 2) of the others. -/
def BlockTest.decide (t : BlockTest) (out : List Nat) : Decision :=
  let cover := t.cover.filter fun i => ! out.contains i
  let agree (i j : Nat) : Bool := t.agree.contains (max i j, min i j)
  match cover with
  | [] => { state := 0, accepted := [], pair := none, cover := cover }
  | [i] => { state := 0, accepted := [i], pair := none, cover := cover }
  | [i, j] =>
    if agree i j then { state := 0, accepted := [i, j], pair := none, cover := cover }
    else { state := 1, accepted := [i], pair := some (i, j), cover := cover }
  | _ =>
    let n := cover.length
    let acc := cover.filter fun i =>
      Decidable.decide (n / 2 ≤ (cover.filter fun j => j != i && agree i j).length)
    if acc.contains 0 then { state := 0, accepted := acc, pair := none, cover := cover }
    else if acc = [] then { state := 2, accepted := [0], pair := none, cover := cover }
    else { state := 3, accepted := acc, pair := none, cover := cover }

/-- Blocks with three or more covering members in which a member was covered, and those in which it was rejected. -/
def memberCounts (ds : List Decision) (i : Nat) : Nat × Nat :=
  let c := ds.filter fun d => decide (3 ≤ d.cover.length) && d.cover.contains i
  (c.length, (c.filter fun d => ! d.accepted.contains i).length)

/-- The auxiliary members that are EXCLUDED (R447). -/
def excluded (rejFrac : Nat) (ds : List Decision) (n : Nat) : List Nat :=
  (List.range n).filter fun i =>
    let c := memberCounts ds i
    i != 0 && decide (16 ≤ c.1) && decide (rejFrac * c.1 < c.2 * 256)

/-! ### Fusion (R448 to R451) -/

/-- A fused pixel: flux, variance, contributors (R448). -/
def fusePixel (floor_ : Nat) (cs : List (Nat × (Nat × Nat))) : Nat × Nat :=
  match cs with
  | [] => (0, inf32 false)
  | [c] => c.2
  | _ =>
    let ws := cs.map fun c => (fdiv one32 (fmax c.2.2 floor_), c.2.1)
    let sw := sumRows (ws.map (·.1))
    (fdiv (sumRows (ws.map fun w => fmul w.1 w.2)) sw, fdiv one32 sw)

/-- The six planes' values at a pixel (R448 to R451). `alone` is D3. -/
def planePixel (floor_ : Nat) (ms : List Member) (d : Decision) (alone : Bool) (x y : Nat) : List Nat :=
  let ids := List.range ms.length
  let mem (i : Nat) : Member := ms.getD i { src := 0, status := 2, frame := none, samples := [], foot := [] }
  let acc := if alone then [0] else d.accepted
  let contrib := (ids.filter fun i => acc.contains i).filterMap fun i => ((mem i).at x y).map fun v => (i, v)
  let who := contrib.map (·.1)
  let fv := fusePixel floor_ contrib
  let gap := ids.any fun i => decide (1 ≤ (mem i).status) && decide ((mem i).status ≤ 5) && ! who.contains i && (mem i).inFoot x y
  let flags := b2n (who == [0]) + 2 * b2n gap + 4 * b2n (! alone && d.state == 1) + 8 * b2n (! alone && d.state == 2) +
    16 * b2n (! alone && d.state == 3) + 32 * b2n (! (mem 0).covers x y) + 64 * b2n (who == [])
  let cont (second : Bool) : Nat :=
    match if alone then none else d.pair with
    | some (i, j) => (mem (if second then j else i)).flux x y
    | none => 0
  [fv.1, fv.2, ofNat32 who.length, ofNat32 flags, cont false, cont true]

/-! ### Output slots (R449) -/

/-- Element size and format code of a stream's planes. -/
def State.outElem (s : State) (n : Nat) : Nat × Nat := if bits (s.strW n 0x20) 15 8 = 1 then (2, 2) else (4, 0)

/-- The size of a plane of a frame (R449). -/
def planeSize (es w h : Nat) : Nat := roundUp (roundUp (w * es) 64 * h) 65536

def State.slotSize (s : State) (n : Nat) : Nat :=
  65536 + 6 * planeSize (s.outElem n).1 (bits (s.strW n 0x24) 15 0) (bits (s.strW n 0x24) 31 16)

/-- The output slot of an exposure. -/
def State.slotAt (s : State) (n exposure : Nat) : Nat :=
  s.strW n 0x18 + 2 ^ 32 * s.strW n 0x1C + exposure % (bits (s.strW n 0x20) 6 0) * s.slotSize n

/-- The stores of the planes. -/
def planeRows (es fmt slot w h : Nat) (px : List (List (List Nat))) : List Store :=
  (List.range 6).flatMap fun k => (List.range h).map fun y =>
    { mem := 2, brick := 0, addr := slot + 65536 + k * planeSize es w h + y * roundUp (w * es) 64
      bytes := ((px.getD y []).flatMap fun v => leBytes es (narrow fmt 1 (v.getD k 0) none)) }

/-! ### FUSION_START -/

/-- Everything the fusion unit reaches for an epoch: its outcome, its members, the planes' stores. -/
structure Fused where
  out : FusionOut
  stores : List Store
  noXform : Nat

/-- D4: the reference is missing or too large (R454). -/
def noFusion (ms : List Member) : Fused :=
  { out := { level := 4, statuses := ms.map (·.status), contested := 0, unresolved := 0, outvoted := 0
             covered3 := ms.map fun _ => 0, rejected := ms.map fun _ => 0, blockMap := [] }
    stores := [], noXform := 0 }

/-- Test pass, decisions and fusion pass of an epoch (R444 to R454). -/
def State.fuse (s : State) (n : Nat) (e : Epoch) : Fused :=
  let auxAbsent : List Member := (s.auxSources n).map fun a =>
    { src := a, status := frameStatus (e.frames.find? fun f => f.source == a), frame := none, samples := [], foot := [] }
  match e.ref.bind fun r => e.frames.find? fun f => f.source == r with
  | none => noFusion ({ src := 0, status := 2, frame := none, samples := [], foot := [] } :: auxAbsent)
  | some f =>
    let c := s.srcCfg f.source
    let m0 := s.refMember n f
    let aux := (s.auxSources n).map fun a => s.auxMember n e f.source f.ts c.w c.h a
    let ms := m0 :: aux
    if m0.status = 6 then noFusion ms
    else
      let bs := testBlocks c.w c.h
      let quorum := bits (s.strW n 0) 12 8
      let few (out : List Nat) : Bool :=
        decide (((List.range ms.length).filter fun i => (ms.getD i m0).active && ! out.contains i).length < quorum)
      let early := few []
      let ts := if early then [] else bs.map (testBlock (s.strW n 0x30) (s.strW n 0x34) (s.strW n 0x38) ms)
      let d1 := ts.map fun t => t.decide []
      let out := excluded (bits (s.strW n 0) 7 0) d1 ms.length
      let alone := early || few out
      let ds := if alone then [] else if out = [] then d1 else ts.map fun t => t.decide out
      let ms' := (ms.zip (List.range ms.length)).map fun p => if out.contains p.2 then { p.1 with status := 5 } else p.1
      let level := if alone then 3 else if out ≠ [] then 2
        else if ms.any fun m => decide (1 ≤ m.status) && decide (m.status ≤ 4) then 1 else 0
      let (es, fmt) := s.outElem n
      let nbc := ceilDiv c.w 256
      let px := gridOf c.w c.h fun x y =>
        planePixel (s.strW n 0x3C) ms' (ds.getD (y / 256 * nbc + x / 256) { state := 0, accepted := [0], pair := none, cover := [] })
          alone x y
      let count (k : Nat) : Nat := (ds.filter fun d => d.state == k).length
      let cs := (List.range ms.length).map (memberCounts d1)
      { out := { level := level, statuses := ms'.map (·.status), contested := count 1, unresolved := count 2
                 outvoted := count 3, covered3 := cs.map (·.1), rejected := cs.map (·.2), blockMap := ds.map (·.state) }
        stores := planeRows es fmt (s.slotAt n e.exposure) c.w c.h px
        noXform := (aux.filter fun m => m.status == 4).length }

/-- The fusion unit is free and an epoch is the next to take: CLOSING, first in order of T_close and then of stream
(R432). -/
def State.nextToFuse (s : State) (n exposure : Nat) : Bool :=
  let all := (List.range 8).flatMap fun m => (s.istream m).epochs.map fun e => (m, e)
  match s.epoch? n exposure with
  | none => false
  | some e =>
    e.state == .closing && ! (all.any fun p => p.2.state == .fusing) &&
    all.all fun p => p.2.state != .closing || decide (e.tClose < p.2.tClose) ||
      (e.tClose == p.2.tClose && decide (n ≤ p.1))

/-- The faults an epoch's outcome raises at once (R439, R454). -/
def State.fusionErrs (s : State) (n exposure : Nat) (f : Fused) : State :=
  let o := f.out
  let s := forAll (List.range f.noXform) (fun s _ => s.streamErr n 0x4021 0 0 0 o.level exposure) s
  let s := if o.level = 4 then s.streamErr n 0x4012 2 0 0 4 exposure
    else if o.level = 3 then s.streamErr n 0x4011 0 0 0 3 exposure
    else if o.level = 2 then s.streamErr n 0x4010 0 0 0 2 exposure else s
  if o.contested + o.unresolved + o.outvoted = 0 then s else s.streamErr n 0x4013 0 0 0 o.level exposure

/-- FUSION_START: G3 to G5 of R433; a D4 epoch halts its stream, whose other open epochs are abandoned (R454, R455). -/
def fusionStart (n exposure : Nat) (s : State) : State :=
  match s.epoch? n exposure with
  | none => s
  | some e =>
    if ! s.awake || ! s.nextToFuse n exposure then s
    else
      let f := s.fuse n e
      let part := s.strPart n
      let ts := f.stores.filter fun t => ! s.keylessAt part t.addr t.bytes.length
      let s := if ts = [] then s else s.commit part ts
      let s := s.modEpoch n exposure fun e => { e with state := .fusing, out := some f.out }
      let s := if f.out.level = 4 then
          (s.modStr n fun t => { t with halted := true }).abandon n fun e => e.exposure != exposure
        else s
      s.fusionErrs n exposure f

def execFusionStart (n exposure : Nat) (s : State) : Res := .next (fusionStart n exposure s)

/-! ### EPOCH_WRITTEN -/

/-- Bytes of the block map: two bits per block (R452). -/
def mapBytes : Nat → List Nat → List Byte
  | 0, _ => []
  | k + 1, l =>
    BitVec.ofNat 8 (l.getD 0 0 + 4 * l.getD 1 0 + 16 * l.getD 2 0 + 64 * l.getD 3 0) :: mapBytes k (l.drop 4)

/-- The 32-byte entry of a member (R452). -/
def State.memberEntry (s : State) (e : Epoch) (o : FusionOut) (i src : Nat) : List Byte :=
  let f := e.frames.find? fun f => f.source == src
  let c := s.srcCfg src
  leBytes 1 src ++ leBytes 1 (o.statuses.getD i 2) ++ leBytes 2 0 ++
  leBytes 4 ((f.map (·.strips.length)).getD 0) ++ leBytes 4 ((f.map (·.expected)).getD (if c.valid then c.strips else 0)) ++
  leBytes 8 ((f.map (·.first)).getD 0) ++ leBytes 8 ((f.map (·.last)).getD 0) ++
  leBytes 2 (o.covered3.getD i 0) ++ leBytes 2 (o.rejected.getD i 0)

/-- The epoch record (R452). Where no reference-role strip came, what it holds as reference is not stated: free values. -/
def State.epochRecord (s : State) (n : Nat) (e : Epoch) (o : FusionOut) : List Byte :=
  let noRef := Config.noReference s.free
  let ref := e.ref.getD (noRef % 256)
  let ts := match e.ref.bind fun r => e.frames.find? fun f => f.source == r with
    | some f => f.ts
    | none => noRef
  let members := ref :: s.auxSources n
  let ents := (members.zip (List.range members.length)).flatMap fun p => s.memberEntry e o p.2 p.1
  let head := leBytes 4 e.exposure ++ leBytes 1 n ++ leBytes 1 o.level ++ leBytes 1 ref ++ leBytes 1 e.reason ++
    leBytes 8 ts ++ leBytes 8 e.tOpen ++ leBytes 8 e.tClose ++ leBytes 8 s.now ++ leBytes 4 o.contested ++
    leBytes 4 o.unresolved ++ leBytes 4 o.outvoted ++ List.replicate 12 0 ++ (ents ++ List.replicate 512 0).take 512
  head ++ List.replicate 1472 0 ++ mapBytes 1024 o.blockMap ++ List.replicate 62464 0

/-- EPOCH_WRITTEN: the record is written, the exposure's outcome stands for WAIT_EPOCH, its TAB extents are free (R429,
R433, R456). -/
def epochWritten (n exposure : Nat) (s : State) : State :=
  match s.epoch? n exposure with
  | none => s
  | some e =>
    match e.out with
    | none => s
    | some o =>
      let part := s.strPart n
      let ts := match e.ref.bind fun r => e.frames.find? fun f => f.source == r with
        | some f => f.ts
        | none => e.stamp
      let s := if s.keylessAt part (s.slotAt n exposure) 1 then s
        else s.commit part [{ mem := 2, brick := 0, addr := s.slotAt n exposure, bytes := s.epochRecord n e o }]
      let s := s.drew 1
      let s := s.modStr n fun t =>
        { t with epochs := t.epochs.filter fun x => x.exposure != exposure
                 closed := t.closed.map fun c =>
                   if c.exposure = exposure then
                     { c with level := o.level, written := true, ts := if o.level = 4 then e.stamp else ts }
                   else c }
      { s with wdn := { s.wdn with idleSince := s.now } }

def execEpochWritten (n exposure : Nat) (s : State) : Res :=
  if s.awake then .next (epochWritten n exposure s) else .next s

end Sys2Proof.Machine
end

