-- ==== Sys2Proof/Machine/Access.lean ====
section
/-! DEFINITION. Ignored register writes (R632) and the writing of error records to the error rings (R132, R144 to R146,
R562). -/

namespace Sys2Proof.Machine

/-! ### Ignored writes -/

/-- The LAST word of an ignored write: reason and offset (R632). -/
def ignoredWord (reason off : Nat) : Nat := reason * 2 ^ 28 + off % 2 ^ 28

/-- An ignored write outside the function pages. -/
def State.ignoreTop (s : State) (reason off : Nat) : State :=
  { s with wrIgnored := sat32 (s.wrIgnored + 1), wrLast := ignoredWord reason off }

/-- An ignored write into a function page. -/
def State.ignorePage (s : State) (f reason off : Nat) : State :=
  s.modPage f fun p => { p with wrIgnored := sat32 (p.wrIgnored + 1), wrLast := ignoredWord reason off }

/-! ### Error rings -/

/-- The phase bit of the entry at an index of a ring of 2^s entries (R132). -/
def phaseBit (i s : Nat) : Nat := (i / 2 ^ s + 1) % 2

/-- The 128 bytes of a record (R144). -/
def ErrRec.image (r : ErrRec) (phase : Nat) : List Byte := r.bytes phase ++ leBytes 4 (crc32 (r.bytes phase))

/-- The error ring has no room (R146). -/
def Page.errFull (p : Page) : Bool :=
  decide (2 ^ bits p.errCtrl 4 0 ≤ (p.errProduced + 2 ^ 32 - p.errConsumer) % 2 ^ 32)

/-- A record is written: it takes the next index and SEQ, carries what was lost before it, and raises vector 0 (R144,
R146, R150, R562). The warden keeps the first 16 bytes of the last eight (R574). -/
def State.putRec (s : State) (f : Nat) (r : ErrRec) : State :=
  let p := s.page f
  let i := p.errProduced
  let r := { r with dropped := sat32 (p.errDropped + mapRd 0 f s.repair.dropped), seq := p.errSeq }
  let s := s.modPage f fun p =>
    { p with errProduced := (i + 1) % 2 ^ 32, errSeq := (p.errSeq + 1) % 2 ^ 32, errDropped := 0 }
  let head := (r.bytes (phaseBit i (bits p.errCtrl 4 0))).take 16
  let s := { s with repair := { s.repair with
              dropped := mapDel f s.repair.dropped, lastRecs := (head :: s.repair.lastRecs).take 8 } }
  (s.emit (.errRecord f i r)).msix f 0

/-- A record of a function is lost (R146). -/
def State.loseRec (s : State) (f : Nat) : State := s.modPage f fun p => { p with errDropped := sat32 (p.errDropped + 1) }

/-- A record goes to a function's ring: it is written, or held while the ring is full, or lost; the index it takes or
will take (R146). Without an enabled ring, or once a function-level reset forbids host writes, it is lost. -/
def State.writeRec (s : State) (f : Nat) (r : ErrRec) : State × Option Nat :=
  let p := s.page f
  if ! p.errEnabled || (s.part f).flr then (s.loseRec f, none)
  else if p.errHeld = [] ∧ p.errFull = false then (s.putRec f r, some p.errProduced)
  else if p.errHeld.length < 16 then
    (s.modPage f fun p => { p with errHeld := p.errHeld ++ [r] }, some ((p.errProduced + p.errHeld.length) % 2 ^ 32))
  else (s.loseRec f, none)

/-- Held records are written while there is room. -/
def State.flushRecs (f : Nat) : Nat → State → State
  | 0, s => s
  | k + 1, s =>
    match (s.page f).errHeld with
    | [] => s
    | r :: rs =>
      if (s.page f).errFull then s
      else State.flushRecs f k ((s.modPage f fun p => { p with errHeld := rs }).putRec f r)

end Sys2Proof.Machine
end

