-- ==== Sys2Proof/Machine/Rings.lean ====
section
/-! DEFINITION. The host rings: the doorbell sweep, descriptor fetch, the descriptors and their completions, moderation
(R118 to R152). -/

namespace Sys2Proof.Machine

/-! ### Ring registers -/

def Sq.log2 (q : Sq) : Nat := bits q.inUse 4 0
def Sq.cqIndex (q : Sq) : Nat := bits q.inUse 20 16
def Sq.policy (q : Sq) : Nat := bits q.inUse 13 12
def Cq.log2 (c : Cq) : Nat := bits c.ctrl 4 0
def Cq.vec (c : Cq) : Nat := bits c.irq 29 24
def Cq.count (c : Cq) : Nat := bits c.irq 23 16
/-- IRQ_TIME in nanoseconds. -/
def Cq.time (c : Cq) : Nat := bits c.irq 9 0 * 1000

/-- A completion may be written (R131). -/
def Cq.room (c : Cq) : Bool := decide ((c.produced + 2 ^ 32 - c.consumer) % 2 ^ 32 < 2 ^ c.log2)

/-- Descriptors published and not yet fetched (R127, R128). -/
def Sq.ahead (q : Sq) (p : Nat) : Nat := (p + 2 ^ 32 - q.fetched) % 2 ^ 32

/-- Some ring of the function is enabled (R121). -/
def Page.anyRing (p : Page) : Bool :=
  p.errEnabled || p.cqs.any (·.2.enabled) || p.sqs.any fun x => x.2.state != .disabled

/-- Host requests of a function go out: the device is up and awake, its link trained, no reset of its partition runs. -/
def State.ringsOn (s : State) (f : Nat) : Bool := s.awake && s.hio0Up && ! (s.part f).resetting

/-- A fetched descriptor will not start: its ring left ENABLED (R151, R639). -/
def Desc.stop (d : Desc) : Desc := { d with stopped := true }

/-- A ring whose last work is done is disabled (R639). -/
def Sq.settled (q : Sq) : Sq :=
  if q.disabling && q.queue.isEmpty && q.cur.isNone then { q with state := .disabled, disabling := false } else q

/-- The record of a ring's own error (R128, R151). -/
def State.ringRec (s : State) (f n code die addr status : Nat) : ErrRec :=
  let r0 := ErrRec.mk0 s.now code 2 die { kind := 0x0B, index := n } f
  { r0 with
    sq := n, sqIndex := (s.sq f n).fetched, addr := addr
    detail := if code / 4096 = 3 then detailOf [(1, 0), (2, 0), (1, 0), (4, 0), (1, 0), (1, status)] else r0.detail }

/-- A ring enters ERROR: what it fetched and has not started completes RING_STOPPED, a record is written (R128, R151). -/
def State.ringError (s : State) (f n code die addr status : Nat) : State :=
  let r := s.ringRec f n code die addr status
  (s.modSq f n fun q => { q with state := .error, queue := q.queue.map Desc.stop }).raise
    { rec0 := r, unit := { kind := 0x0B, index := n }, row := 0, scope := .none }

/-! ### The sweep (R118 to R125) -/

/-- The producer index of ring `n` and the consumer index of completion ring `n` in a doorbell block (R118). -/
def dbProducer (b : List Byte) (n : Nat) : Nat := fieldLE b (4 * n) 4
def dbConsumer (b : List Byte) (n : Nat) : Nat := fieldLE b (0x80 + 4 * n) 4
def dbError (b : List Byte) : Nat := fieldLE b 0x100 4

/-- Some index differs from the one last read. -/
def Page.changed (p : Page) (b : List Byte) : Bool :=
  ((List.range 32).any fun n => (p.sq n).producer != dbProducer b n || (p.cq n).consumer != dbConsumer b n) ||
  p.errConsumer != dbError b

/-- The idle interval in nanoseconds (R123). -/
def State.idleInterval (s : State) : Nat := 500 * 2 ^ bits (s.regN 0x20024) 2 0

/-- The next interval; the 1 ms without a change counts from the first sweep of the page on (R122). -/
def Page.nextInterval (p : Page) (idle now : Nat) (changed : Bool) : Nat :=
  if changed || p.sweepAt == 0 || decide (now ≤ p.changedAt + 1000000) then 500 else min (2 * p.sweepInterval) idle

/-- One ring's producer index read by a sweep (R128, R152). -/
def sweepRing (f n p : Nat) (s : State) : State :=
  let q := s.sq f n
  match q.state with
  | .disabled => s.modSq f n fun q => { q with producer := p }
  | .error =>
    if q.restart then
      s.modSq f n fun q => { q with producer := p, fetched := p, state := .enabled, restart := false }
    else s.modSq f n fun q => { q with producer := p }
  | .enabled =>
    let bad := decide (2 ^ q.log2 < q.ahead p)
    let s := s.modSq f n fun q => { q with producer := p }
    if bad && ! q.disabling then s.ringError f n 0x1030 0x27 0 0 else s

/-- DOORBELL_SWEEP: the whole block of a function with an enabled ring is read, once per interval (R121, R122). -/
def doorbellSweep (f : Nat) (b : List Byte) (s : State) : State :=
  let p := s.page f
  if ! s.ringsOn f || ! p.anyRing || decide (16 ≤ f) || decide (s.now < p.sweepAt + p.sweepInterval) then s
  else
    let ch := p.changed b
    let iv := p.nextInterval s.idleInterval s.now ch
    let s := s.modPage f fun p =>
      { p with sweepAt := s.now, sweepInterval := iv, changedAt := if ch || p.sweepAt == 0 then s.now else p.changedAt
               errConsumer := dbError b }
    let s := forAll (List.range 32) (fun s n => s.modPage f fun p => p.modCq n fun c => { c with consumer := dbConsumer b n }) s
    let s := State.flushRecs f 16 s
    forAll (List.range 32) (fun s n => sweepRing f n (dbProducer b n) s) s

def execDoorbellSweep (f : Nat) (block : List Byte) (s : State) : Res := .next (doorbellSweep f block s)

/-! ### Descriptors (R134 to R138) -/

/-- A little-endian field of a descriptor, by its offset. -/
def Desc.f (d : Desc) (o n : Nat) : Nat := fieldLE d.body (o - 0x10) n
def Desc.dir (d : Desc) : Nat := d.f 0x28 1
def Desc.port (d : Desc) : Nat := d.f 0x29 1
def Desc.hostAddr (d : Desc) : Nat := d.f 0x10 8
def Desc.devAddr (d : Desc) : Nat := d.f 0x18 8
def Desc.length (d : Desc) : Nat := d.f 0x20 8
def Desc.irqNow (d : Desc) : Bool := bit d.flags 0
def Desc.noCompletion (d : Desc) : Bool := bit d.flags 1
def Desc.chainEnd (d : Desc) : Bool := bit d.flags 2 && d.chain != 0
def Desc.bricks (d : Desc) : List Nat := (List.range 16).filter fun b => bit (d.f 0x1C 2) b

/-- The fields of a descriptor (R134). -/
def parseDesc (index now : Nat) (b : List Byte) : Desc :=
  { index := index, type := fieldLE b 0 1, flags := fieldLE b 1 1, tag := fieldLE b 2 2, dlnMode := fieldLE b 4 1
    chain := fieldLE b 6 2, deadline := fieldLE b 8 8, body := sliceB b 0x10 48, fetchTime := now, malformed := none
    stopped := false, plain := false, missed := false, aborted := none }

/-- A reserved field of a descriptor's layout, or a reserved flag, is not zero (R134). -/
def reservedSet (b : List Byte) : Bool :=
  let z (o n : Nat) : Bool := ! zeroField b o n
  let t := fieldLE b 0 1
  z 5 1 || bits (fieldLE b 1 1) 7 3 != 0 ||
  (if t = 0 then z 0x10 48
   else if t = 1 then z 0x1F 1 || z 0x30 16
   else if t = 2 then z 0x2A 22
   else if t = 5 then z 0x18 40
   else z 0x11 3 || z 0x18 40)

/-- A range lies in the partition's range (R136). -/
def State.inPart (s : State) (f a n : Nat) : Bool :=
  let r := s.range f
  decide (r.1 ≤ a) && decide (a + n ≤ r.2)

/-- A mask of bricks is empty or leaves the partition's live bricks (R140, R585). -/
def State.maskBad (s : State) (f : Nat) (d : Desc) : Bool :=
  decide (d.f 0x1C 2 = 0) || d.bricks.any fun b => ! (s.liveBricks f).contains b

/-- WAIT_RING names its own ring, a disabled one, or none (R140). -/
def State.ringBad (s : State) (f n : Nat) (d : Desc) : Bool :=
  d.f 0x10 1 == n || decide (31 < d.f 0x10 1) || (s.sq f (d.f 0x10 1)).state == .disabled

/-- The DETAIL of a malformed descriptor: the first test of the DETAIL table that fails (R135, R136, R140, R585). -/
def State.malformed (s : State) (f n : Nat) (b : List Byte) (d : Desc) : Option Nat :=
  let t := d.type
  let lenOk := decide (64 ≤ d.length) && decide (d.length ≤ 2 ^ 32) && d.length % 64 == 0
  let bl := d.f 0x18 4
  firstFail [
    (0x01, decide (5 < t)),
    (0x02, decide (t ≤ 5) && reservedSet b),
    (0x03, decide (3 < d.dlnMode) || (d.dlnMode == 3 && t != 4)),
    (0x04, (t == 1 && (d.f 0x10 8 % 4096 != 0 || d.f 0x28 8 % 64 != 0 || ! s.inPart f (d.f 0x10 8) (max bl 1))) ||
      (t == 2 && (d.hostAddr % 64 != 0 || d.devAddr % 64 != 0 || (lenOk && ! s.inPart f d.devAddr d.length))) ||
      (t == 5 && d.hostAddr % 8 != 0)),
    (0x05, t == 1 && s.maskBad f d),
    (0x06, t == 1 && decide (Config.contexts ≤ d.f 0x1E 1)),
    (0x07, t == 2 && (decide (2 < d.port) || (d.port != 0 && f != 0))),
    (0x08, (t == 1 && (decide (bl < 256) || decide (Config.maxBundleBytes < bl))) || (t == 2 && ! lenOk)),
    (0x09, t == 3 && s.ringBad f n d),
    (0x0A, (d.dlnMode == 1 || d.dlnMode == 2 || d.dlnMode == 3) &&
      (decide ((s.part f).quota ≤ s.slotsHeld f) || s.freeSlot.isNone)),
    (0x0C, t == 2 && decide (1 < d.dir))]

/-! ### Chains (R137) -/

def State.chain? (s : State) (f id : Nat) : Option Chain := s.chains.find? fun c => c.part == f && c.id == id

/-- The chain a descriptor names is opened or joined. -/
def State.joinChain (s : State) (f n : Nat) (d : Desc) : State :=
  if d.chain = 0 then s
  else if (s.chain? f d.chain).isSome then
    { s with chains := s.chains.map fun c =>
        if c.part = f ∧ c.id = d.chain then { c with closing := c.closing || d.chainEnd, members := c.members + 1 } else c }
  else
    { s with chains := { part := f, id := d.chain, sq := n, sqIndex := d.index, policy := (s.sq f n).policy, aborted := false
                         closing := d.chainEnd, members := 1 } :: s.chains }

def State.dropChain (s : State) (f id : Nat) : State :=
  { s with chains := s.chains.filter fun c => ! (c.part == f && c.id == id) }

/-- The slot a descriptor binds at fetch (R138, R575 to R577), armed as its mode says; for mode 3 at once when the epoch is
open or closed already (R458). -/
def State.bindSlot (s : State) (f n : Nat) (d : Desc) : State :=
  match s.freeSlot with
  | none => s
  | some k =>
    let x := match if d.chain = 0 then none else s.chain? f d.chain with
      | some c => { Slot.mk0 f d.dlnMode (.chain d.chain) c.policy c.sq c.sqIndex with chain := d.chain }
      | none => Slot.mk0 f d.dlnMode (.desc n d.index) (s.sq f n).policy n d.index
    let x := { x with bySq := n, byIndex := d.index, tag := d.tag }
    let x := if d.dlnMode = 3 then { x with offset := d.deadline, stream := d.f 0x10 1, exposure := d.f 0x14 4 } else x
    let stamp? := match s.epoch? x.stream x.exposure with
      | some e => some e.stamp
      | none => ((s.istream x.stream).closed.find? fun c => c.exposure == x.exposure).map (·.ts)
    let x := if d.dlnMode = 1 then x.arm s.now d.deadline
      else if d.dlnMode = 2 then x.arm s.now (s.now + d.deadline)
      else match stamp? with
        | some t => x.arm s.now (t + d.deadline)
        | none => x
    s.putSlot k x

/-- DESCRIPTOR_FETCH: the next published descriptor is copied into the device, joins its chain, binds its slot (R124, R130,
R137, R138); it returns the device from IDLE (R541). -/
def descriptorFetch (f n : Nat) (b : List Byte) (s : State) : State :=
  let q := s.sq f n
  if ! s.ringsOn f || q.state != .enabled || q.disabling || q.ahead q.producer == 0 then s
  else
    let s := s.wakeUp
    let d0 := parseDesc q.fetched s.now b
    let d := { d0 with malformed := s.malformed f n b d0, plain := s.reuseOff f }
    let s := s.joinChain f n d
    let s := if d.malformed.isNone && d.dlnMode != 0 then s.bindSlot f n d else s
    s.modSq f n fun q => { q with fetched := (q.fetched + 1) % 2 ^ 32, queue := q.queue ++ [d] }

def execDescriptorFetch (f n : Nat) (bytes : List Byte) (s : State) : Res := .next (descriptorFetch f n bytes s)

/-! ### Starting (R129, R131) -/

/-- A descriptor of the chain is in flight. -/
def State.chainBusy (s : State) (f id : Nat) : Bool :=
  id != 0 && (s.page f).sqs.any fun x => (x.2.cur.map (·.desc.chain)) == some id

def State.cqOf (s : State) (f n : Nat) : Cq := (s.page f).cq (s.sq f n).cqIndex

/-- The descriptor whose turn it is on a ring: the first fetched, with none in flight, the completion ring not full, and
no descriptor of its chain in flight. -/
def State.head? (s : State) (f n : Nat) : Option Desc :=
  match (s.sq f n).cur, (s.sq f n).queue with
  | none, d :: _ => if (s.cqOf f n).room && ! s.chainBusy f d.chain then some d else none
  | _, _ => none

/-- How a descriptor ends without running: by its deadline, stopped with its ring, aborted with its chain, malformed (R139 to
R141, R151). -/
def State.unrun (s : State) (f : Nat) (d : Desc) : Option Ending :=
  if d.aborted.isSome then d.aborted
  else if d.stopped then some (Ending.mk0 6 s.now)
  else if d.chain != 0 && ((s.chain? f d.chain).map (·.aborted)).getD false then some (Ending.mk0 4 s.now)
  else d.malformed.map fun x => { Ending.mk0 1 s.now with detail := x }

/-- The head of a ring becomes the descriptor in flight. -/
def State.letRun (s : State) (f n : Nat) (d : Desc) (out : Option Ending) : State :=
  s.modSq f n fun q => { q with queue := q.queue.tail, cur := some { desc := d, out := out, missed := d.missed } }

/-- The head of a ring starts, if it is of a type and may run. -/
def State.starting (s : State) (f n type : Nat) : Option (State × Desc) :=
  if s.ringsOn f && (s.sq f n).state == .enabled && ! (s.sq f n).disabling then
    match s.head? f n with
    | some d => if d.type = type ∧ s.unrun f d = none then some (s.letRun f n d none, d) else none
    | none => none
  else none

/-- The descriptor in flight completes OK with a result. -/
def State.okDesc (s : State) (f n result : Nat) : State := s.endDesc f n { Ending.mk0 0 s.now with result := result }

/-- The descriptor in flight faults; its completion waits for its record (R142, R562). -/
def State.faultDesc (s : State) (f n : Nat) (r : ErrRec) (result : Nat) : State :=
  match (s.sq f n).cur with
  | none => s
  | some c =>
    (s.endDesc f n (Ending.faulted r.code result s.now)).raise
      { rec0 := r.ofDesc n c.desc, unit := noUnit, row := 0, scope := .desc f n }

/-- NOP. -/
def execNop (f n : Nat) (s : State) : Res :=
  match s.starting f n 0 with
  | some (s, _) => .next (s.okDesc f n 0)
  | none => .next s

/-- The descriptor in flight is found malformed as it would start. -/
def State.malDesc (s : State) (f n detail : Nat) : State := s.endDesc f n { Ending.mk0 1 s.now with detail := detail }

/-- RUN_LIST: the list becomes the descriptor in flight and waits until it can start (R163); a brick retired since the
fetch lies outside the partition (R585). -/
def execRunList (f n : Nat) (s : State) : Res :=
  match s.starting f n 1 with
  | some (s, d) => if s.maskBad f d then .next (s.malDesc f n 0x05) else .next s
  | none => .next s

/-! ### HOST_COPY (R133, R135, R136, R143) -/

/-- The parts of a copy through each port: host address, offset, length, port. PORT 2 alternates by 4 KiB of host address
space (R135). -/
def copyParts (port addr : Nat) : Nat → Nat → Nat → List (Nat × Nat × Nat × Nat)
  | 0, _, _ => []
  | k + 1, off, n =>
    if n = 0 then []
    else if port ≠ 2 then [(addr + off, off, n, port)]
    else
      let m := min n (4096 - (addr + off) % 4096)
      (addr + off, off, m, b2n (bit (addr + off) 12)) :: copyParts port addr k (off + m) (n - m)

/-- The parts of the first `n` bytes of a copy. -/
def Desc.parts (d : Desc) (n : Nat) : List (Nat × Nat × Nat × Nat) :=
  copyParts d.port d.hostAddr (n / 4096 + 2) 0 n

/-- The first `n` bytes of a copy move (R143). -/
def State.moveCopy (s : State) (f : Nat) (d : Desc) (n : Nat) (data : List Byte) : State :=
  if n = 0 then s
  else if d.dir = 0 then
    let s := forAll (d.parts n) (fun s p => s.emit (.hostRead f p.2.2.2 p.1 p.2.2.1)) s
    (s.storeDev d.devAddr (sliceB data 0 n)).charge f n
  else
    let s := forAll (d.parts n) (fun s p => s.emit (.hostWrite f p.2.2.2 p.1 (s.mem.read (d.devAddr + p.2.1) p.2.2.1))) s
    let s := if d.port = 0 then s else s.emit (.hostRead f 1 d.hostAddr 0)
    s.charge f n

/-- The record of a host request's failure: code, HIO die, PCIe completion status (R565). -/
def State.hostRec (s : State) (f code port addr status : Nat) : ErrRec :=
  { linkRec s.now code 2 noUnit f 0 0 0 0 0 status with die := 0x24 + port, addr := addr }

/-- A copy in flight fails after `n` bytes (R143). -/
def State.failCopy (s : State) (f n : Nat) (d : Desc) (count : Nat) (data : List Byte) (code status : Nat) : State :=
  let k := min count d.length
  let s := if (s.accessFault f d.devAddr d.length).isSome then s else s.moveCopy f d k data
  s.faultDesc f n (s.hostRec f code (if d.port = 1 then 1 else 0) (d.hostAddr + k) status) k

/-- Where the first poisoned location of a range begins. -/
def Mem.firstPoison (m : Mem) (a n : Nat) : Option Nat :=
  ((m.poison.filter fun p => decide (a < 64 * p + 64) && decide (64 * p < a + n)).head?).map (64 * ·)

/-- A whole copy. -/
def State.hostCopy (s : State) (f n : Nat) (d : Desc) (data : List Byte) : State :=
  match if d.port = 0 then none else s.hio1Down with
  | some code => s.faultDesc f n (s.hostRec f code 1 d.hostAddr 0) 0
  | none =>
    match s.accessFault f d.devAddr d.length with
    | some c =>
      let r0 := ErrRec.mk0 s.now c (if c = 0x2011 then 4 else 2) 0x24 noUnit f
      s.faultDesc f n { r0 with addr := d.devAddr } 0
    | none =>
      match if d.dir = 1 then s.mem.firstPoison d.devAddr d.length else none with
      | some p =>
        let r0 := memRec s.now 0x2003 2 noUnit f p (pcOf p) 0 0 (localOf p) 0 0 0
        (s.moveCopy f d (p - d.devAddr) data).faultDesc f n r0 (p - d.devAddr)
      | none => (s.moveCopy f d d.length data).okDesc f n d.length

/-- HOST_COPY: the bytes move and the descriptor is due (R135, R143). `data` is what the host answers its reads with. -/
def execHostCopy (f n : Nat) (data : List Byte) (s : State) : Res :=
  match s.starting f n 2 with
  | some (s, d) => .next (s.hostCopy f n d data)
  | none => .next s

/-- The copy in flight on a ring: its head, as it starts. -/
def State.copyOn (s : State) (f n : Nat) : Option (State × Desc) := s.starting f n 2

/-- The copies through HIO1 that the port's loss ends, with how far each had come (R143, R156, R158). -/
def State.failHio1 (s : State) (code : Nat) (ps : List Progress) : State :=
  let s := forAll ps (fun s p =>
    match s.copyOn 0 p.sq with
    | some (t, d) => if d.port = 0 then s else t.failCopy 0 p.sq d p.count p.data code 0
    | none => s) s
  { s with hio1Down := some code }

/-- What a failed host request does: a copy or the write of a TIMESTAMP faults, a failed fetch puts its ring, a failed doorbell read every enabled ring
of the function, into ERROR with 0x3033 (R143, R151). -/
def State.hostFails (s : State) (f n : Nat) (r : HostReq) (code status : Nat) : State :=
  match r with
  | .copy count data =>
    match s.copyOn f n with
    | some (s, d) => s.failCopy f n d count data code status
    | none =>
      match s.starting f n 5 with
      | some (s, d) => s.faultDesc f n (s.hostRec f code 0 d.hostAddr status) 0
      | none => s
  | .descriptor =>
    let q := s.sq f n
    if s.ringsOn f && q.state == .enabled && ! q.disabling && q.ahead q.producer != 0 then
      s.ringError f n 0x3033 0x24 (q.base + 64 * (q.fetched % 2 ^ q.log2)) status
    else s
  | .doorbell =>
    if s.ringsOn f && (s.page f).anyRing then
      forAll ((List.range 32).filter fun k => (s.sq f k).state == .enabled && ! (s.sq f k).disabling)
        (fun s k => s.ringError f k 0x3033 0x24 (s.page f).dbBase status) s
    else s

/-- PCIE_ERROR_RESPONSE: Unsupported Request (completion status 1) or Completer Abort (4). -/
def execPcieErrorResponse (f n : Nat) (r : HostReq) (abort : Bool) (s : State) : Res :=
  .next (s.hostFails f n r 0x3030 (if abort then 4 else 1))

/-- PCIE_COMPLETION_TIMEOUT. -/
def execPcieCompletionTimeout (f n : Nat) (r : HostReq) (s : State) : Res := .next (s.hostFails f n r 0x3031 0)

/-! ### Waits and TIMESTAMP -/

/-- The count a WAIT_RING waits for is reached (R134). -/
def State.ringReached (s : State) (f : Nat) (d : Desc) : Bool :=
  decide (((s.sq f (d.f 0x10 1)).completed + 2 ^ 32 - d.f 0x14 4) % 2 ^ 32 < 2 ^ 31)

/-- WAIT_RING. -/
def execWaitRing (f n : Nat) (s : State) : Res :=
  match s.starting f n 3 with
  | some (s, d) =>
    if s.ringBad f n d then .next (s.malDesc f n 0x09)
    else if s.ringReached f d then .next (s.okDesc f n 0) else .next s
  | none => .next s

/-- The outcome a stream recorded for the exposure a WAIT_EPOCH names (R456). -/
def State.epochOutcome (s : State) (d : Desc) : Option ClosedEpoch :=
  (s.istream (d.f 0x10 1)).closed.find? fun c => c.exposure == d.f 0x14 4 && c.written

/-- A WAIT_EPOCH whose epoch is written ends: OK, DEGRADED for D1 to D3, or FAULT 0x4012 at D4 (R456). -/
def State.endWait (s : State) (f n : Nat) (d : Desc) (c : ClosedEpoch) : State :=
  if c.level = 4 then
    s.faultDesc f n (ingRec s.now 0x4012 2 { kind := 0x0C, index := d.f 0x10 1 } f 0 (d.f 0x10 1) 0 4 (d.f 0x14 4)) c.ts
  else s.endDesc f n { Ending.mk0 0 s.now with result := c.ts, degraded := c.level != 0 }

/-- WAIT_EPOCH (R456, R457). -/
def execWaitEpoch (f n : Nat) (s : State) : Res :=
  match s.starting f n 4 with
  | some (s, d) =>
    let k := d.f 0x10 1
    if 7 < k ∨ s.strOn k = false ∨ s.strPart k ≠ f then
      .next (s.faultDesc f n (ingRec s.now 0x4022 2 { kind := 0x0C, index := k } f 0 k 0 0 (d.f 0x14 4)) 0)
    else
      match s.epochOutcome d with
      | some c => .next (s.endWait f n d c)
      | none => .next s
  | none => .next s

/-- TIMESTAMP: device time as the descriptor runs goes to the host (R134). -/
def execTimestamp (f n : Nat) (s : State) : Res :=
  match s.starting f n 5 with
  | some (s, d) => .next ((s.emit (.hostWrite f 0 d.hostAddr (leBytes 8 s.now))).okDesc f n (s.now % 2 ^ 64))
  | none => .next s

/-! ### Completions (R131 to R133, R139 to R142, R149) -/

/-- A wait in flight whose condition holds ends; a head that will not run is taken. -/
def State.dueNow (s : State) (f n : Nat) : State :=
  match (s.sq f n).cur with
  | some { desc := d, out := none, missed := _ } =>
    if d.type = 3 then (if s.ringReached f d then s.okDesc f n 0 else s)
    else if d.type = 4 then
      match s.epochOutcome d with
      | some c => s.endWait f n d c
      | none => s
    else s
  | some _ => s
  | none =>
    match s.head? f n with
    | some d => match s.unrun f d with
      | some e => s.letRun f n d (some e)
      | none => s
    | none => s

/-- The record an ending belongs to has been written (R562). -/
def State.recorded (s : State) (f : Nat) (e : Ending) : Bool :=
  match e.errIndex with
  | some i => let k := ((s.page f).errProduced + 2 ^ 32 - i) % 2 ^ 32
              decide (0 < k) && decide (k < 2 ^ 31)
  | none => ! e.needRec

/-- A descriptor that completes OK under NO_COMPLETION writes nothing (R141). -/
def silent (d : Desc) (e : Ending) : Bool := d.noCompletion && e.status == 0

/-- The ending may be written now. -/
def State.canWrite (s : State) (f n : Nat) (d : Desc) (e : Ending) : Bool :=
  s.recorded f e && (silent d e || (s.cqOf f n).room)

/-- The slots of the item a descriptor's completion ends: its own, and its chain's when it closes it (R137, R577). -/
def Slot.endsWith (f n : Nat) (d : Desc) (x : Slot) : Bool :=
  x.part == f && (match x.item with
    | .desc sq i => d.chain == 0 && sq == n && i == d.index
    | .chain id => d.chainEnd && id == d.chain
    | _ => false)

/-- The vector of a completion ring is raised; count and age begin again (R149). -/
def State.signal (s : State) (f c : Nat) : State :=
  (s.modPage f fun p => p.modCq c fun q => { q with unsignalled := 0 }).msix f ((s.page f).cq c).vec

/-- The entry of a completion (R140), and the moderation of its vector (R149). -/
def State.putCompletion (s : State) (f n : Nat) (d : Desc) (e : Ending) (missed : Bool) : State :=
  let k := (s.sq f n).cqIndex
  let c := (s.page f).cq k
  let i := c.produced
  let flags := phaseBit i c.log2 + 2 * b2n e.errIndex.isSome + 4 * b2n missed + 8 * b2n e.degraded
  let s := s.emit (.completion f k i d.tag n flags e.status e.detail e.code (s.sq f n).fetched (e.errIndex.getD 0)
    (s.now % 2 ^ 64) (e.result % 2 ^ 64))
  let s := s.modPage f fun p => p.modCq k fun c =>
    { c with produced := (c.produced + 1) % 2 ^ 32, unsignalled := c.unsignalled + 1
             oldest := if c.unsignalled = 0 then s.now else c.oldest }
  if c.vec = 0 then s
  else if d.irqNow || decide (c.count ≤ c.unsignalled + 1) then s.signal f k else s

/-- A descriptor has completed: its ring and chain move on, its slots are free (R129, R137, R141, R577). -/
def State.retireDesc (s : State) (f n : Nat) (d : Desc) (e : Ending) : State :=
  let s := s.modSq f n fun q => { q with completed := (q.completed + 1) % 2 ^ 32, cur := none }.settled
  let s := if e.status = 0 ∨ d.chain = 0 then s else s.abortChain f d.chain
  let s := s.freeSlots (Slot.endsWith f n d)
  let s := if d.chainEnd then s.dropChain f d.chain else s
  { s with wdn := { s.wdn with idleSince := s.now } }

/-- The completion is written: first a slot whose item ends late misses (R578), and the ending it leaves waits for its
record. -/
def State.complete (s : State) (f n : Nat) : State :=
  match (s.sq f n).cur with
  | some { desc := d, out := some e, missed := _ } =>
    if s.canWrite f n d e then
      let s := match lateFirst s.now (s.slots.filter fun x => x.2.endsWith f n d) with
        | some k => s.missSlot k
        | none => s
      match (s.sq f n).cur with
      | some { desc := d, out := some e, missed := m } =>
        if s.canWrite f n d e then
          (if silent d e then s else s.putCompletion f n d e m).retireDesc f n d e
        else s
      | _ => s
    else s
  | _ => s

/-- COMPLETION_WRITE. -/
def execCompletionWrite (f n : Nat) (s : State) : Res :=
  if s.ringsOn f then .next ((s.dueNow f n).complete f n) else .next s

/-- IRQ_TIMER: the oldest unsignalled completion is IRQ_TIME old (R149). -/
def execIrqTimer (f n : Nat) (s : State) : Res :=
  let c := (s.page f).cq n
  if s.ringsOn f && c.enabled && c.vec != 0 && c.unsignalled != 0 && decide (c.oldest + c.time ≤ s.now) then
    .next (s.signal f n)
  else .next s

/-- A vector is unmasked: pending, it sends its one message (R149). -/
def State.unmask (s : State) (f vec : Nat) : State :=
  let e := (s.page f).msixAt vec
  let s1 := s.modPage f fun p => p.modMsix vec fun e => { e with masked := false, pending := false }
  if e.masked && e.pending then s1.emit (.msix f vec) else s1

/-- MSIX_UNMASK. -/
def execMsixUnmask (f vec : Nat) (s : State) : Res :=
  if s.phase != .up || decide (16 ≤ f) || decide ((if f = 0 then 34 else 33) ≤ vec) then .next s
  else .next (s.unmask f vec)

end Sys2Proof.Machine
end

