-- ==== Sys2Proof/Machine/Start.lean ====
section
/-! DEFINITION. List start: the bundle, its tables and its checks (R163 to R177, R198, R207, R265, R346). -/

namespace Sys2Proof.Machine

/-! ### The bundle (R166 to R172) -/

/-- The resource declaration (R169). -/
structure Resources where
  obBase : Nat
  obSize : Nat
  amBase : Nat
  amSize : Nat
  reuse : Nat
  counters : List Nat
deriving DecidableEq, Repr

/-- What a list runs on, as read at its start (R174): STRICT, resources, tile table, predicate words, deadline entries
(STREAM, COMMAND, OFFSET), the length of each stream's code, and the argument words of each rank. -/
structure Plan where
  strict : Bool
  res : Resources
  tiles : List (Nat × TileDesc)
  preds : List Nat
  dlns : List (Nat × Nat × Nat)
  streams : List Nat
  args : List (List Nat)
deriving DecidableEq, Repr

/-- Bytes read at list start, or the fault of the read (R366, R380, R612). -/
def State.listRead (s : State) (part a n : Nat) : Except Nat (List Byte) :=
  if n = 0 then .ok [] else
  match s.accessFault part a n with
  | some c => .error c
  | none => if s.mem.poisoned a n then .error 0x2003 else .ok (s.mem.read a n)

/-- No two ranges of a list overlap. -/
def disjointAll : List (Nat × Nat) → Bool
  | [] => true
  | a :: r => (r.all fun b => decide (a.1 + a.2 ≤ b.1) || decide (b.1 + b.2 ≤ a.1)) && disjointAll r

/-- Offset and length of the code of each stream (R166). -/
def bundleCode (h : List Byte) : List (Nat × Nat) :=
  (List.range 20).map fun i => (fieldLE h (0x40 + 8 * i) 4, fieldLE h (0x44 + 8 * i) 4)

/-- The sections of a bundle: offset and length; a table without entries and an empty stream are none (R167). -/
def bundleSections (h : List Byte) : List (Nat × Nat) :=
  ([(0, 256), (fieldLE h 0x10 4, 128), (fieldLE h 0x20 4, 32), (fieldLE h 0x14 4, 16 * fieldLE h 0x18 2),
    (fieldLE h 0x1C 4, 64 * fieldLE h 0x1A 2)] ++ bundleCode h).filter fun x => x.2 != 0

/-- 0x1001: MAGIC, CRC, TARGET, TOTAL_LEN, or a reserved header field (R166). -/
def headerBad (engineGen len : Nat) (h : List Byte) : Bool :=
  fieldLE h 0 4 != 0x4F504241 || crc32 (sliceB h 0 0xFC) != fieldLE h 0xFC 4 || fieldLE h 0x0C 4 != engineGen ||
  fieldLE h 8 4 != len || decide (1 < fieldLE h 6 2) || ! zeroField h 0x24 28 || ! zeroField h 0xE0 28

/-- 0x1003: a section misplaced, or a table too long (R166, R167). -/
def sectionsBad (h : List Byte) : Bool :=
  let total := fieldLE h 8 4
  let secs := bundleSections h
  decide (16 < fieldLE h 0x18 2) || decide (64 < fieldLE h 0x1A 2) ||
  (secs.any fun x => x.1 % 64 != 0 || decide (total < x.1 + x.2)) || ! disjointAll secs

/-- 0x1003: a reserved field or encoding in a table, or a duplicate tile entry (R169 to R172, R265). -/
def tablesBad (res dln tile pred : List Byte) : Bool :=
  let nd := dln.length / 16
  let nt := tile.length / 64
  let regs := (List.range nt).map fun i => fieldLE tile (64 * i) 1
  ! zeroField res 0x14 12 || ! zeroField res 0x60 32 || decide (8192 ≤ fieldLE res 0x10 4) ||
  ((List.range nd).any fun i => decide (19 < fieldLE dln (16 * i) 2) || ! zeroField dln (16 * i + 2) 2) ||
  (regs.any fun r => decide (63 < r)) || ! decide regs.Nodup ||
  ((List.range nt).any fun i => ! zeroField tile (64 * i + 1) 31) ||
  ((List.range 8).any fun i =>
    let w := fieldLE pred (4 * i) 4
    bit w 31 || bits w 29 14 != 0 || bits w 7 6 != 0)

def parseResources (b : List Byte) : Resources :=
  { obBase := fieldLE b 0 4, obSize := fieldLE b 4 4, amBase := fieldLE b 8 4, amSize := fieldLE b 0xC 4
    reuse := bits (fieldLE b 0x10 4) 12 0, counters := (List.range 16).map fun i => fieldLE b (0x20 + 4 * i) 4 }

/-- 0x1004 (R169). -/
def Resources.windowBad (r : Resources) : Bool :=
  let k := 65536
  r.obBase % k != 0 || r.obSize % k != 0 || r.amBase % k != 0 || r.amSize % k != 0 ||
  decide (Config.obBytes < r.obBase + r.obSize) || decide (Config.amBytes < r.amBase + r.amSize)

/-- 0x1005 (R173). -/
def State.argBad (s : State) (part arg ranks : Nat) : Bool :=
  arg != 0 && (arg % 64 != 0 || ! s.inPart part arg (256 * ranks))

/-- The 64 argument words of one rank (R173). -/
def argWords (b : List Byte) : List Nat := (List.range 64).map fun i => fieldLE b (4 * i) 4

/-- The argument blocks of all ranks; all zero when ARG_ADDR is 0 (R173). -/
def State.listArgs (s : State) (part arg ranks : Nat) : Except Nat (List (List Nat)) :=
  if arg = 0 then .ok (List.replicate ranks (List.replicate 64 0))
  else (s.listRead part arg (256 * ranks)).map fun b => (List.range ranks).map fun r => argWords (b.drop (256 * r))

/-- The start checks of a list in the order of R198, then 0x1118 (R265); what it will run on. -/
def State.plan (s : State) (part : Nat) (d : Desc) : Except Nat Plan := do
  let a := d.f 0x10 8
  let h ← s.listRead part a 256
  if headerBad s.fuses.engineGen (d.f 0x18 4) h then throw 0x1001
  if fieldLE h 4 1 ≠ s.boot.opba / 256 ∨ s.boot.opba % 256 < fieldLE h 5 1 then throw 0x1002
  if sectionsBad h then throw 0x1003
  let res ← s.listRead part (a + fieldLE h 0x10 4) 128
  let dln ← s.listRead part (a + fieldLE h 0x14 4) (16 * fieldLE h 0x18 2)
  let tile ← s.listRead part (a + fieldLE h 0x1C 4) (64 * fieldLE h 0x1A 2)
  let pred ← s.listRead part (a + fieldLE h 0x20 4) 32
  if tablesBad res dln tile pred then throw 0x1003
  let r := parseResources res
  if r.windowBad then throw 0x1004
  if s.argBad part (d.f 0x20 8) d.bricks.length then throw 0x1005
  if (s.part part).quota < s.slotsHeld part + fieldLE h 0x18 2 then throw 0x1006
  if Config.reuseTiles < r.reuse then throw 0x1118
  let args ← s.listArgs part (d.f 0x20 8) d.bricks.length
  return { strict := bit (fieldLE h 6 2) 0, res := r
           tiles := (List.range (fieldLE h 0x1A 2)).foldl (fun m i =>
             mapPut (fieldLE tile (64 * i) 1) (parseTile (sliceB tile (64 * i + 0x20) 32)) m) []
           preds := (List.range 8).map fun i => fieldLE pred (4 * i) 4
           dlns := (List.range (fieldLE h 0x18 2)).map fun i =>
             (fieldLE dln (16 * i) 2, fieldLE dln (16 * i + 4) 4, fieldLE dln (16 * i + 8) 8)
           streams := (bundleCode h).map (·.2), args := args }

/-! ### Room for the list (R163, R265) -/

/-- Two windows overlap. -/
def windowsMeet (b1 n1 b2 n2 : Nat) : Bool :=
  n1 != 0 && n2 != 0 && decide (b1 < b2 + n2) && decide (b2 < b1 + n1)

/-- The active contexts of a brick. -/
def State.activeOn (s : State) (b : Nat) : List Ctx := (s.ctxs.filter fun p => p.1 / 4 == b).map (·.2)

/-- Every brick of a list is powered, in service and not draining, and has the context free. -/
def State.ctxFree (s : State) (bricks : List Nat) (ctx : Nat) : Bool :=
  bricks.all fun b => (s.brick b).powered && (s.brick b).drain.isNone && ! s.outOfService (brickUnit b) &&
    (mapGet (b * 4 + ctx) s.ctxs).isNone

/-- The windows overlap no active context's, and the reuse entries fit, on every brick at once. -/
def State.roomFor (s : State) (bricks : List Nat) (r : Resources) : Bool :=
  bricks.all fun b =>
    let cs := s.activeOn b
    (cs.all fun c => ! windowsMeet r.obBase r.obSize c.obBase c.obSize && ! windowsMeet r.amBase r.amSize c.amBase c.amSize) &&
    decide ((cs.map (·.reuseCount)).sum + r.reuse ≤ Config.reuseTiles)

/-! ### The start (R164, R170, R207, R346) -/

/-- The initial value of a predicate (R172). -/
def predInit (args : List Nat) (w : Nat) : Bool :=
  if bits w 31 30 = 0 then bit w 5 else bit (args.getD (bits w 13 8) 0) (bits w 4 0)

/-- The context of one rank (R207). -/
def Plan.ctx (p : Plan) (owner part rank : Nat) : Ctx :=
  let args := p.args.getD rank []
  { owner := owner, part := part, rank := rank, strict := p.strict, obBase := p.res.obBase, obSize := p.res.obSize
    amBase := p.res.amBase, amSize := p.res.amSize, reuseCount := p.res.reuse, tiles := p.tiles, flags := []
    counters := p.res.counters, loops := List.replicate 8 { holder := none, idx := 0, count := 0 }
    preds := p.preds.map (predInit args), args := args
    streams := p.streams.map fun n => { ended := n == 0, busy := .idle, loops := [] }
    cxIn := [[], [], [], []], seedState := baseStrand (args.getD 62 0 + 2 ^ 32 * args.getD 63 0) rank, strands := [] }

/-- One deadline entry of the bundle binds the lowest free slot, armed from the list's start (R170, R575, R576). -/
def State.bindEntry (s : State) (f n i : Nat) (d : Desc) (e : Nat × Nat × Nat) : State :=
  match s.freeSlot with
  | none => s
  | some k =>
    let (ring, index, pol) := match if d.chain = 0 then none else s.chain? f d.chain with
      | some c => (c.sq, c.sqIndex, c.policy)
      | none => (n, d.index, (s.sq f n).policy)
    let x := { Slot.mk0 f 4 (.entry n i) pol ring index with
      bySq := n, byIndex := d.index, tag := d.tag, chain := d.chain, offset := e.2.1, stream := e.1 }
    s.putSlot k (x.arm s.now (s.now + e.2.2))

/-- A list fails its start checks: no command of it runs (R198, R201). -/
def State.startFault (s : State) (f n : Nat) (d : Desc) (code : Nat) : State :=
  let b := d.bricks.headD 0
  let r0 := ErrRec.mk0 s.now code (if code = 0x2011 then 4 else 2) b noUnit f
  let r : ErrRec := { r0 with
    detail := if code / 4096 = 1 then detailOf ([(1, 0), (1, d.f 0x1E 1), (1, 0), (1, 0)] ++ List.replicate 8 (1, 0xFF))
              else r0.detail }
  s.faultList (ownerOf f n) r

/-- The list starts: contexts, deadline slots, streams (R163, R170, R207). -/
def State.startList (s : State) (f n : Nat) (d : Desc) (p : Plan) : State :=
  let bricks := d.bricks
  let owner := ownerOf f n
  let ctx := d.f 0x1E 1
  let l : RunningList :=
    { owner := owner, part := f, ctx := ctx, bricks := bricks, startTime := s.now, statsAddr := d.f 0x28 8
      reusable := ! (s.reuseOff f || d.plain)
      dlns := p.dlns.map fun e => { stream := e.1, command := e.2.1, offset := e.2.2, done := [] }
      lastActive := s.now, eligible := 0, reused := 0, voids := 0 }
  let s := { s with
    lists := l :: s.lists
    ctxs := (bricks.zip (List.range bricks.length)).foldl
      (fun m b => mapPut (b.1 * 4 + ctx) (p.ctx owner f b.2) m) s.ctxs }
  let s := forAll (p.dlns.zip (List.range p.dlns.length)) (fun s e => s.bindEntry f n e.2 d e.1) s
  s.tryComplete owner

/-- LIST_START: the RUN_LIST in flight starts once its bricks are free, or faults its start checks (R163, R198). -/
def listStart (f n : Nat) (s : State) : State :=
  match (s.sq f n).cur with
  | some { desc := d, out := none, missed := _ } =>
    if d.type ≠ 1 || ! s.ringsOn f || (s.list? (ownerOf f n)).isSome || ! s.ctxFree d.bricks (d.f 0x1E 1) then s
    else
      match s.plan f d with
      | .error c => s.startFault f n d c
      | .ok p => if s.roomFor d.bricks p.res then s.wakeUp.startList f n d p else s
  | _ => s

def execListStart (f n : Nat) (s : State) : Res := .next (listStart f n s)

end Sys2Proof.Machine
end

