-- ==== Sys2Proof/Machine/Reset.lean ====
section
/-! DEFINITION. Partition resets, store drains and the warm reset (R63 to R67, R112, R153 to R158, R582, R587, R633). -/

namespace Sys2Proof.Machine

/-! ### Rings that a reset ends (R65, R157) -/

/-- A submission ring after a reset: disabled and empty, its set-up kept. -/
def Sq.cleared (q : Sq) : Sq := { Sq.reset with base := q.base, ctrl := q.ctrl % 2 ^ 31 }

/-- A completion ring after a reset. -/
def Cq.cleared (c : Cq) : Cq := { Cq.reset with base := c.base, ctrl := c.ctrl % 2 ^ 31, irq := c.irq }

/-- A page after a partition reset: every ring disabled, the lock and the driver class cleared, the records it held lost
(R102, R112, R157). -/
def Page.ringsReset (p : Page) : Page :=
  { p with
    locked := false, cls := 0, ifverSet := false
    sqs := (p.sqs.map fun x => (x.1, x.2.cleared)).filter fun x => x.2 != Sq.reset
    cqs := (p.cqs.map fun x => (x.1, x.2.cleared)).filter fun x => x.2 != Cq.reset
    errCtrl := p.errCtrl % 2 ^ 31, errEnabled := false, errProduced := 0, errConsumer := 0
    errHeld := [], errDropped := sat32 (p.errDropped + p.errHeld.length)
    sweepInterval := 500, sweepAt := 0 }

/-- Pending messages of a function are dropped (F1 of R153). -/
def Page.dropMsgs (p : Page) : Page :=
  { p with msix := (p.msix.map fun x => (x.1, { x.2 with pending := false })).filter fun x => x.2 != MsixEntry.reset }

/-- The descriptor in flight on a ring ends with the reset: its list stops, and a completion is written where the
completion ring is enabled and has room (R157): RESET, or the ending it already had if its record is written. -/
def resetRing (f n : Nat) (write : Bool) (s : State) : State :=
  match (s.sq f n).cur with
  | none => s
  | some _ =>
    let s := s.endList (ownerOf f n) (Ending.mk0 5 s.now)
    match (s.sq f n).cur with
    | some { desc := d, out := some e, missed := m } =>
      let e := if s.recorded f e then e else Ending.mk0 5 s.now
      if write && (s.cqOf f n).enabled && (s.cqOf f n).room && ! silent d e then s.putCompletion f n d e m else s
    | _ => s

/-- What a partition's work holds is gone: chains, deadline slots, open epochs, held records (R65, R157). -/
def State.clearWork (s : State) (n : Nat) : State :=
  { s.abandonPart n with
    chains := s.chains.filter fun c => c.part != n
    slots := s.slots.filter fun x => x.2.part != n }

/-! ### Partition resets (R153, R157) -/

/-- The partition's bricks that are still draining for its reset. -/
def State.resetRuns (s : State) (n : Nat) : Bool := s.bricks.any fun b => b.drain == some (.reset n)

/-- F3 has completed: F4 (R153). -/
def State.endReset (s : State) (n : Nat) : State :=
  if (s.part n).resetting && ! s.resetRuns n then
    let s := if (s.part n).flr then s.modPage n fun _ => Page.reset else s
    s.modPart n fun p => { p with resetting := false, flr := false }
  else s

/-- A partition reset; `flr` when a function-level reset starts it, which forbids host writes. One that meets another is
absorbed (R66). -/
def State.partReset (s : State) (n : Nat) (flr : Bool) : State :=
  if (s.part n).resetting then
    if flr then (s.modPart n fun p => { p with flr := true }).modPage n Page.dropMsgs else s
  else
    let s := forAll (List.range 32) (fun s k => resetRing n k (! flr && s.hio0Up) s) s
    let s := (s.clearWork n).modPage n Page.ringsReset
    let s := if flr then s.modPage n Page.dropMsgs else s
    let s := forAll (s.partBricks n) (fun s b => s.modBrick b fun k =>
      if k.powered && k.drain != some .retire then { k with drain := some (.reset n) } else k) s
    (s.modPart n fun p => { p with resetting := true, flr := flr }).endReset n

/-! ### Drains (R582, R543, R584) -/

/-- No brick drains toward DOZE any more: the device is in DOZE, and leaves it at once if a wake waits (R543). -/
def State.dozeDone (s : State) : State :=
  if s.wdn.busy && s.wdn.st == .idle && ! s.bricks.any fun b => b.drain == some .doze then
    if s.wdn.waking then (s.setPwr .doze).leaveDoze else s.setPwr .doze
  else s

/-- The descriptors of ended lists whose completions wait for the record of a brick's retirement. -/
def State.waitRetire (s : State) (b : Nat) : List (Nat × Nat × Desc) :=
  (List.range 16).flatMap fun f => (s.page f).sqs.filterMap fun x =>
    match x.2.cur with
    | some { desc := d, out := some e, missed := _ } =>
      if e.code = 0x1064 ∧ e.needRec = true ∧ d.bricks.contains b = true then some (f, x.1, d) else none
    | _ => none

/-- A retired brick's record (R584). -/
def State.brickRec (s : State) (b part : Nat) : ErrRec :=
  let r := ErrRec.mk0 s.now 0x1064 2 b (brickUnit b) part
  { r with permanent := true, retired := true, bucket := s.bucketCount (brickUnit b), threshold := 64 }

/-- Q3 and Q4 of a brick's retirement: it is reset, isolated and RETIRED, and 0x1064 is recorded (R584). -/
def State.brickGone (s : State) (b : Nat) : State :=
  let s := (s.modBrick b fun k => { k.fresh with powered := false }).setUnit (brickUnit b) .retired
  match s.waitRetire b with
  | [] => s.raise { rec0 := s.brickRec b ((s.brickOwner b).getD 0), unit := brickUnit b, row := 0, scope := .none }
  | ds => forAll ds (fun s d =>
      s.raise { rec0 := (s.brickRec b d.1).ofDesc d.2.1 d.2.2, unit := brickUnit b, row := 0, scope := .desc d.1 d.2.1 }) s

/-- A brick's queued stores have drained. -/
def drained (b : Nat) (s : State) : State :=
  match (s.brick b).drain with
  | none => s
  | some .doze => (s.modBrick b fun k => { k with drain := none, powered := false }).dozeDone
  | some (.reset n) => (s.modBrick b BrickS.fresh).endReset n
  | some .retire => s.brickGone b

/-- STORE_DRAIN: the brick reset, power-down or retirement that waited for it goes on (R582). -/
def execStoreDrain (brick : Nat) (s : State) : Res := if s.phase = .up then .next (drained brick s) else .next s

/-- The locations that dropped stores target are poisoned, with 0x1061 (R582). -/
def State.dropStores (s : State) (b : Nat) (targets : List Nat) : State :=
  let ls := targets.filter fun l => decide (l < Config.deviceEnd / 64)
  let s := { s with mem := ls.foldl Mem.poisonAt s.mem }
  if ls = [] then s else s.raise1 0x1061 1 (brickUnit b) ((s.brickOwner b).getD 0)

/-- DRAIN_TIMEOUT: after 20 us a reset or a retirement drops what is left; an entry to DOZE is abandoned with 0x5040
(R543, R582). `targets` are the 64-byte locations of the stores left. -/
def drainTimeout (b : Nat) (targets : List Nat) (s : State) : State :=
  match (s.brick b).drain with
  | none => s
  | some .doze =>
    let s := { s with bricks := s.wakeBricks BrickS.undoze }
    ((if s.wdn.waking then s.setPwr .run else s.setPwr .idle).raise1 0x5040 2 noUnit 0)
  | some _ => drained b (s.dropStores b targets)

def execDrainTimeout (brick : Nat) (targets : List Nat) (s : State) : Res :=
  if s.phase = .up then .next (drainTimeout brick targets s) else .next s

/-! ### The warm reset (R63, R582, R587, R611, R633) -/

/-- The dirty lines of stacks whose controllers are not healthy. -/
def State.lostLines (s : State) (unhealthy : List Nat) : List Nat :=
  s.mortar.dirty.filter fun l => unhealthy.contains (pcOf (128 * l) / 64)

/-- A dropped line: what its bytes hold then is private to the cache (R385, R582). -/
def State.loseLine (s : State) (l : Nat) : State :=
  let bs := (List.range 128).map fun i => Config.lostByte (s.free + i)
  { s with mem := { s.mem.put devGranule (128 * l) bs with written := s.mem.written }, free := s.free + 128 }

/-- The windows SEC_WARM_CLEAR names (R611). -/
def State.warmClear (s : State) : State :=
  let m := s.regN 0x700024
  forAll ((List.range 24).filter fun i => (s.windows.getD i Window.reset).valid && bit m (min i 16)) (fun s i =>
    let w := s.windows.getD i Window.reset
    s.wipeDev (w.base * Config.gib) ((w.limit - w.base) * Config.gib)) s

/-- Units that a warm reset tests (R587): bricks, ways, slices and ports that are not in service, but for the ways that
share their slice's fate (R560). -/
def State.warmTests (s : State) : List UnitKey :=
  (s.repair.units.map (·.1)).filter fun u =>
    (u.kind == 1 || u.kind == 2 || u.kind == 3 || u.kind == 6 || u.kind == 7) &&
    ! (u.kind == 2 && s.mortar.withSlice.contains u.index)

/-- A unit back in service with an empty bucket; a slice brings its ways (R560, R587). -/
def State.unitBack (s : State) (u : UnitKey) : State :=
  let s := (s.setUnit u .inService).bucketClear u
  if u.kind ≠ 3 then s
  else
    let ws := s.mortar.withSlice.filter fun w => w / 16 == u.index
    let s := forAll ws (fun s w => s.setUnit { kind := 2, index := w } .inService) s
    { s with mortar := { s.mortar with withSlice := s.mortar.withSlice.filter fun w => w / 16 != u.index } }

/-- U1 on every retired unit (R587); what was being retired or readmitted counts as retired. -/
def State.warmUnits (s : State) (failed : List UnitKey) : State :=
  forAll s.warmTests (fun s u => if failed.contains u then s.setUnit u .retired else s.unitBack u) s

/-- The readmission in progress ends with the reset: its pseudo-channel is RETIRED again (R587). -/
def State.warmReadmit (s : State) : State :=
  let s := match s.repair.readmit with
    | some m => if m.unit.kind = 5 then s.setUnit m.unit .retired else s
    | none => s
  { s with repair := { s.repair with readmit := none } }

/-- The node table after a warm reset: its reset value, with the nodes of slices that stay retired given out, slice by
slice; no slice in service at all is a DEVICE fault (R384). -/
def State.warmNodes (s : State) : State :=
  let s := { s with mortar := { s.mortar with nodes := (List.range 256).map NodeEnt.reset } }
  if (List.range 8).all fun k => ! s.sliceUp k then s.raise1 0x2033 4 (sliceUnit 0) 0
  else
    forAll ((List.range 8).filter fun k => ! s.sliceUp k) (fun s k =>
      match s.spread (s.nodesAt k) k s.mortar.nodes with
      | some nodes =>
        { s with mortar := { s.mortar with nodes := nodes.map fun e => { e with donor := 0 } } }
      | none => s) s

/-- The debug registers, which only a cold reset clears (R643). -/
def isDebugReg (off : Nat) : Bool := decide (0x800000 ≤ off) && decide (off < 0x1000000)

/-- Every register, ring, table and port that a warm reset clears (R63, R633). -/
def State.warmState (s : State) (lost : Nat) : State :=
  { s with
    regs := s.regs.filter fun p => isDebugReg p.1
    lowWords := [], latches := [], locked := false, wrIgnored := 0, wrLast := 0
    parts := List.replicate 16 Partition.reset, pages := List.replicate 16 Page.reset
    chains := [], slots := [], lists := [], ctxs := []
    bricks := (List.range 16).map fun b =>
      { BrickS.reset with powered := s.unit (brickUnit b) == .inService }
    windows := s.windows.map fun w => { Window.reset with key := w.key, lost := w.lost }
    resvStatus := 0
    flash := { s.flash with addr := 0, buf := [] }
    mortar := { s.mortar with
      moves := [], dirty := [], skipWays := []
      regs := List.replicate 128 { tokens := 0, charged := 0, borrowed := 0 } }
    repair := { s.repair with
      inHand := none, queue := [], status := 0, query := 0, dropped := [], warmLost := some (lost % 2 ^ 31) }
    ing := IngS.reset
    haw := { s.haw with
      ports := (List.range 16).map fun p =>
        { HawPort.reset with state := if s.unit (hawUnit p) == .inService then .down else .retired
                             txCount := (s.haw.ports.getD p HawPort.reset).txCount }
      conns := [], planes := [], remote := [], colls := [], jobReason := 0, jobPart := 0, reserved := 0 }
    ptp := PtpS.reset
    sec := { s.sec with mboxBuf := [] } }

/-- The effects of a warm reset, which the model takes at once; READY changes, so vector 33 is raised (R147). -/
def warmReset (w : WarmIn) (s : State) : State :=
  let s := s.releasePins (s.lists.flatMap RunningList.keys)
  let lost := s.lostLines w.unhealthy
  let s := forAll lost State.loseLine s
  let ls := w.undrained.filter fun l => decide (l < Config.deviceEnd / 64)
  let s := ({ s with mem := ls.foldl Mem.poisonAt s.mem }).warmClear
  let s := ((s.warmReadmit.warmUnits w.selfTestFail).warmState lost.length).warmNodes
  let s := if ls = [] then s else s.raise1 0x1061 1 noUnit 0
  let s := if s.wdn.st = .warden then s.latchWake else s.setPwr .run
  s.deviceEvent

/-- A warm reset is performed: the device is up and READY, not in RECOVERY, FAILED, stopped or seized (R67, R573, R622). -/
def State.warmable (s : State) : Bool := s.phase == .up && s.boot.ready && s.wdn.st != .off

def State.warm (s : State) (w : WarmIn) : State := if s.warmable then warmReset w s else s

end Sys2Proof.Machine
end

