-- ==== Sys2Proof/Machine/Faults.lean ====
section
/-! DEFINITION. The error handler: records, severities, retirement and readmission (R552 to R590). -/

namespace Sys2Proof.Machine

/-! ### Records and completions (R562) -/

/-- An ending learns its record's index, or that the record is lost. -/
def Ending.noted (i : Option Nat) (e : Ending) : Ending :=
  if e.needRec = true ∧ e.errIndex = none then
    (match i with
      | some k => { e with errIndex := some k }
      | none => { e with needRec := false })
  else e

/-- The completion that waits for an error's record learns its index, or that it is lost. -/
def State.noteRec (s : State) (sc : ErrScope) (i : Option Nat) : State :=
  match sc with
  | .none => s
  | .desc f n => s.modSq f n fun q =>
      { q with cur := q.cur.map fun c => { c with out := c.out.map (Ending.noted i) } }
  | .queued f n k => s.modSq f n fun q =>
      { q with
        cur := q.cur.map fun c => if c.desc.index = k then { c with out := c.out.map (Ending.noted i) } else c
        queue := q.queue.map fun d => if d.index = k then { d with aborted := d.aborted.map (Ending.noted i) } else d }

/-- A record is written to its function's ring and, from UNIT up, copied to PF0's (R145, R562). -/
def State.deliver (s : State) (r : ErrRec) (sc : ErrScope) : State :=
  let f := r.part % 16
  let w := s.writeRec f r
  let s := w.1
  let s := if decide (2 ≤ r.severity) && f != 0 then (s.writeRec 0 { r with copy := true }).1 else s
  s.noteRec sc w.2

/-! ### The DEVICE sequence (R572, R573) -/

/-- Every list, context, chain, slot and queued error is gone, every ring disabled. -/
def State.halted (s : State) (ph : Phase) : State :=
  { s with
    phase := ph, lists := [], ctxs := [], chains := [], slots := []
    pages := s.pages.map Page.ringsReset
    repair := { s.repair with inHand := none, queue := [], readmit := none }
    mortar := { s.mortar with dirty := [] } }

/-- A list in flight completes FAULT with the DEVICE code, where its completion ring has room (Z3). -/
def State.deviceEnd (s : State) (code : Nat) (idx : List (Nat × Option Nat)) (l : RunningList) : State :=
  let f := l.owner / 32
  let n := l.owner % 32
  let e := { Ending.mk0 2 s.now with code := code, errIndex := (mapGet f idx).getD none }
  let s := s.endList l.owner e
  match (s.sq f n).cur with
  | some { desc := d, out := some e, missed := m } =>
    if s.hio0Up && (s.cqOf f n).enabled && (s.cqOf f n).room then s.putCompletion f n d e m else s
  | _ => s

/-- Z1 to Z5: the record goes to every allocated partition's ring, every list ends, FATAL_N is asserted. -/
def State.device (s : State) (r0 : ErrRec) : State :=
  let r := { r0 with queued := if r0.code = 0x8011 then r0.queued else min 255 s.repair.queue.length }
  let ws := ((List.range 16).filter fun n => (s.part n).allocated).foldl
    (fun (a : State × List (Nat × Option Nat)) n =>
      let w := a.1.writeRec n { r with copy := n == 0 && r.part != 0 }
      (w.1, a.2 ++ [(n, w.2)])) (s, [])
  let s := forAll ws.1.lists (fun s l => s.deviceEnd r.code ws.2 l) ws.1
  (forAll s.haw.colls (fun s c => (s.sendAborts c 0x3025).dropColl c.key) s).fatal.halted .stopped

/-! ### Retirement (R584, R585) -/

/-- Q1 and Q2 of a brick: the lists that use it end with 0x1064, and it drains. -/
def State.retireBrick (s : State) (b : Nat) : State :=
  let s := s.setUnit (brickUnit b) .retiring
  let s := forAll (s.lists.filter fun l => l.bricks.contains b)
    (fun s l => s.endList l.owner (Ending.faulted 0x1064 0 s.now)) s
  if (s.brick b).powered then
    let was := (s.brick b).drain
    let s := s.modBrick b fun k => { k with drain := some .retire }
    match was with
    | some (.reset n) => s.endReset n
    | some .doze => s.dozeDone
    | _ => s
  else s.brickGone b

/-- A readmission of the unit is abandoned by its new retirement (R588). -/
def State.dropReadmit (s : State) (u : UnitKey) : State :=
  match s.repair.readmit with
  | some m => if m.unit = u then { s with repair := { s.repair with readmit := none } } else s
  | none => s

/-- A unit is retired (R584). -/
def State.retire (s : State) (u : UnitKey) (row part : Nat) : State :=
  let s := s.dropReadmit u
  if u.kind = 1 then s.retireBrick u.index
  else if u.kind = 2 then s.retireWay u.index
  else if u.kind = 3 then s.retireSlice u.index
  else if u.kind = 4 then s.repairRow u.index row part
  else if u.kind = 5 then s.retirePc u.index
  else if u.kind = 6 then
    ((s.setUnit u .retired).portOut u.index .retired true).retiredRec 0x3011 u 0
  else if u.kind = 7 then
    ((s.setUnit u .retired).modIport u.index fun p => { p with linkUp := false }).retiredRec 0x4032 u 0
  else s

/-! ### Handling (R566 to R571) -/

/-- An error retires its unit: a permanent fault, or a retirable unit escalated to UNIT (R557, R569), where repair is on and
the unit is in service. -/
def State.retires (s : State) (e : ErrEvt) : Bool :=
  retirable e.unit.kind && ! s.repairOff e.unit e.rec0.part && s.unit e.unit == .inService && ! e.rec0.retired &&
  (e.rec0.permanent || (e.rec0.escalated && e.rec0.severity == 2))

/-- What the severity of an error does besides its record: a retirement, or a partition reset (R552, R554, R84). -/
def State.consequence (s : State) (e : ErrEvt) : State :=
  let s1 := if s.retires e then s.retire e.unit e.row e.rec0.part else s
  if e.rec0.severity = 3 ∧ e.rec0.code ≠ 0x6031 then
    let s2 := if e.unit.kind = 1 ∧ e.rec0.permanent = true then s1.setUnit e.unit .retired else s1
    match if e.unit.kind = 1 then s.brickOwner e.unit.index else some (e.rec0.part % 16) with
    | some n => if (s.part n).allocated then s2.partReset n false else s2
    | none => s2
  else s1

/-- The next error waiting is taken in hand. -/
def State.nextError (s : State) : State :=
  { s with repair := { s.repair with inHand := s.repair.queue.head?, queue := s.repair.queue.tail, handledAt := s.now } }

/-- ERROR_HANDLE: the error in hand is recorded and its severity acted on; then the next is taken in hand (R552, R562,
R566, R567). -/
def errorHandle (s : State) : State :=
  match s.repair.inHand with
  | none => s
  | some e =>
    if e.rec0.severity = 4 then s.device e.rec0
    else
      let s := s.deliver { e.rec0 with queued := min 255 s.repair.queue.length } e.scope
      s.nextError.consequence e

def execErrorHandle (s : State) : Res := if s.phase = .up then .next (errorHandle s) else .next s

/-- HANDLER_TIMEOUT: no progress for 10 ms; the warden performs Z1 and Z5 and writes a last-gasp record (R572). -/
def execHandlerTimeout (s : State) : Res :=
  match s.repair.inHand with
  | none => .next s
  | some e =>
    if s.phase = .up ∧ s.repair.handledAt + 10000000 ≤ s.now then
      .next ((s.lastGasp 6 e.rec0.code 0x8010 0x27 noUnit).fatal.halted .stopped)
    else .next s

/-- BUCKET_LEAK: what has leaked by now leaves the bucket (R557). -/
def execBucketLeak (u : UnitKey) (row : Nat) (s : State) : Res :=
  if u.kind = 4 then .next (s.rowSet u.index row (s.rowCount u.index row)) else .next (s.bucketAdd u 0)

/-! ### Requests (R586) -/

/-- The unit kinds and indices that a request accepts. -/
def State.unitOk (s : State) (u : UnitKey) : Bool :=
  match u.kind with
  | 1 => decide (u.index < 16)
  | 2 => decide (u.index < 128)
  | 3 => decide (u.index < 8)
  | 5 => decide (u.index < 512)
  | 6 => decide (u.index < 16) && ! s.fuses.solitary
  | 7 => decide (u.index < 4)
  | _ => false

def reqUnit (v : Word) : UnitKey := { kind := bits v.toNat 23 16, index := bits v.toNat 15 0 }

def State.setStatus (s : State) (c : Nat) : State := { s with repair := { s.repair with status := c } }

/-- A retirement would break R371 or R395. -/
def State.retireBreaks (s : State) (u : UnitKey) : Bool :=
  (u.kind == 5 && decide (2 ≤ (s.pcsOut (u.index / 64)).length)) || (u.kind == 3 && ! s.sliceFits u.index)

/-- A write of ERR_RETIRE_REQ (R586): the first reason in the order 4, 1, 2, 5, or the retirement begins. -/
def State.retireReq (s : State) (v : Word) : State :=
  let u := reqUnit v
  if ! s.unitOk u then s.setStatus 4
  else if s.unit u != .inService then s.setStatus 1
  else if s.restricted then s.setStatus 2
  else if s.retireBreaks u then s.setStatus 5
  else (s.setStatus 0).retire u 0 ((s.brickOwner u.index).getD 0)

/-- A write of ERR_READMIT_REQ (R586, R587): U1 begins. -/
def State.readmitReq (s : State) (v : Word) : State :=
  let u := reqUnit v
  if ! s.unitOk u then s.setStatus 4
  else if s.unit u != .retired then s.setStatus 1
  else if s.restricted then s.setStatus 2
  else if s.repair.readmit.isSome then s.setStatus 3
  else
    let s := (s.setStatus 0).setUnit u .readmitting
    { s with repair := { s.repair with readmit := some { unit := u, step := .selfTest } } }

/-! ### Readmission (R587 to R590) -/

def State.setReadmit (s : State) (m : Option Readmit) : State := { s with repair := { s.repair with readmit := m } }

/-- Length of a probation in nanoseconds (R590). -/
def probationNs (kind : Nat) : Nat :=
  if kind = 2 then 1000000000 else if kind = 5 then 60000000000 else 10000000000

/-- U2 and U3: the unit is zeroised and loaded. A Hawser port takes a fresh EPOCH and trains its link (R497). -/
def State.zeroise (s : State) (u : UnitKey) : State :=
  if u.kind = 1 then
    (s.modBrick u.index BrickS.fresh).setReadmit (some { unit := u, step := .probation (s.now + probationNs 1) })
  else if u.kind = 6 then
    let s := (s.modPort u.index fun _ => { HawPort.reset with state := .training }).advanceTxc
    s.setReadmit (some { unit := u, step := .linkUp })
  else s.setReadmit (some { unit := u, step := .probation (s.now + probationNs u.kind) })

/-- SELF_TEST_DONE: U1 passes, and U2 and U3 follow; or it fails (R587, R588). -/
def execSelfTestDone (pass : Bool) (s : State) : Res :=
  match s.repair.readmit with
  | some { unit := u, step := .selfTest } =>
    if s.phase ≠ .up then .next s else if pass then .next (s.zeroise u) else .next (s.readmitFails u)
  | _ => .next s

/-- Every chip probed has answered (R497). -/
def State.probesAnswered (s : State) (p : Nat) : Bool :=
  (s.peers.filter fun c => (s.planesOf c).contains p).all fun c => (s.port p).probed.contains c

/-- PROBATION_END: a pass waits for the lists that run now; a failure retires the unit again (R587, R588, R497). -/
def probationEnd (pass : Bool) (s : State) : State :=
  match s.repair.readmit with
  | some { unit := u, step := .probation until_ } =>
    if ! pass then s.readmitFails u
    else if s.now < until_ then s
    else if u.kind = 6 ∧ s.probesAnswered u.index = false then s.readmitFails u
    else s.setReadmit (some { unit := u, step := .handOver (s.lists.map (·.owner)) })
  | _ => s

def execProbationEnd (pass : Bool) (s : State) : Res :=
  if s.phase = .up then .next (probationEnd pass s) else .next s

/-- What a class of unit does at its hand-over point (R399, R372, R460, R498, R590). -/
def State.offer (s : State) (u : UnitKey) : State :=
  if u.kind = 2 then { s with mortar := { s.mortar with skipWays := setIns u.index s.mortar.skipWays } }
  else if u.kind = 3 then
    let ws := s.mortar.withSlice.filter fun w => w / 16 == u.index
    let s := forAll ws (fun s w => s.setUnit { kind := 2, index := w } .inService) s
    { s with mortar := { s.mortar with
      withSlice := s.mortar.withSlice.filter fun w => w / 16 != u.index
      moves := s.mortar.moves ++ [{ slice := u.index, back := true
                                    nodes := (List.range 32).map fun i => 8 * i + u.index, turn := u.index }] } }
  else if u.kind = 5 then
    let st := u.index / 64
    let cs := (List.range 31).filter fun j =>
      s.mortar.remap.any fun r => r.stack == st && r.src == u.index % 64 && r.chunk == j
    s.setMigr st (s.migrOf st ++ [{ pc := u.index % 64, back := true, chunks := cs }])
  else if u.kind = 6 then (s.modPort u.index fun p => { p with state := .up }).tellUp u.index
  else if u.kind = 7 then s.modIport u.index fun p => { p with handOver := some 0 }
  else s

/-- The record of a readmission (R556, R590). -/
def State.backRec (s : State) (u : UnitKey) : State :=
  s.raise1 (backCode u.kind) 0 u (if u.kind = 1 then (s.brickOwner u.index).getD 0 else 0)

/-- HAND_OVER: every list that ran when probation ended has completed; the unit is in service for work that starts after
(U5 and U6 of R587). -/
def handOver (s : State) : State :=
  match s.repair.readmit with
  | some { unit := u, step := .handOver ls } =>
    if ls ≠ [] then s
    else (((s.setReadmit none).setUnit u .inService).bucketClear u |>.offer u).backRec u
  | _ => s

def execHandOver (s : State) : Res := if s.phase = .up then .next (handOver s) else .next s

/-! ### Deadlines (R578) -/

/-- DEADLINE_TEST: the test that falls at each multiple of 1,000 ns. -/
def execDeadlineTest (s : State) : Res :=
  if s.phase = .up ∧ s.now % 1000 = 0 then .next (s.deadlineTests Config.deadlineSlots) else .next s

/-! ### Partition resets by function (R153) -/

/-- FLR_VF: a function-level reset of VFn. -/
def execFlrVf (n : Nat) (s : State) : Res :=
  if s.warmable && s.vfEnable && decide (1 ≤ n) && decide (n ≤ 15) then .next (s.partReset n true) else .next s

end Sys2Proof.Machine
end

