-- ==== Sys2Proof/Machine/Warden.lean ====
section
/-! DEFINITION. The Golow warden: sensors, thermal and power decisions, brick levels, AVSBus, power states (R517 to
R550). Temperatures are counts of 0.125 C, voltages counts of 0.25 mV (R522). -/

namespace Sys2Proof.Machine

/-! ### Errors of the warden (R551, R565) -/

/-- A warden alert: ALERT_N falls, vector 33 is raised, and DOZE is left, or its entry given up (R147, R543). -/
def State.alert (s : State) : State :=
  let s := ({ s with pins := { s.pins with alertN := false } }).deviceEvent
  if s.wdn.st = .doze ∨ (s.wdn.st = .idle ∧ s.wdn.busy = true) then s.wakeUp else s

/-- A power and thermal record: sensor, filtered reading, threshold, cap level, rail select (R565). -/
def powerRec (now code sev die : Nat) (u : UnitKey) (sensor reading threshold cap rail : Nat) : ErrRec :=
  { ErrRec.mk0 now code sev die u 0 with
    detail := detailOf [(2, sensor), (2, reading), (2, threshold), (1, cap), (1, rail)] }

/-- A fault the warden raises. -/
def State.wardenErr (s : State) (r : ErrRec) : State :=
  s.alert.raise { rec0 := r, unit := noUnit, row := 0, scope := .none }

def sensorUnit (i : Nat) : UnitKey := { kind := 9, index := if i < 96 then i else 256 + (i - 96) }

/-- A 16-bit two's complement reading. -/
def enc16 (x : Int) : Nat := (x % 65536).toNat

/-! ### Sensors (R521 to R524) -/

def State.sensor (s : State) (i : Nat) : Sensor := s.wdn.sensors.getD i Sensor.reset
def State.modSensor (s : State) (i : Nat) (g : Sensor → Sensor) : State :=
  { s with wdn := { s.wdn with sensors := modAt s.wdn.sensors i g } }

/-- The die of a sensor (R521). -/
def sensorDie (i : Nat) : Nat :=
  if i < 80 then i / 2
  else if i < 96 then 0x18 + (i - 80) / 2
  else
    let v := i - 96
    if v < 16 then v
    else if v < 24 then 0x10 + (v - 16)
    else if v < 32 then 0x18 + (v - 24)
    else if v < 40 then 0x18 + (v - 32)
    else if v < 44 then 0x20 + (v - 40)
    else if v = 44 then 0x27 else if v = 45 then 0x26 else if v = 46 then 0x24 else 0x27

/-- The filter shift of a sensor. -/
def sensorShift (i : Nat) : Nat := if i < 80 then 2 else 1

def insInt (a : Int) : List Int → List Int
  | [] => [a]
  | b :: r => if a ≤ b then a :: b :: r else b :: insInt a r

/-- The median of five. -/
def median5 (l : List Int) : Int := (l.foldr insInt []).getD 2 0

/-- A valid sample enters the filter (R523). -/
def Sensor.take (x : Sensor) (k : Nat) (v : Int) : Sensor :=
  let ss := (v :: x.samples).take 5
  { x with
    samples := ss, invalid := 0
    y := if ss.length < 5 then v else x.y + (median5 ss - x.y) / 2 ^ k }

/-- The value of a sample, if it is valid (R522). -/
def sampleOf (i raw : Nat) : Option Int :=
  if i < 96 then
    let v := sext 16 raw
    if -320 ≤ v ∧ v ≤ 1200 then some v else none
  else if raw % 65536 = 0 then none else some (raw % 65536 : Nat)

/-- A sensor fails (R524). -/
def State.sensorFails (s : State) (i : Nat) : State :=
  let s := s.modSensor i fun x => { x with failed := true }
  if i < 96 then s.wardenErr (powerRec s.now 0x5010 0 (sensorDie i) (sensorUnit i) i (enc16 (s.sensor i).y) 0 0 0) else s

/-! ### Voltages (R532, R533) -/

/-- The set point of a monitored rail; the course rails follow the levels. -/
def State.setPoint (s : State) (v : Nat) : Nat :=
  if v < 16 then s.wdn.course.getD (v / 4) 0
  else if v < 24 then 3000
  else if v < 32 then Config.hbmRail 0
  else if v < 40 then Config.hbmRail 1
  else if v = 46 then 3600 else 3000

def State.bp (s : State) (b : Nat) : BrickPower := s.wdn.bricks.getD b BrickPower.reset
def State.modBp (s : State) (b : Nat) (g : BrickPower → BrickPower) : State :=
  { s with wdn := { s.wdn with bricks := modAt s.wdn.bricks b g } }

/-- A request for rails; the I3C in-band interrupt follows a change (R546). -/
def State.setRails (s : State) (v : Nat) : State :=
  if s.wdn.railReq = v then s else ({ s with wdn := { s.wdn with railReq := v } }).emit .i3cInterrupt

/-- A thermal or voltage emergency: its DEVICE record goes to every allocated partition's ring, every island stops, a
last-gasp record is written, FATAL_N is asserted, and only VDD_WDN and VDDIO_18 are asked for (R533). -/
def State.emergency (s : State) (cause : Nat) (r : ErrRec) : State :=
  let s := forAll ((List.range 16).filter fun n => (s.part n).allocated) (fun s n => (s.writeRec n r).1) s
  (s.wardenStop .dark cause r.code 0 r.die { kind := r.kind, index := r.index }).setRails 0x200

/-- How long a mark has stood. -/
def elapsed (t : Option Nat) (now : Nat) : Nat := match t with | some k => now - k | none => 0

/-- A mark begins, goes on or ends. -/
def mark (on : Bool) (t : Option Nat) (now : Nat) : Option Nat := if on then some (t.getD now) else none

/-- A rail that has been told of: no time from this mark ever elapses. -/
def told : Nat := 2 ^ 64

/-- The bricks of a course. -/
def courseBricks (c : Nat) : List Nat := (List.range 4).map fun i => 4 * c + i

/-- The AVS rail select of a monitored rail; 0 where it has none (R55, the supply table). -/
def railSelect (v : Nat) : Nat :=
  if v < 16 then v / 4 else if v < 24 then 4 else if v < 40 then 0 else if v < 44 then 6 else if v < 46 then 5 else 0

/-- A droop told of: on a brick rail every brick of the course is capped one level below its present one (R532). -/
def State.droop (s : State) (v sp : Nat) : State :=
  let i := 96 + v
  let s := s.modSensor i fun x => { x with lowSince := some told }
  let s := if v < 16 then
      forAll (courseBricks (v / 4)) (fun s b => s.modBp b fun p =>
        { p with voltCap := max p.voltCap (min 7 (p.level + 1)), voltGood := none }) s
    else s
  s.wardenErr (powerRec s.now 0x5018 2 (sensorDie i) (sensorUnit i) (256 + v) (enc16 (s.sensor i).y) (sp * 95 / 100)
    (if v < 16 then (s.bp v).voltCap else 0) (railSelect v))

/-- Every brick monitor of a course reads within 2 % of its set point. -/
def State.courseGood (s : State) (c : Nat) : Bool :=
  (courseBricks c).all fun b =>
    let y := (s.sensor (96 + b)).y
    let sp : Int := s.setPoint b
    decide (sp * 98 ≤ y * 100) && decide (y * 100 ≤ sp * 102)

/-- A course's droop cap lifts after 100 ms within 2 % (R532). -/
def State.liftVolt (s : State) (c : Nat) : State :=
  let good := s.courseGood c
  forAll (courseBricks c) (fun s b => s.modBp b fun p =>
    if p.voltCap = 0 then p
    else
      let g := mark good p.voltGood s.now
      if g.isSome && decide (100000000 ≤ elapsed g s.now) then { p with voltCap := 0, voltGood := none }
      else { p with voltGood := g }) s

/-- The checks at every sample of a voltage monitor (R532). -/
def State.checkVolt (s : State) (v : Nat) : State :=
  let i := 96 + v
  let sp := s.setPoint v
  let y := (s.sensor i).y
  let low := decide (y * 100 < (sp : Int) * 95)
  let bad := decide (y * 100 < (sp : Int) * 90) || decide ((sp : Int) * 108 < y * 100)
  let s := s.modSensor i fun x => { x with lowSince := mark low x.lowSince s.now, emergSince := mark bad x.emergSince s.now }
  let x := s.sensor i
  if decide (20000 ≤ elapsed x.emergSince s.now) then
    s.emergency 3 (powerRec s.now 0x5019 4 (sensorDie i) (sensorUnit i) (256 + v) (enc16 y)
      (if y * 100 < (sp : Int) * 90 then sp * 90 / 100 else sp * 108 / 100) 0 (railSelect v))
  else
    let s := if decide (100000 ≤ elapsed x.lowSince s.now) then s.droop v sp else s
    if v < 16 then s.liftVolt (v / 4) else s

/-- The warden runs: it is powered and no seize holds it (R517, R621). -/
def State.wardenOn (s : State) : Bool := s.phase == .up || s.phase == .recovery

/-- SENSOR_SAMPLE: `raw` is the 16-bit reading of sensor `i` (R522, R523). -/
def sensorSample (i raw : Nat) (s : State) : State :=
  if ! s.wardenOn || decide (144 ≤ i) || (s.sensor i).failed || (s.fuses.solitary && decide (136 ≤ i) && decide (i < 140))
  then s
  else
    match sampleOf i raw with
    | some v =>
      let s := s.modSensor i fun x => x.take (sensorShift i) v
      if i < 96 then s else s.checkVolt (i - 96)
    | none =>
      let s := s.modSensor i fun x => { x with invalid := x.invalid + 1 }
      if 5 ≤ (s.sensor i).invalid then s.sensorFails i else s

def execSensorSample (i raw : Nat) (s : State) : Res := .next (sensorSample i raw s)

/-! ### Pairs and effective temperatures (R525 to R529) -/

/-- The two sensors of a pair: pairs 0 to 39 are the dies', 40 to 47 the stacks' readouts. -/
def pairSensors (p : Nat) : Nat × Nat := (2 * p, 2 * p + 1)
def pairDie (p : Nat) : Nat := if p < 40 then p else 0x18 + (p - 40)

/-- The dies a die is attached to (R527). -/
def neighbours (d : Nat) : List Nat :=
  if d < 16 then (courseBricks (d / 4)).filter (· != d) ++ [0x10 + 2 * (d / 4), 0x11 + 2 * (d / 4)]
  else if d < 24 then
    let m := d - 16
    courseBricks (m / 2) ++ [0x18 + m] ++
      (if m % 2 = 0 then [0x10 + m + 1] else [0x10 + m - 1]) ++
      (if 2 ≤ m then [0x10 + m - 2] else []) ++ (if m < 6 then [0x10 + m + 2] else [])
  else if d < 32 then [0x10 + (d - 24)]
  else if d < 36 then [0x11 + 2 * (d - 32)]
  else if d = 36 then [0x10] else if d = 37 then [0x16] else if d = 38 then [0x12, 0x14] else [0x12]

def State.pairS (s : State) (p : Nat) : Pair := s.wdn.pairs.getD p Pair.reset
def State.modPair (s : State) (p : Nat) (g : Pair → Pair) : State :=
  { s with wdn := { s.wdn with pairs := modAt s.wdn.pairs p g } }

/-- The working readings of a pair. -/
def State.readings (s : State) (p : Nat) : List Int :=
  let (a, b) := pairSensors p
  ([a, b].filter fun i => ! (s.sensor i).failed).map fun i => (s.sensor i).y

def maxInt (l : List Int) : Option Int := l.foldl (fun a x => some (match a with | none => x | some y => max x y)) none

/-- Two working readings differ by more than 6.0 C (R525). -/
def State.disagrees (s : State) (p : Nat) : Bool :=
  match s.readings p with
  | [a, b] => decide (48 < (a - b).natAbs)
  | _ => false

/-- The pairs of a die: a stack has two. -/
def diePairs (d : Nat) : List Nat := if 24 ≤ d ∧ d < 32 then [d, 40 + (d - 24)] else [d]

/-- A die may stand in a neighbour mean: no pair of it disagrees or has a failed sensor (R527). -/
def State.trusted (s : State) (d : Nat) : Bool :=
  (diePairs d).all fun p => ! s.disagrees p && (s.readings p).length == 2

/-- The higher reading of a die. -/
def State.baseTemp (s : State) (d : Nat) : Option Int := maxInt ((diePairs d).flatMap s.readings)

/-- A pair's effective temperature: the higher reading, 5.0 C more while it is not trusted (R526, R528). -/
def State.pairTemp (s : State) (p : Nat) : Option Int :=
  (maxInt (s.readings p)).map fun t => if (s.pairS p).lost then t + 40 else t

/-- A die's effective temperature, none without a working sensor (R525). -/
def State.dieTemp (s : State) (d : Nat) : Option Int := maxInt ((diePairs d).filterMap s.pairTemp)

/-- The mean effective temperature of a die's trusted neighbours, in 1/840 of a count, so that it is exact. -/
def State.neighbourMean (s : State) (d : Nat) : Option Int :=
  let ts := ((neighbours d).filter s.trusted).filterMap s.dieTemp
  if ts = [] then none else some (ts.foldl (· + ·) 0 * 840 / ts.length)

/-- A pair's fault 0x5011 (R528, R529). -/
def State.noTrust (s : State) (d : Nat) : State :=
  s.wardenErr (powerRec s.now 0x5011 2 d noUnit (2 * d) (enc16 ((s.baseTemp d).getD 0)) 0 3 0)

/-- The one test of a disagreement that has lasted 100 ms (R528). -/
def State.testPair (s : State) (p : Nat) : State :=
  let d := pairDie p
  let x := s.pairS p
  let (ia, ib) := pairSensors p
  let lose (s : State) : State := (s.modPair p fun x => { x with lost := true, since := some told }).noTrust d
  match s.neighbourMean d with
  | none => lose s
  | some n =>
    let near (i : Nat) : Bool := decide (((s.sensor i).y * 840 - (x.d0 * 840 + n - x.n0)).natAbs ≤ 24 * 840)
    if near ia && ! near ib then (s.modPair p fun x => { x with kept := some ia }).sensorFails ib
    else if near ib && ! near ia then (s.modPair p fun x => { x with kept := some ib }).sensorFails ia
    else lose s

/-- One pair in one decision period (R526, R528). -/
def State.stepPair (s : State) (p : Nat) : State :=
  let d := pairDie p
  if (s.readings p).length ≠ 2 then s.modPair p fun x => { x with since := none }
  else if s.disagrees p then
    let s := s.modPair p fun x => { x with since := some (x.since.getD s.now), agreeSince := none }
    let x := s.pairS p
    if decide (100000000 ≤ elapsed x.since s.now) then s.testPair p else s
  else
    let s := s.modPair p fun x =>
      let ag := some (x.agreeSince.getD s.now)
      { x with since := none, agreeSince := ag, lost := x.lost && decide (elapsed ag s.now < 1000000000) }
    s.modPair p fun x => { x with d0 := (s.pairTemp p).getD x.d0, n0 := (s.neighbourMean d).getD x.n0 }

/-- With no working sensor: the highest of its neighbours plus 10.0 C (R529). -/
def State.effTemp (s : State) (d : Nat) : Int :=
  match s.dieTemp d with
  | some t => t
  | none => ((maxInt ((neighbours d).filterMap s.dieTemp)).getD 0) + 80

/-- A die whose bricks are capped at P3 (R528, R529). -/
def State.untrusted (s : State) (d : Nat) : Bool := (s.dieTemp d).isNone || (diePairs d).any fun p => (s.pairS p).lost

/-! ### Levels (R530, R534 to R537) -/

/-- The bricks a die governs (R530). -/
def governed (d : Nat) : List Nat :=
  if d < 16 then [d] else if d < 24 then courseBricks ((d - 16) / 2)
  else if d < 32 then courseBricks ((d - 24) / 2) else List.range 16

/-- Course rail voltage of a level, in 0.25 mV (R534). -/
def levelVolt (solitary : Bool) (p : Nat) : Nat :=
  if p = 1 ∧ solitary = true then 3720 else [3800, 3520, 3280, 3040, 2840, 2680, 2520, 2400].getD p 2400

/-- Frequency of a level, in MHz (R534). -/
def levelMhz (solitary : Bool) (p : Nat) : Nat :=
  if p = 1 ∧ solitary = true then 1950 else [2000, 1800, 1600, 1400, 1200, 1000, 800, 600].getD p 600

def State.brkCap (s : State) (b : Nat) : Nat := bits (s.reg64 0x600810) (3 * b + 2) (3 * b)

/-- Restricted mode, or the class of the brick's partition, caps the brick at P2 (R84, R101, R535). -/
def State.cappedP2 (s : State) (b : Nat) : Bool :=
  s.restricted || ((s.brickOwner b).map s.classTolerated).getD false

/-- The slowest of a brick's caps, P0 where there is none (R535). -/
def State.capOf (s : State) (b : Nat) : Nat :=
  let p := s.bp b
  let c := max (max (s.brkCap b) (if s.cappedP2 b then 2 else 0)) (max p.thermalCap (max p.powerCap p.voltCap))
  if s.wdn.capP3.any fun d => (governed d).contains b then max c 3 else c

def State.effOf (s : State) (d : Nat) : Int := s.wdn.eff.getD d 0

/-- A brick that runs: a retired one takes no part in the levels. -/
def State.brickRuns (s : State) (b : Nat) : Bool := s.unit (brickUnit b) != .retired

/-- The brick is eligible for P0 (R531). -/
def State.eligible (s : State) (b : Nat) : Bool :=
  let c := b / 4
  s.brickRuns b && decide (s.effOf b ≤ 720) && decide (s.effOf (16 + 2 * c) ≤ 720) && decide (s.effOf (17 + 2 * c) ≤ 720)

/-- The level a brick should run at, P0 only where it stands there already (R535). -/
def State.targetOf (s : State) (b : Nat) : Nat :=
  let stays := (s.bp b).level == 0 && bit (s.regN 0x600818) 0 && s.eligible b
  max (s.capOf b) (if stays then 0 else 1)

/-- The highest level granted in a course, changes under way included: its rail's voltage (R56). -/
def State.courseVolt (s : State) (c : Nat) : Nat :=
  ((courseBricks c).map fun b =>
    let p := s.bp b
    levelVolt s.fuses.solitary (min p.level (p.next.getD p.level))).foldl max 2400

/-- A voltage is written over AVSBus (R537, R549). -/
def State.avsWrite (s : State) (rail mv4 : Nat) : State :=
  ({ s with wdn := { s.wdn with avs := some (rail, mv4, 1) } }).emit (.avs rail mv4)

/-- V4: a course whose rail stands above what its levels need is lowered, one transaction at a time. -/
def State.lowerRails (s : State) : State :=
  match s.wdn.avs with
  | some _ => s
  | none =>
    match (List.range 4).find? fun c => decide (s.courseVolt c < s.wdn.course.getD c 0) with
    | some c => s.avsWrite c (s.courseVolt c)
    | none => s

/-- A change toward a slower level begins at once; one toward a faster level by one, with V1 first where the rail is too
low (R537). -/
def State.startChange (s : State) (b target : Nat) : State :=
  let p := s.bp b
  if p.level < target then s.modBp b fun p => { p with next := some target }
  else if target < p.level ∧ p.next = none then
    let n := p.level - 1
    let v := levelVolt s.fuses.solitary n
    if v ≤ s.wdn.course.getD (b / 4) 0 then s.modBp b fun p => { p with next := some n }
    else if s.wdn.avs.isNone then (s.modBp b fun p => { p with next := some n }).avsWrite (b / 4) v
    else s
  else s

/-- The course voltage is within 1 % of a level's (V2 of R537). -/
def State.voltReady (s : State) (b n : Nat) : Bool :=
  let v : Int := levelVolt s.fuses.solitary n
  let y := (s.sensor (96 + b)).y
  decide (levelVolt s.fuses.solitary n ≤ s.wdn.course.getD (b / 4) 0) && decide (v * 99 ≤ y * 100) && decide (y * 100 ≤ v * 101)

/-- LEVEL_CHANGE: V3, and then V4 (R537). A rise waits for V2, unless the rail stood high enough already. -/
def levelChange (b : Nat) (s : State) : State :=
  let p := s.bp b
  match p.next with
  | none => s
  | some n =>
    if p.level < n then (s.modBp b fun p => { p with level := n, next := none }).lowerRails
    else if levelVolt s.fuses.solitary n < s.wdn.course.getD (b / 4) 0 || s.voltReady b n then
      (s.modBp b fun p => { p with level := n, next := none }).lowerRails
    else s

def execLevelChange (brick : Nat) (s : State) : Res := if s.phase = .up then .next (levelChange brick s) else .next s

/-- AVS_RESPONSE: the transaction completes; or it is retried, and after three retries 0x5020 is raised: a raise that fails
abandons the rises that needed it (R550). -/
def avsResponse (ok : Bool) (s : State) : State :=
  match s.wdn.avs with
  | none => s
  | some (rail, mv4, k) =>
    if ok then
      { s with wdn := { s.wdn with avs := none, course := modAt s.wdn.course rail fun _ => mv4 } }
    else if k < 4 then
      ({ s with wdn := { s.wdn with avs := some (rail, mv4, k + 1) } }).emit (.avs rail mv4)
    else
      let s := { s with wdn := { s.wdn with avs := none } }
      let old := s.wdn.course.getD rail 0
      let s := if old < mv4 then
          forAll (courseBricks rail) (fun s b => s.modBp b fun p =>
            if (p.next.map fun n => decide (n < p.level) && decide (old < levelVolt s.fuses.solitary n)).getD false then
              { p with next := none } else p) s
        else s
      s.wardenErr (powerRec s.now 0x5020 2 0x27 noUnit 0 0 0 0 rail)

def execAvsResponse (ok : Bool) (s : State) : Res := if s.wardenOn then .next (avsResponse ok s) else .next s

/-! ### Power (R531, R536, R538, R539) -/

/-- PWR_BUDGET_W. -/
def State.budgetW (s : State) : Nat := bits (s.regN 0x60081C) 11 0

/-- The 100 ms mean package power exceeds a number of watts. -/
def State.meanOver (s : State) (watts : Nat) : Bool := decide (watts * 1000 * s.wdn.power.length < s.wdn.power.sum)

/-- One rail's reading: its current, or the last good one plus 10 % (R550). -/
def railMa (last : Nat) (r : RailRead) : Nat := if r.ok then r.ma else last * 11 / 10

/-- A rail whose current read failed raises 0x5020. -/
def State.railFails (s : State) (rails : List RailRead) : State :=
  forAll ((List.range rails.length).filter fun i => ((rails[i]?).map fun r => ! r.ok).getD false)
    (fun s i => s.wardenErr (powerRec s.now 0x5020 2 0x27 noUnit 0 0 0 0 i)) s

/-- Every brick's cap drops by two levels at once (R531). -/
def State.spike (s : State) : State :=
  let s := forAll (List.range 16) (fun s b =>
    let n := min 7 ((s.bp b).level + 2)
    (s.modBp b fun p => { p with powerCap := max p.powerCap n, powerUp := 0 }).startChange b n) s
  s.wardenErr (powerRec s.now 0x5022 0 0x27 noUnit 0 0 0 0 0)

/-- POWER_ESTIMATE: the sum of V x I of rail selects 0 to 6, and the model of the rest (R538); a spike (R531). -/
def powerEstimate (rails : List RailRead) (restMw : Nat) (s : State) : State :=
  let rs := rails.take 7
  let ma := (List.range rs.length).map fun i =>
    railMa (s.wdn.lastMa.getD i 0) (rs.getD i { mv := 0, ma := 0, ok := true })
  let uw := (List.range rs.length).map fun i => (rs.getD i { mv := 0, ma := 0, ok := true }).mv * ma.getD i 0
  let est := uw.sum / 1000 + restMw
  let was := s.wdn.power.headD 0
  let last := (List.range 7).map fun i =>
    match rs[i]? with
    | some r => if r.ok then r.ma else s.wdn.lastMa.getD i 0
    | none => s.wdn.lastMa.getD i 0
  let s := { s with wdn := { s.wdn with
              power := (est :: s.wdn.power).take 1000, lastMa := last
              railUw := (List.range 7).map fun i => uw.getD i 0 } }
  let s := s.railFails rs
  if 2800000 ≤ est ∧ 2800000 ≤ was then s.spike else s

def execPowerEstimate (rails : List RailRead) (restMw : Nat) (s : State) : Res :=
  if s.wardenOn then .next (powerEstimate rails restMw s) else .next s

/-- Bricks of a course that are active. -/
def State.activeBricks (s : State) (c : Nat) : Nat :=
  ((courseBricks c).filter fun b => (s.brick b).powered && s.unit (brickUnit b) == .inService).length

/-- R536's power condition, in exact arithmetic: mean plus estimated increase within the budget minus 100 W. -/
def State.p0Power (s : State) (b : Nat) : Bool :=
  let sol := s.fuses.solitary
  let p := (s.bp b).level
  let num := 2000 * 3800 ^ 2
  let den := levelMhz sol p * levelVolt sol p ^ 2
  let n := max 1 (s.activeBricks (b / 4))
  let len := max 1 s.wdn.power.length
  decide (s.wdn.power.sum * 1000 * (den * n) + len * (s.wdn.railUw.getD (b / 4) 0 * (num - den)) ≤
    (s.budgetW - 100) * 1000000 * (len * (den * n)))

/-- The one brick raised to P0 in a decision period (R536). -/
def State.grantP0 (s : State) : Option Nat :=
  if ! bit (s.regN 0x600818) 0 then none
  else (List.range 16).find? fun b =>
    (s.bp b).level == 1 && (s.bp b).next == none && s.capOf b == 0 && s.eligible b && s.p0Power b

/-- The fastest brick, the lowest die ID on a tie (R531). -/
def State.fastest (s : State) : Nat :=
  (((List.range 16).filter s.brickRuns).foldl (fun (a : Nat × Nat) b => if (s.bp b).level < a.2 then (b, (s.bp b).level) else a)
    (0, 8)).1

/-! ### The decision period (R531) -/

/-- Dies at or above a temperature. -/
def State.diesFrom (s : State) (t : Int) : List Nat := (List.range 40).filter fun d => decide (t ≤ s.effOf d)

/-- The slowest thermal cap of the bricks a die governs. -/
def State.capUnder (s : State) (d : Nat) : Nat := ((governed d).map fun b => (s.bp b).thermalCap).foldl max 0

/-- A fault per die newly in a condition, with the cap it brought. -/
def State.tellDies (s : State) (code sev thr : Nat) (ds : List Nat) : State :=
  forAll ds (fun s d => s.wardenErr (powerRec s.now code sev d noUnit (2 * d) (enc16 (s.effOf d)) thr
    (if code = 0x5004 then 0 else s.capUnder d) 0)) s

/-- The thermal cap of one brick in one period. -/
def State.thermalStep (s : State) (b : Nat) : State :=
  let gov (l : List Nat) : Bool := l.any fun d => (governed d).contains b
  let below93 := ! gov (s.diesFrom 744)
  s.modBp b fun p =>
    if gov s.wdn.crit then { p with thermalCap := 7, thermalUp := 0 }
    else if gov s.wdn.hotDies then { p with thermalCap := min 7 (p.thermalCap + 1), thermalUp := 0 }
    else if below93 && p.thermalCap != 0 then
      if 9 ≤ p.thermalUp then { p with thermalCap := p.thermalCap - 1, thermalUp := 0 }
      else { p with thermalUp := p.thermalUp + 1 }
    else { p with thermalUp := 0 }

/-- Temperatures: caps, episodes and throttling. -/
def State.thermal (s : State) : State :=
  let hot := (List.range 40).filter fun d => decide (776 ≤ s.effOf d) || (s.wdn.hotDies.contains d && decide (760 ≤ s.effOf d))
  let crit := s.diesFrom 840
  let stk := (List.range 8).filter fun n =>
    decide (760 ≤ s.effOf (24 + n)) || (s.mortar.throttled.contains n && decide (720 ≤ s.effOf (24 + n)))
  let newHot := hot.filter fun d => ! s.wdn.hotDies.contains d
  let newCrit := crit.filter fun d => ! s.wdn.crit.contains d
  let newStk := (stk.filter fun n => ! s.mortar.throttled.contains n).map (24 + ·)
  let s := { s with wdn := { s.wdn with hotDies := hot, crit := crit }, mortar := { s.mortar with throttled := stk } }
  let s := forAll (List.range 16) State.thermalStep s
  ((s.tellDies 0x5001 0 776 newHot).tellDies 0x5002 2 840 newCrit).tellDies 0x5004 0 760 newStk

/-- The power cap of the bricks in one period (R531). -/
def State.powerStep (s : State) : State :=
  if s.wdn.power = [] then s
  else if s.meanOver (s.budgetW - 50) then
    let b := s.fastest
    s.modBp b fun p => { p with powerCap := max p.powerCap (min 7 (p.level + 1)), powerUp := 0 }
  else if ! s.meanOver (s.budgetW - 150) then
    forAll (List.range 16) (fun s b => s.modBp b fun p =>
      if p.powerCap = 0 then p
      else if 9 ≤ p.powerUp then { p with powerCap := p.powerCap - 1, powerUp := 0 }
      else { p with powerUp := p.powerUp + 1 }) s
  else s

/-- The budget cannot be met: every brick at P7 for 1 s, the mean still above it (R539). -/
def State.budgetStep (s : State) : State :=
  let all7 := ((List.range 16).filter s.brickRuns).all fun b => (s.bp b).level == 7
  let m := if all7 then s.wdn.budgetMiss + 1 else 0
  let tell := decide (1000 ≤ m) && s.meanOver s.budgetW && ! s.wdn.budgetTold
  let s := { s with wdn := { s.wdn with budgetMiss := m, budgetTold := all7 && (s.wdn.budgetTold || tell) } }
  if tell then s.wardenErr (powerRec s.now 0x5021 0 0x27 noUnit 0 0 0 7 0) else s

/-- Level changes of one period: falls and rises, and one grant of P0 (R536, R537). -/
def State.levels (s : State) : State :=
  let g := s.grantP0
  let s := forAll (List.range 16) (fun s b => s.startChange b (if g = some b then 0 else s.targetOf b)) s
  s.lowerRails

/-- DECISION_PERIOD. -/
def decisionPeriod (s : State) : State :=
  let s := forAll (List.range 48) State.stepPair s
  let none0 := s.wdn.capP3
  let s := { s with wdn := { s.wdn with eff := (List.range 40).map s.effTemp, capP3 := (List.range 40).filter s.untrusted } }
  let s := forAll (s.wdn.capP3.filter fun d => (s.dieTemp d).isNone && ! none0.contains d) State.noTrust s
  let s := { s with wdn := { s.wdn with
              hot := (List.range 40).map fun d => if 880 ≤ s.effOf d then s.wdn.hot.getD d 0 + 1 else 0 } }
  match (List.range 40).find? fun d => decide (904 ≤ s.effOf d) || decide (10 ≤ s.wdn.hot.getD d 0) with
  | some d => s.emergency 2 (powerRec s.now 0x5003 4 d noUnit (2 * d) (enc16 (s.effOf d)) 880 7 0)
  | none => if s.phase = .up then s.thermal.powerStep.levels.budgetStep else s

def execDecisionPeriod (s : State) : Res := if s.wardenOn then .next (decisionPeriod s) else .next s

/-- WARDEN_WATCHDOG: the warden core restarts; rises that had begun do not go on; 0x5031 is raised as it resumes (R519). -/
def execWardenWatchdog (s : State) : Res :=
  if s.wardenOn then
    let s := forAll (List.range 16) (fun s b => s.modBp b fun p =>
      if (p.next.map fun n => decide (n < p.level)).getD false then { p with next := none } else p) s
    .next (s.wardenErr (powerRec s.now 0x5031 2 0x27 noUnit 0 0 0 0 0))
  else .next s

/-! ### Power states (R540 to R548) -/

/-- Every epoch is FREE. -/
def State.epochsFree (s : State) : Bool := s.ing.streams.all fun x => x.epochs.isEmpty

/-- Nothing runs that keeps the device in RUN (R541). -/
def State.quiet (s : State) : Bool :=
  s.lists.isEmpty && s.haw.colls.isEmpty && s.ing.streams.all fun x => x.epochs.all fun e => e.state != .fusing

/-- IDLE_TIMEOUT. -/
def execIdleTimeout (s : State) : Res :=
  if s.phase = .up ∧ s.boot.ready = true ∧ s.wdn.st = .run ∧ s.wdn.busy = false ∧ s.quiet = true ∧
      s.wdn.idleSince + bits (s.regN 0x600824) 13 0 * 1000 ≤ s.now then
    .next (s.setPwr .idle)
  else .next s

/-- No retirement or readmission is in progress (R541). -/
def State.settledUnits (s : State) : Bool :=
  s.repair.readmit.isNone && s.mortar.moves.isEmpty && (s.mortar.migr.all fun q => q.isEmpty) &&
  (s.repair.units.all fun u => u.2 == .retired)

/-- DOZE is being entered: the bricks' stores drain; lines that are not pinned are written back (R540, R543). -/
def State.enterDoze (s : State) : State :=
  let s := { s with
    wdn := { s.wdn with busy := true }
    bricks := s.bricks.map fun (b : BrickS) => if b.powered then { b with drain := some .doze } else b
    mortar := { s.mortar with dirty := s.mortar.dirty.filter s.linePinned } }
  s.dozeDone

/-- DOZE_TIMEOUT. -/
def execDozeTimeout (s : State) : Res :=
  let ms := bits (s.regN 0x600828) 15 0
  if s.phase = .up ∧ s.wdn.st = .idle ∧ s.wdn.busy = false ∧ ms ≠ 0 ∧ s.epochsFree = true ∧ s.settledUnits = true ∧
      s.wdn.idleSince + ms * 1000000 ≤ s.now then
    .next s.enterDoze
  else .next s

/-- The state of device time once WARDEN is entered, REFCLK_ING is lost or no Sync came for 4 s (R45, R50). -/
def TimeSt.toWarden : TimeSt → TimeSt
  | .locked => .holdover
  | .acquire => .free
  | .stepPending => .free
  | t => t

/-- The state of device time changes: a device event, and a fault on entering HOLDOVER or REFUSED (R48, R147, R462). -/
def State.setTime (s : State) (t : TimeSt) (port : Nat) : State :=
  if s.time.st = t then s
  else
    let s := ({ s with time := { s.time with st := t } }).deviceEvent
    let tell (code sev : Nat) : State :=
      s.raise { rec0 := ingRec s.now code sev noUnit 0 port 0 0 0 0, unit := noUnit, row := 0, scope := .none }
    if t = .holdover then tell 0x4002 0 else if t = .refused then tell 0x4001 2 else s

/-- PTP no longer disciplines device time: a pending step is abandoned (R45). -/
def State.loseSync (s : State) : State :=
  let s := s.setTime s.time.st.toWarden 0
  { s with time := { s.time with step := 0 } }

/-- An ingest port and a Hawser port when their die powers down. -/
def IngPort.unlinked (p : IngPort) : IngPort := { p with linkUp := false }
def HawPort.unlinked (p : HawPort) : HawPort :=
  if p.state = .retired then p else { p with state := .down, held := [], paused := [] }

/-- WARDEN is entered: bricks, HBM, cache and Hawser are off; the retained registers stay (R540, R548). -/
def State.enterWarden (s : State) : State :=
  let s := s.loseSync
  let s := { s with
    bricks := s.bricks.map fun _ => { BrickS.reset with powered := false }
    mem := Mem.empty
    mortar := { s.mortar with dirty := [] }
    ing := { s.ing with ports := s.ing.ports.map IngPort.unlinked }
    haw := { s.haw with
      ports := s.haw.ports.map HawPort.unlinked
      conns := [], planes := [], remote := [], colls := [] } }
  (s.setPwr .warden).setRails 0x380

/-- WARDEN_TIMEOUT. -/
def execWardenTimeout (s : State) : Res :=
  let t := bits (s.regN 0x60082C) 15 0
  if s.phase = .up ∧ s.wdn.st = .doze ∧ t ≠ 0 ∧ s.wdn.dozeSince + t * 1000000000 ≤ s.now then .next s.enterWarden else .next s

/-- A list is in flight on some ring. -/
def State.listInFlight (s : State) : Bool :=
  ! s.lists.isEmpty || s.pages.any fun p => p.sqs.any fun x => (x.2.cur.map fun c => c.desc.type == 1 && c.out.isNone).getD false

/-- OFF: nothing is powered (R540, R617). -/
def State.enterOff (s : State) : State :=
  let s := (s.setPwr .off).setRails 0
  { s with phase := .held, wdn := { s.wdn with gasp := [] } }

/-- An accepted or refused request for WARDEN (3) or OFF (4) (R542). -/
def State.powerReq (s : State) (off : Bool) : State :=
  if s.listInFlight || ! s.epochsFree then { s with wdn := { s.wdn with reqReason := 1 } }
  else
    let s := { s with wdn := { s.wdn with reqReason := 0 } }
    if off then s.enterOff else if s.wdn.st = .warden then s else s.enterWarden

/-- HOST_WAKE_REQUEST: a memory or configuration request on HIO0 or HIO1 (R543), or a memory request on HIO0 in WARDEN
(R544). -/
def execHostWakeRequest (port : Nat) (memory : Bool) (s : State) : Res :=
  if s.phase ≠ .up then .next s
  else if s.wdn.st = .warden then .next (if memory && port == 0 then s.latchWake else s)
  else if s.wdn.st = .doze ∨ s.wdn.busy = true then .next s.wakeUp
  else .next s

/-- WAKE_TIME: device time has reached PWR_WAKE_TIME since the device fell asleep (R543, R544). -/
def execWakeTime (s : State) : Res :=
  let t := s.reg64 0x600830
  if s.phase = .up ∧ t ≠ 0 ∧ s.wdn.dozeSince ≤ t ∧ t ≤ s.now then
    .next (if s.wdn.st = .warden then s.latchWake else if s.wdn.st = .doze ∨ s.wdn.busy = true then s.wakeUp else s)
  else .next s

/-! ### Pins of the warden -/

/-- THERM_TRIP: the comparator of a die trips; every island but the warden is held stopped (R55). -/
def execThermTrip (die : Nat) (s : State) : Res :=
  if s.phase = .held ∨ 40 ≤ die then .next s
  else .next { s with pins := { s.pins with thermTripN := false }, phase := .dark }

/-- POWER_LOSS: PWR_GOOD falls; out of reset, the warden writes a last-gasp record, and everything else stops and is lost
(R60, R582). -/
def execPowerLoss (s : State) : Res :=
  let s1 := { s with pins := { s.pins with pwrGood := false } }
  if s.phase = .held then .next s1
  else
    let s2 := if s.phase = .seized then s1 else s1.lastGasp 5 0 0 0x27 noUnit
    .next { s2 with phase := .held, mem := Mem.empty, bricks := s.bricks.map fun _ => BrickS.reset
                    dbg := { s.dbg with seize := .none }, wdn := { s2.wdn with st := .off } }

end Sys2Proof.Machine
end

