-- ==== Sys2Proof/Machine/Boot.lean ====
section
/-! DEFINITION. The boot sequence of a cold reset, B1 to B11, and the return from WARDEN (R63, R68 to R97, R467 to R469,
R547, R591 to R594, R600 to R603, R616). -/

namespace Sys2Proof.Machine

/-! ### Keys and measurements (R591 to R594) -/

/-- The owner's key: that of the slot that is valid and not revoked (R593). -/
def Fuses.ownerKey (f : Fuses) : Option Nat := (f.owners.find? fun o => o.valid && ! o.revoked).map (·.key)

/-- A signature by the owner, in OWNED (R593). -/
def State.ownerSigned (s : State) (g : Signer) : Bool :=
  s.fuses.lifecycle == .owned && ((s.fuses.ownerKey.map fun k => g == .owner k).getD false)

/-- A signature by an image key that is not revoked (R593). -/
def Fuses.imageSigned (f : Fuses) (g : Signer) : Bool :=
  match g with
  | .imageKey k => decide (k < 4) && ! f.revoked.getD k false
  | _ => false

/-- An extension of a measurement register (R594). -/
def mrExtend (mr : Nat) (v : List Byte) : Nat := beNat (sha384 (beBytes 48 mr ++ v))

def State.extendMr (s : State) (i : Nat) (v : List Byte) : State :=
  { s with sec := { s.sec with mrs := modAt s.sec.mrs i fun m => mrExtend m v } }

/-- The number of a boot outcome (R97). -/
def BootOutcome.code : BootOutcome → Nat
  | .inProgress => 0 | .concord => 1 | .tolerated => 2 | .overridden => 3 | .recovery => 4 | .failed => 5

/-! ### The boot log (R648) -/

/-- An entry of the ring in flash. -/
def State.logFlash (s : State) (e : LogEntry) : State :=
  { s with flash := { s.flash with log := e :: s.flash.log, logSeq := s.flash.logSeq + 1 } }

def State.logBoot (s : State) : State :=
  s.logFlash (.boot s.boot.stage s.boot.outcome.code s.boot.aCause s.boot.bCause)

/-- B7: last-gasp records not yet copied go into the flash (R574). -/
def State.copyGasps (s : State) : State :=
  let fresh := s.wdn.gasp.reverse.filter fun g => ! g.copied
  let s := forAll fresh (fun s g => s.logFlash (.lastGasp { g with copied := true })) s
  { s with wdn := { s.wdn with gasp := s.wdn.gasp.map fun (g : LastGasp) => { g with copied := true } } }

/-! ### Images (R70 to R78) -/

/-- Bytes of a bank, and of its header sector (R68, R70). -/
def bankBytes : Nat := 28 * 2 ^ 20
def sectorBytes : Nat := 65536

/-- Maximum size of an image type (R71). -/
def maxImage (t : Nat) : Nat :=
  match t with
  | 1 => 2 ^ 20
  | 2 => 4 * 2 ^ 20
  | 3 => 192 * 1024
  | 4 => 2 * 2 ^ 20
  | 5 => 4 * 2 ^ 20
  | 6 => 4 * 2 ^ 20
  | 7 => 64 * 1024
  | _ => 0

/-- One interface declaration (R77): ID, role, major, minor. -/
structure IfaceDecl where
  id : Nat
  role : Nat
  major : Nat
  minor : Nat
deriving DecidableEq, Repr

def declAt (h : List Byte) (i : Nat) : IfaceDecl :=
  { id := fieldLE h (0x20 + 4 * i) 1, role := fieldLE h (0x21 + 4 * i) 1
    major := fieldLE h (0x22 + 4 * i) 1, minor := fieldLE h (0x23 + 4 * i) 1 }

/-- The declarations of an image header (R76, R77). -/
def declsOf (h : List Byte) : List IfaceDecl := (List.range (fieldLE h 0x10 1)).map (declAt h)

/-- A declaration with a known interface and role (R77, R78). -/
def IfaceDecl.ok (d : IfaceDecl) : Bool := decide (1 ≤ d.id) && decide (d.id ≤ 9) && decide (d.role ≤ 2)

/-- The version word of an image (R76). -/
def imageVer (h : List Byte) : Nat := fieldLE h 8 4

/-- An image of a slot is valid (R71, R76 to R78, R593). -/
def imageOk (f : Fuses) (x : BankSlot) : Bool :=
  let h := x.image.header
  let n := fieldLE h 0x10 1
  h.length == 256 && fieldLE h 0 4 == 0x5356494D && fieldLE h 4 1 == x.type && fieldLE h 5 1 == 1 && zeroField h 6 2 &&
  decide (1 ≤ n) && decide (n ≤ 16) && zeroField h 0x11 15 && zeroField h (0x20 + 4 * n) (64 - 4 * n) &&
  zeroField h 0xF0 16 && (declsOf h).all IfaceDecl.ok && decide (256 + fieldLE h 0xC 4 ≤ x.length) &&
  decide (256 + fieldLE h 0xC 4 ≤ maxImage x.type) && x.image.payloadOk && f.imageSigned x.image.signer

/-- The slots a bank's header declares. -/
def bankSlots (b : Bank) : List BankSlot := b.slots.take b.count

/-- The slot table passes (R70 to R72). -/
def slotsOk (solitary : Bool) (b : Bank) : Bool :=
  let ts : List Nat := (bankSlots b).map (·.type)
  ((bankSlots b).all fun x => decide (1 ≤ x.type) && decide (x.type ≤ 7) && decide (sectorBytes ≤ x.offset) &&
    decide (x.offset + x.length ≤ bankBytes)) &&
  decide ts.Nodup && (if solitary then [1, 2, 3, 4, 6, 7] else [1, 2, 3, 4, 5, 6, 7]).all ts.contains

def bankSlot (b : Bank) (t : Nat) : Option BankSlot := (bankSlots b).find? (·.type == t)

/-- The header of the image of a type, empty without a slot. -/
def bankHeader (b : Bank) (t : Nat) : List Byte := ((bankSlot b t).map (·.image.header)).getD []

/-- The concord list of a bank is valid (R79). -/
def concordOk (f : Fuses) (b : Bank) : Bool :=
  ((bankSlot b 7).map (imageOk f)).getD false && b.concord.contentsOk && decide (b.concord.fw.length ≤ 512) &&
  decide (b.concord.drv.length ≤ 2048)

/-- The types whose images a boot loads, by type (R71, R72). -/
def loadedTypes (solitary : Bool) : List Nat := if solitary then [1, 2, 3, 4, 6, 7] else [1, 2, 3, 4, 5, 6, 7]

/-- The SHA-384 of the booted set's headers (R86). -/
def setHashOf (solitary : Bool) (b : Bank) : Nat := beNat (sha384 ((loadedTypes solitary).flatMap (bankHeader b)))

/-- The measurement register of an image type (R594). -/
def mrOf (t : Nat) : Nat := if t = 7 then 1 else t + 1

/-! ### Classification (R80, R81) -/

/-- The declarations of the BOOTROM: MGMT and SECMB, each with role 2 (R78). -/
def romDecls (iface : Nat) : List IfaceDecl :=
  [{ id := 1, role := 2, major := bits iface 31 24, minor := bits iface 23 16 },
   { id := 2, role := 2, major := bits iface 15 8, minor := bits iface 7 0 }]

def setDecls (f : Fuses) (b : Bank) : List IfaceDecl :=
  romDecls f.romIface ++ (loadedTypes f.solitary).flatMap fun t => declsOf (bankHeader b t)

/-- Two declarations of one interface differ in major version (R80). -/
def majorClash (ds : List IfaceDecl) : Bool := ds.any fun a => ds.any fun b => a.id == b.id && a.major != b.major

/-- Some interface is consumed and not provided (R80). -/
def unprovided (solitary : Bool) (ds : List IfaceDecl) : Bool :=
  ds.any fun a => a.role != 0 && a.id != 3 && a.id != 4 && ! (solitary && a.id == 8) &&
    ! ds.any fun b => b.id == a.id && b.role != 1

/-- A firmware entry names the ROM and every image of the set (R79, R80). -/
def fwNames (e : FwEntry) (f : Fuses) (b : Bank) : Bool :=
  let v (t : Nat) : Nat := imageVer (bankHeader b t)
  e.romRev == f.romVersion && e.sec == v 1 && e.ctl == v 2 && e.wdn == v 3 && e.mtf == v 4 &&
  (f.solitary || e.haw == v 5) && e.ing == v 6

/-- The lowest-numbered matching firmware entry (R80). -/
def fwMatch (f : Fuses) (b : Bank) : Option Nat :=
  (List.range b.concord.fw.length).find? fun i => ((b.concord.fw[i]?).map fun e => fwNames e f b).getD false

/-- The version of an interface that CTL declares: its major, and the lowest minor declared for it (R81). -/
def ctlDeclares (ds ctl : List IfaceDecl) (id : Nat) : Option (Nat × Nat) :=
  (ctl.find? (·.id == id)).map fun d =>
    (d.major, ((ds.filter (·.id == id)).map (·.minor)).foldl min d.minor)

/-- CTL's HOSTRING and ERRREC versions, laid out as PART_DRV_IFVER; without both declarations a value no driver can
present, so that every driver is DISCORD (R98, R99). -/
def ctlIfverOf (ds ctl : List IfaceDecl) : Nat :=
  match ctlDeclares ds ctl 3, ctlDeclares ds ctl 4 with
  | some h, some e => h.1 * 2 ^ 24 + h.2 * 2 ^ 16 + e.1 * 2 ^ 8 + e.2
  | _, _ => 2 ^ 32

/-! ### One bank: B3 to B6 (R82, R97) -/

def State.stage (s : State) (n : Nat) : State := { s with boot := { s.boot with stage := n } }

/-- Images loaded, verified and measured in turn; the first failure ends the load (R76, R594). -/
def loadImages (b : Bank) : List Nat → State → State × Bool
  | [], s => (s, true)
  | t :: ts, s =>
    match bankSlot b t with
    | some x =>
      if imageOk s.fuses x then loadImages b ts (s.extendMr (mrOf t) x.image.header) else (s, false)
    | none => (s, false)

/-- The cause a bank is rejected with, 0 when it is accepted (R69 to R82, R97). -/
def State.tryBank (s : State) (dirOk isB : Bool) (b : Bank) : State × Nat :=
  let s := s.stage 3
  let s := { s with boot := { s.boot with bankBInvalid := s.boot.bankBInvalid || (isB && dirOk && ! b.crcOk) } }
  if ! dirOk || ! b.crcOk || decide (8 < b.count) then (s, 1)
  else if ! slotsOk s.fuses.solitary b then (s, 2)
  else if ! concordOk s.fuses b then (s, 4)
  else
    let (s, ok) := loadImages b [1] ((s.extendMr 1 (bankHeader b 7)).stage 4)
    if ! ok then (s, 3)
    else
      let (s, ok) := loadImages b (if s.fuses.solitary then [2, 3, 4, 6] else [2, 3, 4, 6, 5]) (s.stage 5)
      let ds := setDecls s.fuses b
      if ! ok then (s, 3)
      else if majorClash ds then (s.stage 6, 5)
      else if unprovided s.fuses.solitary ds then (s.stage 6, 6)
      else (s.stage 6, 0)

/-- The measurements of a rejected bank are discarded (R82, R594). -/
def State.dropMeasures (s : State) : State :=
  { s with sec := { s.sec with mrs := (s.sec.mrs.take 1) ++ List.replicate 7 0 ++ s.sec.mrs.drop 8 } }

/-- The bank that boots, with bank A tried before bank B (R82); none when both are rejected. -/
def State.chooseBank (s : State) (i : BootIn) : State × Option Bank :=
  let dir := i.dirOk || i.mirrorOk
  let tryB (s : State) : State × Option Bank :=
    let (s, c) := s.tryBank dir true i.bankB
    if c = 0 then ({ s with boot := { s.boot with bankB := true } }, some i.bankB)
    else ({ s with boot := { s.boot with bCause := c } }, none)
  if s.fuses.lifecycle = .decommissioned then tryB { s with boot := { s.boot with aCause := 8 } }
  else if i.bootBank then tryB { s with boot := { s.boot with aCause := 7 } }
  else
    let (s, c) := s.tryBank dir false i.bankA
    if c = 0 then (s, some i.bankA)
    else tryB ({ s with boot := { s.boot with aCause := c, fallback := true } }.dropMeasures)

/-! ### Outcomes (R80, R84 to R87) -/

/-- An override record that matches the running chip and set (R86). -/
def State.overrideOk (s : State) (r : OverrideRec) : Bool :=
  s.ownerSigned r.signer && r.serial == s.fuses.serial && r.setHash == s.boot.setHash && decide (r.pairs.length ≤ 4)

/-- An accepted override: it lifts restricted mode, its version pairs count, MR8 is extended (R87, R99, R594). -/
def State.applyOverride (s : State) (r : OverrideRec) : State :=
  let s := { s with boot := { s.boot with
              outcome := if s.boot.outcome == BootOutcome.tolerated then .overridden else s.boot.outcome
              overridePairs := r.pairs } }
  s.extendMr 8 (beBytes 48 (Config.overrideHash r.serial r.setHash r.pairs).toNat)

/-- B6: the accepted set is classified and adopted, MR8 extended, a stored override applied, and vector 33 raised
for the change of OUTCOME (R80, R87, R147, R594). -/
def State.adopt (s : State) (b : Bank) : State :=
  let f := s.fuses
  let ds := setDecls f b
  let ctl := declsOf (bankHeader b 2)
  let fw := fwMatch f b
  let opba := (ctlDeclares ds ctl 5).map fun v => v.1 * 256 + v.2
  let s := { s with boot := { s.boot with
    outcome := if fw.isSome then .concord else .tolerated
    sticky := fw.isNone
    fwEntry := fw
    imgVer := (List.range 7).map fun t => if (loadedTypes f.solitary).contains (t + 1) then imageVer (bankHeader b (t + 1)) else 0
    drivers := b.concord.drv
    setHash := setHashOf f.solitary b
    ctlIfver := ctlIfverOf ds ctl
    opba := opba.getD 0
    mtfMajor := bits (imageVer (bankHeader b 4)) 31 24
    concordFromA := fw.isSome && ! s.boot.bankB } }
  let s := s.extendMr 8 [BitVec.ofNat 8 f.lifecycle.code, BitVec.ofNat 8 s.sec.level, BitVec.ofNat 8 s.boot.outcome.code,
    BitVec.ofNat 8 (b2n f.solitary)]
  let s := if fw.isNone then s.raise1 0x8003 0 noUnit 0 else s
  let s := match s.flash.overrides.find? s.overrideOk with
    | some r => s.applyOverride r
    | none => s
  s.deviceEvent

/-! ### Training and self-test (R92 to R95, R384, R547) -/

/-- A chunk takes the free reserve slot with the lowest index (R369). -/
def State.placeChunk (st : Nat) (s : State) (k : Nat × Nat) : State :=
  match s.freeReserve st with
  | none => s
  | some c => { s with mortar := { s.mortar with
      remap := s.mortar.remap ++ [{ stack := st, slot := c, src := k.1, chunk := k.2 }] } }

/-- The pseudo-channels of a stack that fail training are retired into its reserve (R94). -/
def State.trainStack (failed : List Nat) (s : State) (st : Nat) : State :=
  let new := failed.filter fun p => p / 64 == st && ! s.outOfService (pcUnit p)
  let s := forAll new (fun s p => s.setUnit (pcUnit p) .retired) s
  let hosted := s.mortar.remap.filter fun r => r.stack == st && new.contains (st * 64 + r.slot)
  let s := { s with mortar := { s.mortar with
              remap := s.mortar.remap.filter fun r => ! (r.stack == st && new.contains (st * 64 + r.slot)) } }
  let chunks := hosted.map (fun r => (r.src, r.chunk)) ++
    new.flatMap fun p => (List.range 31).map fun j => (p % 64, j)
  forAll chunks (State.placeChunk st) s

/-- B8 and W4: none when the boot ends in FAILED (R93 to R95). -/
def State.train (s : State) (t : TrainIn) : Option State :=
  let failed := (t.failedPcs.filter fun p => decide (p < 512)).dedup
  let count (st : Nat) : Nat :=
    (s.pcsOut st).length + (failed.filter fun p => p / 64 == st && ! s.outOfService (pcUnit p)).length
  if (t.failedStacks.any fun k => decide (k < 8)) || (List.range 8).any fun st => decide (2 < count st) then none
  else
    let s := forAll (List.range 8) (State.trainStack failed) s
    some { s with
      boot := { s.boot with rate64 := ! t.rate8 }
      flash := { s.flash with training := some (t.serials, s.boot.mtfMajor), softRepairs := [] }
      mortar := { s.mortar with spare := [], spareAll := t.spareAll, spareMin := t.spareMin } }

/-- A slice out of service takes its ways with it (R560). -/
def State.sliceOut (s : State) (k : Nat) : State :=
  let held := (List.range 16).filter fun w => ! s.outOfService (wayUnit k w)
  let s := forAll held (fun s w => s.setUnit (wayUnit k w) .retired) s
  ({ s with mortar := { s.mortar with
      withSlice := held.foldl (fun l w => setIns (k * 16 + w) l) s.mortar.withSlice } }).setUnit (sliceUnit k) .retired

/-- B10 and W6: a brick or slice that fails is retired; a mesh link, or the last slice, ends the boot in FAILED (R92). -/
def State.selfTests (s : State) (failed : List UnitKey) : Option State :=
  if failed.any fun u => u.kind == 8 then none
  else
    let bs := (failed.filter fun u => u.kind == 1 && decide (u.index < 16)).map (·.index)
    let ks := ((failed.filter fun u => u.kind == 3 && decide (u.index < 8)).map (·.index)).filter s.sliceUp
    let s := forAll bs (fun s b => (s.setUnit (brickUnit b) .retired).modBrick b fun k => { k with powered := false }) s
    let s := forAll ks State.sliceOut s
    if (List.range 8).any s.sliceUp then some s.warmNodes else none

/-- The boot ends in FAILED: FATAL_N falls, the recovery window stays (R92). -/
def State.bootFails (s : State) : State :=
  let s := s.logFlash (.failure s.boot.stage)
  ({ s with phase := .failed, boot := { s.boot with outcome := .failed, stage := 0xFE } }).fatal.deviceEvent

/-! ### The installation record (R467 to R469) -/

def bindingOk (b : Binding) : Bool :=
  decide (b.used ≤ 1) && b.rsvZero &&
  (b.used == 0 || (decide (1 ≤ b.vlan) && decide (b.vlan ≤ 4094) && decide (b.prioData ≤ 7) && decide (b.prioCtrl ≤ 7) &&
    b.prioData != b.prioCtrl))

def chipEntryOk (c : ChipEntry) : Bool := decide (1 ≤ c.chip) && decide (c.chip ≤ 8192) && c.rsvZero

/-- Every field is in range (R467, R468). -/
def instRecOk (r : InstRec) : Bool :=
  r.magic == 0x48575352 && r.format == 1 && decide (1 ≤ r.count) && decide (r.count ≤ 8192) && r.rsvZero &&
  r.ports.length == 16 && r.ports.all bindingOk && r.chips.length == r.count && r.chips.all chipEntryOk

/-- The state code of the record, and the own chip number with code 0 (R468, R469). -/
def State.instCheck (s : State) (r : Option InstRec) : Nat × Nat :=
  if s.fuses.solitary then (5, 0)
  else if s.fuses.lifecycle ≠ .owned then (6, 0)
  else
    match r with
    | none => (1, 0)
    | some r =>
      if ! instRecOk r then (1, 0)
      else if ! s.ownerSigned r.signer then (2, 0)
      else
        match r.chips.find? fun c => c.serial == s.fuses.serial with
        | none => (3, 0)
        | some c =>
          if (r.chips.map (·.serial)).Nodup ∧ (r.chips.map (·.chip)).Nodup then (0, c.chip) else (4, 0)

/-- The record is read: chip number, bindings, chips; an unusable one raises 0x3003 (R468, R469). -/
def State.readInst (s : State) (r : Option InstRec) : State :=
  let (code, chip) := s.instCheck r
  let s := { s with haw := { s.haw with instState := code, chip := chip } }
  if code = 0 then
    match r with
    | some r => { s with haw := { s.haw with instId := r.instId, chips := r.chips.map (·.chip), bindings := r.ports } }
    | none => s
  else if code = 5 then s
  else s.raise1 0x3003 2 noUnit 0

/-- The security engine takes its reservation of EPOCH values, and holds the link secrets (R613, R616). -/
def State.reserveTxc (s : State) : State :=
  let held := if s.fuses.lifecycle == Lifecycle.owned then s.flash.secrets else []
  if s.flash.txcBound + 65536 ≤ 2 ^ 32 then
    { s with
      flash := { s.flash with txcBound := s.flash.txcBound + 65536 }
      haw := { s.haw with secrets := held, epoch := s.flash.txcBound, epochEnd := s.flash.txcBound + 65536 } }
  else { s with haw := { s.haw with secrets := held, exhausted := true } }.raise1 0x6040 2 noUnit 0

/-! ### Cold reset (R63, R88) -/

/-- The rails of RUN (R546). -/
def State.runRails (s : State) : Nat := if s.fuses.solitary then 0x3BF else 0x3FF

/-- Everything a cold reset clears is cleared; fuses, flash, pins and the warden's last-gasp records are kept (R63, R517,
R574, R602, R603). -/
def State.coldClear (s : State) : State :=
  let s := { s with fuses := s.sec.fused.getD s.fuses }
  let pins := { s.pins with fatalN := true, alertN := true, thermTripN := true, ppsOut := false, lostClks := [] }
  let flash := { s.flash with addr := 0, buf := [], cmd := none, result := 0 }
  let wdn := { WdnS.reset with gasp := s.wdn.gasp, gaspSeq := s.wdn.gaspSeq, railReq := s.wdn.railReq
                               course := List.replicate 4 (levelVolt s.fuses.solitary 1) }
  let sec := { SecS.reset with
    level := if s.fuses.lifecycle = .blank then 3 else 0, nonce := Config.drbg s.free, keyGen := s.sec.keyGen }
  let t := { State.reset with pending := s.pending, outs := s.outs, free := s.free + 1 }
  let t := { t with phase := .up, fuses := s.fuses, pins := pins, flash := flash }
  { t with
    hio0Up := s.pins.perstN.getD 0 true
    hio1Down := if s.pins.perstN.getD 1 true then none else some 0x3032
    wdn := wdn, sec := sec }

/-- B7: the warden writes the rails over AVSBus, for P1, or for P2 in restricted mode, the level the bricks start at
(R534, R535). -/
def State.setCourse (s : State) : State :=
  let p := if s.restricted then 2 else 1
  let v := levelVolt s.fuses.solitary p
  let s := { s with wdn := { s.wdn with
    course := List.replicate 4 v, bricks := s.wdn.bricks.map fun b => { b with level := p } } }
  let s := forAll (List.range 4) (fun s c => s.emit (.avs c v)) s
  let s := (s.emit (.avs 4 3000)).emit (.avs 5 3000)
  if s.fuses.solitary then s else s.emit (.avs 6 3000)

/-- B11: READY is set (R88, R97, R147). -/
def State.setReady (s : State) : State :=
  ({ s with boot := { s.boot with ready := true, stage := 11 } }).logBoot.deviceEvent

/-- Both banks are rejected: WARDEN with only the recovery window (R83). -/
def State.enterRecovery (s : State) : State :=
  let s := { s with phase := .recovery, boot := { s.boot with outcome := .recovery, stage := 0xFF } }
  ((s.setPwr .warden).setRails 0x380).logBoot.deviceEvent

/-- B7 to B11 on the adopted set (R88, R92, R96, R600). -/
def State.bringUp (s : State) (i : BootIn) : State :=
  let s := (s.stage 7).copyGasps
  if ! i.wdnOk then s.bootFails
  else
    let s := s.setCourse.stage 8
    match s.train i.train with
    | none => s.bootFails
    | some s =>
      match (s.stage 10).selfTests i.selfTestFail with
      | none => (s.stage 10).bootFails
      | some s =>
        if s.fuses.lifecycle = .decommissioned then s.logBoot
        else ((s.readInst i.instRec).reserveTxc).setReady

/-- The boot sequence (R88), which the model takes at once. -/
def boot (i : BootIn) (s : State) : State :=
  let s := ((s.coldClear.setRails s.runRails).stage 2).extendMr 0 (leBytes 4 s.fuses.romVersion)
  match s.chooseBank i with
  | (s, none) => s.enterRecovery
  | (s, some b) => (s.adopt b).bringUp i

/-! ### Commands -/

/-- COLD_RESET: COLD_RESET_N rises (R59, R63). A seize ends with it (R623). -/
def execColdReset (i : BootIn) (s : State) : Res :=
  let s := { s with pins := { s.pins with coldResetN := true } }
  .next (if s.pins.pwrGood then boot i s else { s with phase := .held })

/-- PWR_GOOD_RISE: a device held in reset with COLD_RESET_N high boots (R59). -/
def execPwrGoodRise (i : BootIn) (s : State) : Res :=
  let was := s.pins.pwrGood
  let s := { s with pins := { s.pins with pwrGood := true } }
  .next (if s.phase = .held ∧ was = false ∧ s.pins.coldResetN = true then boot i s else s)

/-- COLD_RESET_N_ASSERT: everything stops and is held in reset (R59). -/
def execColdResetNAssert (s : State) : Res :=
  .next { s with pins := { s.pins with coldResetN := false }, phase := .held }

/-- SEIZE_EXIT: the JTAG instruction ends a seize with a cold reset (R623). -/
def execSeizeExit (i : BootIn) (s : State) : Res := .next (if s.phase = .seized then boot i s else s)

/-- A write of 1 to SETUP_COLD_REQ starts a cold reset (R63, 18); the recovery window serves it in every phase that has one. -/
def setupColdReq (v : Word) (i : BootIn) (s : State) : State :=
  if s.phase = .held ∨ s.phase = .dark ∨ s.phase = .seized then s
  else if v = 1 then boot i s else s.ignoreTop 3 0x1C

def execSetupColdReq (v : Word) (i : BootIn) (s : State) : Res := .next (setupColdReq v i s)

/-- RAILS_IN_REGULATION: W3 to W7 of the return from WARDEN (R50, R547, R548, R374). -/
def railsUp (t : TrainIn) (failed : List UnitKey) (s : State) : State :=
  if s.phase ≠ .up ∨ s.wdn.st ≠ .warden ∨ s.wdn.waking = false then s
  else
    match s.train t with
    | none => s.bootFails
    | some s =>
      match ({ s with mem := Mem.empty }).selfTests failed with
      | none => s.bootFails
      | some s =>
        let s := { s with bricks := (List.range 16).map fun b =>
                    { BrickS.reset with powered := s.unit (brickUnit b) == UnitState.inService } }
        let s := forAll (List.range 16) State.startPort (s.setPwr .run)
        forAll ((List.range 16).filter fun n => (s.part n).allocated) (fun s n => s.raise1 0x5030 2 noUnit n) s

def execRailsInRegulation (t : TrainIn) (failed : List UnitKey) (s : State) : Res := .next (railsUp t failed s)

end Sys2Proof.Machine
end

