-- ==== Sys2Proof/Machine/Clock.lean ====
section
/-! DEFINITION. Device time under PTP and PPS (R44 to R51, R412), and the tick of its counter (R42, "Device time"). -/

namespace Sys2Proof.Machine

/-! ### The tick -/

/-- The nominal increment of one CD21 cycle, in units of 2^-32 ns: 2/3 ns, rounded one way or the other. -/
def nominalIncrement : Nat := if Config.incrementUp then 0xAAAAAAAB else 0xAAAAAAAA

/-- The rate of a slew, in parts per thousand million: 500 ppm while more than 1 us is left, then a smaller one that the
manual leaves open (R47). -/
def slewRate (left : Int) : Nat :=
  if 1000 * 2 ^ 32 < left.natAbs then 500000 else 1 + Config.fineSlewPpb % 499999

/-- The correction of one cycle, never past what is left. -/
def TimeS.correction (t : TimeS) : Int :=
  let c : Int := (nominalIncrement * slewRate t.slewLeft / 1000000000 : Nat)
  if 0 ≤ t.slewLeft then min t.slewLeft c else max t.slewLeft (-c)

/-- One CD21 cycle of the counter on CTL0 (R42): the fraction carries into nanoseconds. -/
def TimeS.tick (t : TimeS) : TimeS :=
  let f := t.frac + ((nominalIncrement : Int) + t.correction).toNat
  { t with now := t.now + f / 2 ^ 32, frac := f % 2 ^ 32, slewLeft := t.slewLeft - t.correction }

/-- A WARDEN_XTAL cycle of the warden's count: 40 ns (R50). -/
def TimeS.wardenTick (t : TimeS) : TimeS := { t with now := t.now + 40 }

/-! ### The PTP slave clock (R45 to R48, R412) -/

/-- A PTP message of the clock's domain on a port that PTP_PORT_MASK enables and whose link is up (R412). -/
def State.ptpHears (s : State) (port domain : Nat) : Bool :=
  let c := s.regN 0x400008
  s.online && decide (port < 4) && s.ingestUp port && bit c (16 + port) && bits c 7 0 == domain

/-- The order of the best master clock algorithm: the lower data set is the better (R412). -/
def PtpBetter (a b : PtpMaster) : Bool :=
  let k (m : PtpMaster) : List Nat :=
    [m.priority1, m.clockClass, m.accuracy, m.variance, m.priority2, m.identity, m.steps]
  decide (k a < k b)

/-- PTP_ANNOUNCE: the best master heard is followed. -/
def ptpAnnounce (port domain : Nat) (m : PtpMaster) (s : State) : State :=
  if ! s.ptpHears port domain then s
  else
    match s.ptp.master with
    | none => { s with ptp := { s.ptp with master := some m } }
    | some b =>
      if m.identity = b.identity then { s with ptp := { s.ptp with master := some m } }
      else if PtpBetter m b then { s with ptp := { s.ptp with master := some m, delay := none } }
      else s

def execPtpAnnounce (port domain : Nat) (m : PtpMaster) (s : State) : Res := .next (ptpAnnounce port domain m s)

/-- Some deadline slot is armed (R46). -/
def State.slotArmed (s : State) : Bool := s.slots.any fun x => x.2.armed.isSome && ! x.2.missed

/-- Device time steps forward, once, and is LOCKED (R46). -/
def State.stepTime (s : State) (d : Nat) : State :=
  ({ s with time := { s.time with now := s.time.now + d, step := 0, stepped := true } }).setTime .locked 0

/-- A correction to slew at up to 500 ppm (R47). -/
def State.slew (s : State) (d : Int) : State :=
  { s with time := { s.time with slewLeft := d * 2 ^ 32 } }

/-- The servo has measured the offset of PTP time from device time (R45 to R47). -/
def State.measured (s : State) (port : Nat) (d : Int) : State :=
  match s.time.st with
  | .acquire =>
    if d < 0 then s.setTime .refused port
    else if s.slotArmed then
      ({ s with time := { s.time with step := d.toNat } }).setTime .stepPending port
    else s.stepTime d.toNat
  | .stepPending =>
    if d < 0 then ({ s with time := { s.time with step := 0 } }).setTime .refused port
    else { s with time := { s.time with step := d.toNat } }
  | .locked => if 1000000000 < d.natAbs then s.setTime .refused port else s.slew d
  | .holdover => if 1000000000 < d.natAbs then s.setTime .refused port else (s.setTime .locked port).slew d
  | _ => s

/-- PTP_SYNC: a Sync of the master, whose PTP time of sending is `time`, is accepted; the offset is measured once the path
delay is known (R45, R412). -/
def ptpSync (port domain identity time : Nat) (s : State) : State :=
  if ! s.ptpHears port domain || (s.ptp.master.map (·.identity)) != some identity || s.time.st == .refused then s
  else
    let s := ({ s with ptp := { s.ptp with lastSync := s.now } }).emit (.ptpDelayReq port)
    if s.time.st = .free then s.setTime .acquire port
    else
      match s.ptp.delay with
      | none => s
      | some d => s.measured port ((time : Int) + d - s.now)

def execPtpSync (port domain identity time : Nat) (s : State) : Res := .next (ptpSync port domain identity time s)

/-- DELAY_RESP: the path delay to the master, in nanoseconds (R412). -/
def execDelayResp (port domain identity delay : Nat) (s : State) : Res :=
  if s.ptpHears port domain && (s.ptp.master.map (·.identity)) == some identity then
    .next { s with ptp := { s.ptp with delay := some delay } }
  else .next s

/-- SYNC_TIMEOUT: no accepted Sync for 4 s (R45). -/
def execSyncTimeout (s : State) : Res :=
  if s.phase = .up ∧ s.ptp.lastSync + 4000000000 ≤ s.now then .next s.loseSync else .next s

/-- DEVICE_TIME_STEP: in STEP_PENDING, with no slot armed, the step is taken (R45, R46). -/
def execDeviceTimeStep (s : State) : Res :=
  if s.phase = .up ∧ s.time.st = .stepPending ∧ s.slotArmed = false then .next (s.stepTime s.time.step) else .next s

/-! ### PPS (R51) -/

/-- The signed distance from the nearest whole second. -/
def ppsOffset (now : Nat) : Int :=
  let r := now % 1000000000
  if r < 500000000 then (r : Int) else (r : Int) - 1000000000

/-- PPS_IN_EDGE. -/
def execPpsInEdge (s : State) : Res :=
  if s.phase = .up ∧ bit (s.regN 0x20014) 0 = true then
    .next { s with time := { s.time with ppsOffset := ppsOffset s.now } }
  else .next s

/-- PPS_OUT: PTP_PPS_OUT rises at each whole second. -/
def execPpsOut (s : State) : Res :=
  if s.phase = .up ∧ s.now % 1000000000 = 0 then
    .next { s with pins := { s.pins with ppsOut := true }, time := { s.time with ppsRose := s.now } }
  else .next s

/-- PPS_OUT_FALL: 1 ms later it falls. -/
def execPpsOutFall (s : State) : Res :=
  if s.phase = .up ∧ s.pins.ppsOut = true ∧ s.time.ppsRose + 1000000 ≤ s.now then
    .next { s with pins := { s.pins with ppsOut := false } }
  else .next s

end Sys2Proof.Machine
end

