-- ==== Sys2Proof/Machine/Pins.lean ====
section
/-! DEFINITION. Reset pins, host links, lost references and failed mesh links (R30, R40 to R42, R63 to R67, R153 to R158,
R520). -/

namespace Sys2Proof.Machine

/-! ### Warm resets (R63, R67, R520) -/

/-- WARM_RESET_N. -/
def execWarmResetN (w : WarmIn) (s : State) : Res := .next (s.warm w)

/-- I3C_WARM_RESET_REQUEST: the sideband writes 0x52 to sideband register 0x57 (R520). -/
def execI3cWarmResetRequest (b0 b1 : Byte) (w : WarmIn) (s : State) : Res :=
  .next (if b0 = 0x57 ∧ b1 = 0x52 then s.warm w else s)

/-- HIO0's link is down; its requests stop. -/
def State.hio0Lost (s : State) : State := { s with hio0Up := false }

/-- PERST0_N is asserted: a fundamental reset of the port, and a warm reset (R67, R158). -/
def execPerst0N (w : WarmIn) (s : State) : Res :=
  let s := { s with pins := { s.pins with perstN := modAt s.pins.perstN 0 fun _ => false } }
  .next (if s.phase = .seized then s else ({ s.hio0Lost with vfEnable := false }).warm w)

/-- HIO0_LINK_LOSS (R158). -/
def execHio0LinkLoss (w : WarmIn) (s : State) : Res := .next (if s.phase = .seized then s else s.hio0Lost.warm w)

/-- FLR_PF0: VF Enable clears and a warm reset is performed (R155). -/
def execFlrPf0 (w : WarmIn) (s : State) : Res :=
  .next (if s.phase = .seized then s else ({ s with vfEnable := false }).warm w)

/-! ### HIO1 (R143, R156, R158) -/

/-- HIO1's link goes down. -/
def State.hio1Lost (s : State) (ps : List Progress) : State := if s.phase = .seized then s else s.failHio1 0x3032 ps

/-- PERST1_N is asserted (R158). -/
def execPerst1N (ps : List Progress) (s : State) : Res :=
  .next (({ s with pins := { s.pins with perstN := modAt s.pins.perstN 1 fun _ => false } }).hio1Lost ps)

/-- HIO1_LINK_LOSS (R158). -/
def execHio1LinkLoss (ps : List Progress) (s : State) : Res := .next (s.hio1Lost ps)

/-- FLR_PF1 (R156). -/
def execFlrPf1 (ps : List Progress) (s : State) : Res :=
  .next (if s.phase = .seized ∨ s.hio1Down.isSome then s else s.failHio1 0x3034 ps)

/-- PF1_FLR_READINESS: descriptors may name PORT 1 or 2 again (R156). -/
def execPf1FlrReadiness (s : State) : Res := .next (if s.hio1Down = some 0x3034 then { s with hio1Down := none } else s)

/-- PERST_N_DEASSERT: PERSTn_N rises; a lost REFCLK_HOSTn that has returned is used again (R42). -/
def execPerstNDeassert (n : Nat) (s : State) : Res :=
  .next { s with pins := { s.pins with
            perstN := modAt s.pins.perstN n fun _ => true
            lostClks := s.pins.lostClks.filter fun c => c != (if n = 0 then RefClk.host0 else RefClk.host1) } }

/-- PCIE_LINK_TRAINED (R90, R103, R158). -/
def execPcieLinkTrained (n : Nat) (s : State) : Res :=
  let high := s.pins.perstN.getD n false
  .next (if s.phase = .held ∨ s.phase = .dark ∨ s.phase = .seized ∨ high = false then s
    else if n = 0 then (if s.pins.lostClks.contains RefClk.host0 then s else { s with hio0Up := true })
    else if s.pins.lostClks.contains RefClk.host1 then s else { s with hio1Down := none })

/-! ### References and mesh links (R30, R40, R41) -/

/-- A Hawser port goes down with its link fault. -/
def linkClockOut (s : State) (p : Nat) : State :=
  let st := (s.port p).state
  if st == .down || st == .retired then s else (s.portOut p .down false).portErr p 0x3001 2 16 0 0 0 0

/-- An ingest port goes down with its link fault. -/
def ingClockOut (s : State) (q : Nat) : State :=
  if s.ingestUp q then (s.modIport q IngPort.unlinked).iportErr q 0x4031 2 16 else s

/-- What the loss of a reference does (R41). -/
def referenceLost (r : RefClk) (ps : List Progress) (w : WarmIn) (s : State) : State :=
  let was := s.pins.lostClks.contains r
  let s := { s with pins := { s.pins with lostClks := if was then s.pins.lostClks else r :: s.pins.lostClks } }
  if was || s.phase == .held || s.phase == .dark || s.phase == .seized then s
  else
    match r with
    | .sys => s.wardenStop .dark 4 0 0 0x27 noUnit
    | .host0 => s.hio0Lost.warm w
    | .host1 => s.hio1Lost ps
    | .link => if s.fuses.solitary || s.phase != .up then s else forAll (List.range 16) linkClockOut s
    | .ing => if s.phase != .up then s else (forAll (List.range 4) ingClockOut s).loseSync
    | .xtal => s.alert

/-- REFERENCE_LOST. -/
def execReferenceLost (r : RefClk) (ps : List Progress) (w : WarmIn) (s : State) : Res := .next (referenceLost r ps w s)

/-- MESH_LINK_FAIL: a mesh or attach link fails permanently (R30). -/
def execMeshLinkFail (link : Nat) (s : State) : Res :=
  .next (if s.memoryOn then s.raise1 0x2040 4 { kind := 8, index := Config.linkNumber link } 0 else s)

end Sys2Proof.Machine
end

