-- ==== Sys2Proof/Machine/Security.lean ====
section
/-! DEFINITION. The flash mailbox, the security mailbox and its records, debug levels, triggers, seizing, attestation
(R75, R86, R87, R591 to R628, R636, R642). -/

namespace Sys2Proof.Machine

/-! ### When PF0's registers are served (R83, R90, R573, R600, R622) -/

/-- No register path answers: held in reset, dark or seized. -/
def State.deaf (s : State) : Bool := s.phase == .held || s.phase == .dark || s.phase == .seized

/-- A BAR0 offset of PF0 is served: the recovery window always, the error registers after a DEVICE fault, the debug registers
and the debug request on a DECOMMISSIONED part, everything once the device is READY. -/
def State.serves (s : State) (off : Nat) : Bool :=
  let err := decide (0x1000000 ≤ off) && decide (off < 0x1100000)
  let dbg := (decide (0x800000 ≤ off) && decide (off < 0x1000000)) || off == 0x700008
  decide (off < 0x10000) ||
  (match s.phase with
  | .up => s.boot.ready || dbg
  | .stopped => err
  | _ => false)

/-- A write of a writable register at an offset: performed where it is served, else ignored with reason 0x5 (R632). -/
def State.gated (s : State) (off : Nat) (k : State → State) : State :=
  if s.deaf then s else if s.serves off then k s else s.ignoreTop 5 off

/-! ### The flash mailbox (R68, R75, R636) -/

def bankA : Nat := 0x400000
def bankB : Nat := 0x2000000

def inBankA (a : Nat) : Bool := decide (bankA ≤ a) && decide (a < bankA + bankBytes)
def inBankB (a : Nat) : Bool := decide (bankB ≤ a) && decide (a < bankB + bankBytes)
def inInst (a : Nat) : Bool := decide (0x40000 ≤ a) && decide (a < 0x80000)

def State.flashResult (s : State) (r : Nat) : State := { s with flash := { s.flash with result := r } }

/-- Bytes of flash, erased ones 0xFF. -/
def flashRd (m : List Host.Cell) (a n : Nat) : List Byte := (List.range n).map fun i => mapRd 0xFF (a + i) m

/-- Cells of a run of bytes of which those equal to 0xFF are erased. -/
def flashCells (a : Nat) : List Byte → List Host.Cell
  | [] => []
  | b :: r => if b = 0xFF then flashCells (a + 1) r else (a, b) :: flashCells (a + 1) r

/-- Programming clears bits and sets none; an erase sets every byte of a range to 0xFF. -/
def flashProgram (m : List Host.Cell) (a : Nat) (bs : List Byte) : List Host.Cell :=
  let new := ((flashRd m a bs.length).zip bs).map fun p => p.1 &&& p.2
  cellSplice a (a + bs.length) (flashCells a new) m
def flashErase (m : List Host.Cell) (a n : Nat) : List Host.Cell := cellSplice a (a + n) [] m

/-- The 4 KiB of the flash buffer. -/
def State.flashBuf (s : State) : List Byte := (List.range 4096).map fun i => mapRd 0 i s.flash.buf

/-- A command in progress makes another complete with result 0x2 (R636). -/
def State.flashFree (s : State) (k : State → State) : State :=
  s.gated 0x14 fun s => if s.flash.cmd.isSome then s.flashResult 2 else k s

def State.flashStart (s : State) (c : FlashCmd) : State := { s with flash := { s.flash with cmd := some c, result := 0 } }

/-- An erase or program is accepted in bank A and the installation region only; one in bank B raises 0x8001 (R75, R636). -/
def State.flashWritable (s : State) (k : State → State) : State :=
  let a := s.flash.addr
  if inBankA a || inInst a then k s
  else
    let s := s.flashResult 1
    if inBankB a then s.raise1 0x8001 2 noUnit 0 else s

/-- FLASH_READ: SETUP_FLASH_CMD 0x1. -/
def execFlashRead (s : State) : Res := .next (s.flashFree fun s => s.flashStart (.read s.flash.addr))

/-- FLASH_ERASE: SETUP_FLASH_CMD 0x2. -/
def execFlashErase (s : State) : Res :=
  .next (s.flashFree fun s => s.flashWritable fun s => s.flashStart (.erase s.flash.addr))

/-- FLASH_PROGRAM: SETUP_FLASH_CMD 0x3; the buffer is taken at once (R636). -/
def execFlashProgram (s : State) : Res :=
  .next (s.flashFree fun s => s.flashWritable fun s => s.flashStart (.program s.flash.addr s.flashBuf))

/-- Before an erase or program of bank A outside the header sector, that sector is erased (R75, R636). -/
def headerFirst (a : Nat) (m : List Host.Cell) : List Host.Cell :=
  if inBankA a && decide (bankA + sectorBytes ≤ a) then flashErase m bankA sectorBytes else m

/-- Flash contents change; a change of bank A means that the set that booted stands there no more (R75). -/
def State.putFlash (s : State) (a : Nat) (m : List Host.Cell) : State :=
  { s with flash := { s.flash with cells := m }
           boot := { s.boot with concordFromA := s.boot.concordFromA && ! inBankA a } }

/-- FLASH_COMMAND_DONE: the command in progress ends; BUSY falls (R636). -/
def flashCommandDone (ok : Bool) (s : State) : State :=
  match s.flash.cmd with
  | none => s
  | some c =>
    let s := { s with flash := { s.flash with cmd := none, result := if ok then 0 else 3 } }
    if ! ok then s
    else
      match c with
      | .read a => { s with flash := { s.flash with buf := runCells 0 (flashRd s.flash.cells a 4096) } }
      | .erase a =>
        s.putFlash a (flashErase (headerFirst a s.flash.cells) (a / sectorBytes * sectorBytes) sectorBytes)
      | .program a d => s.putFlash a (flashProgram (headerFirst a s.flash.cells) a d)

def execFlashCommandDone (ok : Bool) (s : State) : Res := .next (if s.deaf then s else flashCommandDone ok s)

/-! ### Driver classes (R99, R101) -/

/-- The class that presented versions reach (R99): 1 CONCORD, 2 TOLERATED, 3 DISCORD. -/
def State.classOf (s : State) (v : Nat) : Nat :=
  let c := s.boot.ctlIfver
  if v >>> 24 ≠ c >>> 24 ∨ bits v 15 8 ≠ bits c 15 8 then 3
  else if s.boot.outcome = .concord ∧
      (s.boot.drivers.any fun d => some d.fw == s.boot.fwEntry && d.ifver == v) = true then 1
  else if s.boot.overridePairs.contains v then 1
  else 2

/-- An override lifts the restriction of the drivers whose versions it lists (R101). -/
def State.reclass (s : State) : State :=
  { s with pages := s.pages.map fun (p : Page) =>
      if p.cls = 2 ∧ s.boot.overridePairs.contains p.ifver = true then { p with cls := 1 } else p }

/-! ### The security mailbox (R599, R642) -/

/-- A record submitted through SEC_MBOX_CMD: ignored while another is checked (R642). -/
def State.mailbox (s : State) (k : State → State) : State :=
  s.gated 0x700100 fun s => if s.sec.mboxCmd.isSome then s.ignoreTop 5 0x700100 else k s

def State.mboxAnswer (s : State) (code : Nat) : State := { s with sec := { s.sec with mboxCmd := some code } }

/-- `n` bytes of SEC_MBOX_BUF. -/
def State.mboxBytes (s : State) (n : Nat) : List Byte := (List.range n).map fun i => mapRd 0 i s.sec.mboxBuf

/-- A refused record: its fault, and its code in SEC_MBOX_STATUS. -/
def State.secRefuse (s : State) (code after kind cause : Nat) : State :=
  let r := { ErrRec.mk0 s.now code 0 0x27 noUnit 0 with detail := s.secDetail s.sec.level after kind cause }
  s.raise { rec0 := r, unit := noUnit, row := 0, scope := .none }

/-- OVERRIDE (R86, R87): the accepted record is stored and in force. -/
def override (r : OverrideRec) (s : State) : State :=
  s.mailbox fun s =>
    if s.overrideOk r then
      let was := s.boot.outcome
      let s := ({ s with flash := { s.flash with overrides := r :: s.flash.overrides } }).applyOverride r
      let s := s.reclass.mboxAnswer 0
      if s.boot.outcome = was then s else s.deviceEvent
    else (s.raise1 0x8002 2 noUnit 0).mboxAnswer 0x8002

def execOverride (r : OverrideRec) (s : State) : Res := .next (override r s)

/-- The bytes of bank A written over bank B. -/
def copyBank (m : List Host.Cell) : List Host.Cell :=
  let a := (m.filter fun c => inBankA c.1).map fun c => (c.1 - bankA + bankB, c.2)
  cellSplice bankB (bankB + bankBytes) a m

/-- GOLDEN_UPDATE: bank B is written with the set that booted CONCORD from bank A (R75). -/
def goldenUpdate (r : GoldenRec) (s : State) : State :=
  s.mailbox fun s =>
    if s.ownerSigned r.signer && r.setHash == s.boot.setHash && s.boot.concordFromA then
      ({ s with flash := { s.flash with cells := copyBank s.flash.cells } }).mboxAnswer 0
    else (s.raise1 0x8001 2 noUnit 0).mboxAnswer 0x8001

def execGoldenUpdate (r : GoldenRec) (s : State) : Res := .next (goldenUpdate r s)

/-! ### Lifecycle records (R597 to R599) -/

/-- The fields of a lifecycle record are well formed, and name this chip and boot (R598). -/
def State.lifecycleFields (s : State) (b : List Byte) : Bool :=
  let kind := fieldLE b 4 1
  fieldLE b 0 4 == 0x4C435952 && decide (1 ≤ kind) && decide (kind ≤ 4) && zeroField b 5 3 &&
  fieldLE b 8 8 == s.fuses.serial && fieldLE b 0x10 8 == s.sec.nonce.toNat && (kind == 2 || zeroField b 0x18 49) &&
  zeroField b 0x49 55

/-- The key a lifecycle record needs (R593). -/
def State.lifecycleSigned (s : State) (g : Signer) : Bool :=
  match s.fuses.lifecycle with
  | .blank => g == .provisioning
  | .provisioned => g == .provisioning
  | .owned => s.ownerSigned g
  | .decommissioned => false

/-- Every owner slot revoked. -/
def revokeAll (os : List OwnerSlot) : List OwnerSlot := os.map fun (o : OwnerSlot) => { o with revoked := true }

/-- The fuses an accepted record leaves; none for a transition that the table does not allow (R597, R599). -/
def State.lifecycleFuses (s : State) (b : List Byte) : Option Fuses :=
  let f := s.fuses
  let kind := fieldLE b 4 1
  if kind ≠ 1 ∧ 2 ≤ s.sec.level then none
  else
    match f.lifecycle, kind with
    | .blank, 1 => if s.sec.level = 3 then some { f with lifecycle := .provisioned, certified := true } else none
    | .provisioned, 2 =>
      if f.owners.length < 4 then
        some { f with lifecycle := .owned
                      owners := f.owners ++ [{ key := fieldLE b 0x18 49, valid := true, revoked := false }] }
      else none
    | .owned, 3 => some { f with lifecycle := .provisioned, owners := revokeAll f.owners }
    | .decommissioned, _ => none
    | _, 4 => some { f with lifecycle := .decommissioned, seedGone := true, owners := revokeAll f.owners }
    | _, _ => none

/-- The link secret is erased, and with a release the override region. -/
def State.eraseSecrets (s : State) (release : Bool) : State :=
  { s with flash := { s.flash with secrets := [], overrides := if release then [] else s.flash.overrides }
           haw := { s.haw with secrets := [] } }

/-- LIFECYCLE_RECORD (R599): the record in SEC_MBOX_BUF, and who signed it. -/
def lifecycleRecord (g : Signer) (s : State) : State :=
  s.mailbox fun s =>
    let b := s.mboxBytes 224
    let kind := fieldLE b 4 1
    match if s.lifecycleFields b && s.lifecycleSigned g then s.lifecycleFuses b else none with
    | none => (s.secRefuse 0x6011 s.sec.level kind 0).mboxAnswer 0x6011
    | some f =>
      let s := if kind = 3 ∨ kind = 4 then s.eraseSecrets (kind == 3) else s
      let s := { s with sec := { s.sec with fused := some f } }
      (s.extendMr 8 (sha384 b)).mboxAnswer 0

def execLifecycleRecord (g : Signer) (s : State) : Res := .next (lifecycleRecord g s)

/-! ### Link secrets (R613, R616) -/

/-- The checks of a link secret record; `unwrapOk` says that the wrapped secret unwraps under the derived key. -/
def State.linkRecordOk (s : State) (b : List Byte) (g : Signer) (unwrapOk : Bool) : Bool :=
  fieldLE b 0 4 == 0x4C4B5352 && fieldLE b 4 2 == 1 && fieldLE b 8 8 == s.fuses.serial && s.haw.instState == 0 &&
  fieldLE b 0x10 8 == s.haw.instId && zeroField b 0x79 7 && zeroField b 0xA8 24 && s.ownerSigned g && unwrapOk

/-- LINK_SECRET_RECORD: the accepted secret and the one before it are kept; the EPOCH bound starts again (R613, R616). -/
def linkSecretRecord (g : Signer) (unwrapOk : Bool) (secret : Nat) (s : State) : State :=
  s.mailbox fun s =>
    let b := s.mboxBytes 288
    if s.linkRecordOk b g unwrapOk then
      let ks := ({ gen := fieldLE b 6 2, secret := secret } :: s.flash.secrets).take 2
      let cells := flashProgram (flashErase s.flash.cells 0x7F000 4096) 0x7F000 b
      let s := { s with flash := { s.flash with secrets := ks, cells := cells, txcBound := 65536 } }
      let ports := s.haw.ports.map fun (p : HawPort) => { p with txCount := 0 }
      ({ s with haw := { s.haw with secrets := ks, ports := ports, epoch := 0, epochEnd := 65536
                                    exhausted := false } }).mboxAnswer 0
    else (s.secRefuse 0x6012 s.sec.level 0 0).mboxAnswer 0x6012

def execLinkSecretRecord (g : Signer) (unwrapOk : Bool) (secret : Nat) (s : State) : Res :=
  .next (linkSecretRecord g unwrapOk secret s)

/-! ### Debug tokens and levels (R601 to R607) -/

/-- DEBUG_TOKEN: the token is placed by the mailbox or by the JTAG DBG_TOKEN register (R605). -/
def debugToken (jtag : Bool) (bytes : List Byte) (g : Signer) (s : State) : State :=
  if jtag then
    if s.deaf then s else { s with sec := { s.sec with jtagToken := some { bytes := bytes, signer := g } } }
  else
    s.mailbox fun s =>
      ({ s with sec := { s.sec with mboxToken := some { bytes := s.mboxBytes 160, signer := g } } }).mboxAnswer 0

def execDebugToken (jtag : Bool) (bytes : List Byte) (g : Signer) (s : State) : Res := .next (debugToken jtag bytes g s)

/-- The key a debug token needs (R593). -/
def State.tokenSigned (s : State) (g : Signer) : Bool :=
  match s.fuses.lifecycle with
  | .provisioned => g == .debugKey
  | .owned => s.ownerSigned g
  | _ => false

/-- The first check of R606 that a token fails, 0 when it passes. -/
def State.tokenCause (s : State) (t : Token) (target : Nat) : Nat :=
  let b := t.bytes
  let l := fieldLE b 4 1
  if fieldLE b 0 4 ≠ 0x4442544B ∨ (l ≠ 1 ∧ l ≠ 2) ∨ zeroField b 5 3 = false ∨ zeroField b 0x20 32 = false then 1
  else if fieldLE b 8 8 ≠ s.fuses.serial then 2
  else if fieldLE b 0x10 8 ≠ s.sec.nonce.toNat then 3
  else if fieldLE b 0x18 8 ≠ 0 ∧ fieldLE b 0x18 8 < s.now then 4
  else if s.tokenSigned t.signer = false then 5
  else if l < target then 6
  else 0

/-- Partition `n` is encrypted: its window has keys. -/
def State.encrypted (s : State) (n : Nat) : Bool :=
  (s.part n).allocated && ! (s.part n).keyless && (s.windows.getD n Window.reset).key.isSome

/-- I3: the keys of a window are gone, and its cache lines dropped without write-back (R607, R610). -/
def State.zeroKey (s : State) (i : Nat) : State :=
  let w := s.windows.getD i Window.reset
  if w.key.isNone then s
  else
    { s with
      windows := modAt s.windows i fun w => { w with key := none, lost := true }
      mortar := { s.mortar with dirty := s.mortar.dirty.filter fun l =>
        ! (w.valid && decide (w.base * Config.gib ≤ 128 * l) && decide (128 * l < w.limit * Config.gib)) } }

/-- I1 to I3 of the entry to INVASIVE (R607). -/
def State.enterInvasive (s : State) : State :=
  let ps := (List.range 16).filter s.encrypted
  let s := forAll ps (fun s n =>
    let r := { ErrRec.mk0 s.now 0x6031 3 0x27 noUnit n with detail := s.secDetail s.sec.level 2 0 0 }
    (s.partReset n false).raise { rec0 := r, unit := noUnit, row := 0, scope := .none }) s
  let s := forAll ps (fun s n => s.modPart n fun p => { p with keyless := true }) s
  forAll (List.range 24) State.zeroKey s

/-- The level changes: MR8 takes the token that a raise used, then the new level (R594, R607). -/
def State.setLevel (s : State) (l : Nat) (t : Option Token) : State :=
  let s := if 2 ≤ l ∧ s.sec.level < 2 then s.enterInvasive else s
  let s := match t with | some t => s.extendMr 8 (sha384 t.bytes) | none => s
  let s := s.extendMr 8 [BitVec.ofNat 8 l]
  { s with sec := { s.sec with level := l, cause := 0 } }

/-- A token refused: its cause is reported, 0x6010 raised. -/
def State.tokenRefused (s : State) (target cause kind : Nat) : State :=
  ({ s with sec := { s.sec with cause := cause } }).secRefuse 0x6010 target kind cause

/-- A raise that needs a token takes the one last placed by the same path (R605). -/
def State.withToken (s : State) (jtag : Bool) (target : Nat) : State :=
  match if jtag then s.sec.jtagToken else s.sec.mboxToken with
  | none => s.tokenRefused target 1 0
  | some t =>
    let c := s.tokenCause t target
    if c = 0 then s.setLevel target (some t) else s.tokenRefused target c (fieldLE t.bytes 4 1)

/-- A request for a debug level (R605). -/
def State.levelRequest (s : State) (jtag : Bool) (target : Nat) : State :=
  let open_ := s.fuses.lifecycle == .blank || s.fuses.lifecycle == .decommissioned
  if target = s.sec.level then s
  else if target < s.sec.level then s.setLevel target none
  else if target = 3 then
    if s.fuses.lifecycle = .blank then s.setLevel 3 none else s.secRefuse 0x6013 target 0 0
  else if (target = 1 ∧ jtag = false) ∨ open_ = true then s.setLevel target none
  else s.withToken jtag target

/-- DEBUG_LEVEL_REQUEST: a write of SEC_DEBUG_REQ, or the JTAG DBG_REQ instruction (R605, R607). -/
def debugLevelRequest (jtag : Bool) (v : Word) (s : State) : State :=
  let k (s : State) : State := s.levelRequest jtag (bits v.toNat 1 0)
  if jtag then (if s.deaf then s else k s) else s.gated 0x700008 k

def execDebugLevelRequest (jtag : Bool) (v : Word) (s : State) : Res := .next (debugLevelRequest jtag v s)

/-- SEC_MBOX_DONE: the answer is reported, BUSY falls; an accepted lifecycle record is followed by a cold reset (R599,
R642). -/
def secMboxDone (i : BootIn) (s : State) : State :=
  match s.sec.mboxCmd with
  | none => s
  | some c =>
    if s.deaf then s
    else
      let s := { s with sec := { s.sec with mboxCmd := none, mboxStatus := c } }
      if s.sec.fused.isSome then boot i s else s

def execSecMboxDone (i : BootIn) (s : State) : Res := .next (secMboxDone i s)

/-! ### Seize (R620 to R624) -/

/-- A seize that is refused below INVASIVE (R620). -/
def State.seizeRefused (s : State) : State :=
  let s := s.secRefuse 0x6020 s.sec.level 0 0
  ({ s with dbg := { s.dbg with refused := sat32 (s.dbg.refused + 1) } }).logFlash (.seizeRefused s.now)

/-- S1 to S5: every powered island stops, every key is zeroised, the scan chains open (R621). -/
def State.seized (s : State) : State :=
  { s with
    phase := .seized
    windows := s.windows.map fun (w : Window) => { w with key := none, lost := w.lost || w.key.isSome }
    haw := { s.haw with secrets := [] }
    sec := { s.sec with mboxToken := none, jtagToken := none }
    dbg := { s.dbg with seize := .open_, seizeTime := s.now } }

/-- A trigger of a seize, honoured at INVASIVE and above (R620). -/
def State.seizeTrigger (s : State) : State :=
  if s.phase = .held ∨ s.phase = .seized then s else if 2 ≤ s.sec.level then s.seized else s.seizeRefused

/-- SEIZE_N: a qualified falling edge (R53, R620). -/
def execSeizeN (s : State) : Res := .next s.seizeTrigger

/-- JTAG_SEIZE: the JTAG SEIZE instruction (R620). -/
def execJtagSeize (s : State) : Res := .next s.seizeTrigger

/-! ### Debug triggers and counters (R618, R619, R626, R643) -/

/-- A die has power (R540, R627). -/
def State.diePowered (s : State) (die : Nat) : Bool :=
  if die < 16 then (s.brick die).powered
  else if die < 32 then s.wdn.st != .warden
  else if die < 36 then s.wdn.st != .warden && ! s.fuses.solitary
  else decide (die < 40)

/-- A test-mux selection names a signal of a powered die (R626, R627). -/
def State.muxOk (s : State) (die index group : Nat) : Bool :=
  s.diePowered die &&
  (match group with
  | 0 => index == 0
  | 1 => decide (die < 16)
  | 2 => decide (die < 16)
  | 3 => decide (16 ≤ die) && decide (die < 24)
  | 4 => decide (16 ≤ die) && decide (die < 24) && decide (index < 64)
  | 5 => decide (32 ≤ die) && decide (die < 36) && decide (index < 4)
  | 6 => die == 0x26 && decide (index < 4)
  | 7 => die == 0x27
  | 8 => die == 0x27
  | _ => false)

/-- A selection word: die, index, group, bit (18, DBG_). -/
def muxWord (w : Nat) : MuxSig := { die := bits w 29 24, index := bits w 23 16, group := bits w 15 8, bit := bits w 2 0 }

def State.muxEdges (s : State) (edges : List MuxSig) (m : MuxSig) : Nat :=
  if s.muxOk m.die m.index m.group then edges.count m else 0

/-- Words of DBG_TRIGn. -/
def State.trigW (s : State) (n off : Nat) : Nat := s.regN (0x800100 + 32 * n + off)

/-- The condition of a trigger holds in this cycle (R618). -/
def State.trigHolds (s : State) (edges : List MuxSig) (n : Nat) : Bool :=
  let fw := s.trigW n 8
  match bits (s.trigW n 0) 2 0 with
  | 1 => ((s.repair.inHand.toList ++ s.repair.queue).any fun e =>
      e.rec0.time == s.now && (e.rec0.code &&& bits fw 31 16) == (bits fw 15 0 &&& bits fw 31 16))
  | 2 => decide (s.trigW n 0x10 + 2 ^ 32 * s.trigW n 0x14 ≤ s.now)
  | 3 => s.muxEdges edges (muxWord (s.trigW n 0x18)) != 0
  | _ => false

/-- DBG_CNTn counts the edges of its selected signal (R643). -/
def State.countEdges (s : State) (edges : List MuxSig) (n : Nat) : State :=
  let w := s.regN (0x810000 + 8 * n)
  let k := if bit w 31 then s.muxEdges edges (muxWord w) else 0
  { s with dbg := { s.dbg with counters := mapSet 0 n ((mapRd 0 n s.dbg.counters + k) % 2 ^ 64) s.dbg.counters } }

/-- DEBUG_TRIGGER: the triggers that hold in a cycle fire together; trace stop overrides trace start, seize overrides the
rest (R619). `edges` are the rising edges of test-mux signals in that cycle. -/
def debugTrigger (edges : List MuxSig) (s : State) : State :=
  if s.deaf || decide (s.sec.level < 1) then s
  else
    let act := ((List.range 16).filter (s.trigHolds edges)).map fun n => s.trigW n 4
    let on (i : Nat) : Bool := act.any fun a => bit a i
    let s := forAll (List.range 256) (fun s n => s.countEdges edges n) s
    if on 4 && decide (2 ≤ s.sec.level) then s.seizeTrigger
    else
      let s := if on 1 then ({ s with dbg := { s.dbg with tracing := false } }).emit .traceStop
        else if on 0 then ({ s with dbg := { s.dbg with tracing := true } }).emit .traceStart else s
      let s := if on 2 then s.emit .counterSnapshot else s
      let s := if on 3 then s.deviceEvent else s
      if on 4 then s.seizeTrigger else s

def execDebugTrigger (edges : List MuxSig) (s : State) : Res := .next (debugTrigger edges s)

/-! ### Attestation (R595, R596) -/

/-- The identity key exists (R596). -/
def State.hasIdentity (s : State) : Bool := s.fuses.lifecycle == .provisioned || s.fuses.lifecycle == .owned

/-- A response of the SPDM responder, which answers while the device is up. -/
def State.spdmSend (s : State) (code : Nat) (body : List Byte) : State :=
  if s.phase = .up then s.emit (.spdm code body) else s

/-- ERROR: UnsupportedRequest is 0x07, InvalidRequest 0x01; the second byte names the request. -/
def spdmError (code req : Nat) : List Byte := [BitVec.ofNat 8 code, BitVec.ofNat 8 req]

/-- Bytes of a response that the DMTF specification lays out. -/
def spdmBody (code n : Nat) : List Byte := (List.range n).map (Config.spdmByte code)

/-- A signature of the identity key: 96 bytes that only the part knows (R592). -/
def signature (draw : Nat) : List Byte := (List.range 96).map (Config.signByte draw)

/-- The certificate chain of slot 0 (R596). -/
def certChain : List Byte := (List.range (Config.certLength % 65536)).map Config.certByte

def execGetVersion (s : State) : Res := .next (s.spdmSend 0x04 (spdmBody 0x04 4))
def execGetCapabilities (s : State) : Res := .next (s.spdmSend 0x61 (spdmBody 0x61 16))

/-- NEGOTIATE_ALGORITHMS: one that offers neither P-384 nor SHA-384 receives ERROR (R595). -/
def execNegotiateAlgorithms (p384 sha384 : Bool) (s : State) : Res :=
  .next (if p384 || sha384 then s.spdmSend 0x63 (spdmBody 0x63 32) else s.spdmSend 0x7F (spdmError 7 0xE3))

/-- GET_DIGESTS: the digest of slot 0's chain, once one is stored. -/
def execGetDigests (s : State) : Res :=
  .next (s.spdmSend 0x01 (if s.fuses.certified then sha384 certChain else []))

/-- GET_CERTIFICATE: a part of slot 0's chain (R596). -/
def execGetCertificate (slot offset length : Nat) (s : State) : Res :=
  .next (if ! s.hasIdentity then s.spdmSend 0x7F (spdmError 7 0x82)
    else if slot ≠ 0 then s.spdmSend 0x7F (spdmError 1 0x82)
    else s.spdmSend 0x02 ((certChain.drop offset).take length))

/-- CHALLENGE: signed by the identity key (R596). -/
def execChallenge (slot nonce : Nat) (s : State) : Res :=
  .next (if ! s.hasIdentity then s.spdmSend 0x7F (spdmError 7 0x83)
    else if slot ≠ 0 then s.spdmSend 0x7F (spdmError 1 0x83)
    else (s.spdmSend 0x03 (sha384 certChain ++ leBytes 32 nonce ++ signature s.free)).drew 1)

/-- GET_MEASUREMENTS: indices 1 to 9 return MR0 to MR8, 0xFF all of them, 0 their number (R596). -/
def execGetMeasurements (index nonce : Nat) (s : State) : Res :=
  .next (if ! s.hasIdentity then s.spdmSend 0x7F (spdmError 7 0xE0)
    else
      let mr (i : Nat) : List Byte := beBytes 48 (s.sec.mrs.getD i 0)
      let tail := leBytes 32 nonce ++ signature s.free
      if index = 0 then (s.spdmSend 0x60 (9 :: tail)).drew 1
      else if index = 0xFF then (s.spdmSend 0x60 ((List.range 9).flatMap mr ++ tail)).drew 1
      else if index ≤ 9 then (s.spdmSend 0x60 (mr (index - 1) ++ tail)).drew 1
      else s.spdmSend 0x7F (spdmError 1 0xE0))

/-- Every other request receives ERROR with UnsupportedRequest (R595). -/
def execSpdmUnsupportedRequest (code : Nat) (s : State) : Res := .next (s.spdmSend 0x7F (spdmError 7 code))

end Sys2Proof.Machine
end

