-- ==== Sys2Proof/Machine/RegMap.lean ====
section
/-! DEFINITION. The register map: what every word of PF0 BAR0, of a function page and of PF1 BAR0 is, which bits it holds,
and why a write of it is ignored (R11, R12, R108 to R111, R629 to R644). -/

namespace Sys2Proof.Machine

/-- Access types (R11); `reserved` is an offset without a register (R109). -/
inductive Access where
  | reserved | ro | wo | rw | rwl
deriving DecidableEq, Repr

/-- The first entry of a table of ranges `[lo, hi)` that holds an offset. -/
def lookupAccess : List (Nat × Nat × Access) → Nat → Access
  | [], _ => .reserved
  | (lo, hi, a) :: r, o => if lo ≤ o ∧ o < hi then a else lookupAccess r o

/-! ### The tables of chapter 18 -/

/-- ID_ and FEAT_ (R203, R637). -/
def idTable : List (Nat × Nat × Access) := [(0, 0x18, .ro), (0x40, 0x80, .ro), (0x84, 0xA0, .ro)]

/-- The recovery window. -/
def recoveryTable : List (Nat × Nat × Access) :=
  [(0, 4, .ro), (0x10, 0x14, .rw), (0x14, 0x18, .wo), (0x18, 0x1C, .ro), (0x1C, 0x20, .wo), (0x1000, 0x2000, .rw),
   (0x2000, 0x3000, .ro)]

/-- SETUP_. -/
def setupTable : List (Nat × Nat × Access) :=
  [(0, 4, .rwl), (4, 0xC, .wo), (0x10, 0x14, .ro), (0x14, 0x18, .rwl), (0x18, 0x24, .ro), (0x24, 0x28, .rwl),
   (0x30, 0x38, .ro)]

/-- One partition of the PART_ table. -/
def partTable : List (Nat × Nat × Access) :=
  [(0, 4, .rwl), (8, 0x1C, .rwl), (0x1C, 0x20, .wo), (0x20, 0x28, .ro), (0x100, 0x500, .rwl)]

/-- MEM_. -/
def memTable : List (Nat × Nat × Access) :=
  [(0, 4, .rwl), (4, 8, .ro), (0xC, 0x28, .rwl), (0x100, 0x500, .ro), (0x600, 0x640, .ro), (0x800, 0x1000, .ro)]

/-- CACHE_. -/
def cacheTable : List (Nat × Nat × Access) := [(0, 0x428, .ro)]

/-- ING_, but for its ports and streams. -/
def ingTable : List (Nat × Nat × Access) :=
  [(0, 0xC, .rwl), (0x10, 0x20, .ro), (0x1000, 0x3000, .rwl), (0x3000, 0x3200, .ro)]

/-- One ingest port. -/
def ingPortTable : List (Nat × Nat × Access) :=
  [(0, 4, .rwl), (8, 0x14, .rwl), (0x20, 0x30, .rwl), (0x40, 0xA0, .ro)]

/-- One stream. -/
def strTable : List (Nat × Nat × Access) := [(0, 0x60, .rwl), (0x80, 0x8C, .ro), (0x8C, 0x90, .wo)]

/-- HAW_, but for its ports. -/
def hawTable : List (Nat × Nat × Access) := [(0, 4, .ro), (4, 8, .rwl), (8, 0xC, .ro), (0x40, 0x80, .rwl)]

/-- One Hawser port. -/
def hawPortTable : List (Nat × Nat × Access) := [(0, 4, .rwl), (4, 0xC, .ro), (0x10, 0x20, .ro)]

/-- WDN_ and PWR_. -/
def wdnTable : List (Nat × Nat × Access) :=
  [(0, 0x14, .ro), (0x20, 0x24, .ro), (0x100, 0x340, .ro), (0x800, 0x804, .ro), (0x804, 0x808, .wo), (0x808, 0x80C, .ro),
   (0x810, 0x820, .rwl), (0x820, 0x824, .ro), (0x824, 0x830, .rwl), (0x830, 0x838, .rw), (0x840, 0x848, .ro)]

/-- SEC_. -/
def secTable : List (Nat × Nat × Access) :=
  [(0, 8, .ro), (8, 0xC, .wo), (0x10, 0x18, .ro), (0x18, 0x20, .rwl), (0x20, 0x24, .ro), (0x24, 0x28, .rwl),
   (0x100, 0x104, .wo), (0x104, 0x108, .ro), (0x1000, 0x2000, .rw)]

/-- DBG_, but for its triggers and counters. -/
def dbgTable : List (Nat × Nat × Access) :=
  [(0, 4, .ro), (0x10, 0x18, .ro), (0x20, 0x24, .rw), (0x24, 0x28, .ro), (0x10800, 0x11000, .ro)]

/-- One debug trigger. -/
def trigTable : List (Nat × Nat × Access) := [(0, 0xC, .rw), (0x10, 0x1C, .rw)]

/-- ERR_. -/
def errTable : List (Nat × Nat × Access) := [(0, 8, .wo), (8, 0x10, .ro), (0x10, 0x14, .rw), (0x14, 0x1C, .ro)]

/-- One deadline slot. -/
def dlnTable : List (Nat × Nat × Access) := [(0, 4, .ro), (8, 0x18, .ro)]

/-- The access of a word of PF0 BAR0 outside the function page (R108). -/
def topAccess (o : Nat) : Access :=
  if o < 0x10000 then lookupAccess recoveryTable o
  else if o < 0x20000 then lookupAccess idTable (o - 0x10000)
  else if o < 0x30000 then lookupAccess setupTable (o - 0x20000)
  else if o < 0x40000 then lookupAccess partTable (o % 0x1000)
  else if o < 0x100000 then .reserved
  else if o < 0x200000 then (if o < 0x100800 then .ro else .reserved)
  else if o < 0x300000 then lookupAccess memTable (o - 0x200000)
  else if o < 0x400000 then lookupAccess cacheTable (o - 0x300000)
  else if o < 0x500000 then
    let r := o - 0x400000
    if 0x100 ≤ r ∧ r < 0x500 then lookupAccess ingPortTable (r % 0x100)
    else if 0x4000 ≤ r ∧ r < 0x4800 then lookupAccess strTable (r % 0x100)
    else lookupAccess ingTable r
  else if o < 0x600000 then
    let r := o - 0x500000
    if 0x100 ≤ r ∧ r < 0x500 then lookupAccess hawPortTable (r % 0x40) else lookupAccess hawTable r
  else if o < 0x700000 then lookupAccess wdnTable (o - 0x600000)
  else if o < 0x800000 then lookupAccess secTable (o - 0x700000)
  else if o < 0x1000000 then
    let r := o - 0x800000
    if 0x100 ≤ r ∧ r < 0x300 then lookupAccess trigTable (r % 32)
    else if 0x10000 ≤ r ∧ r < 0x10800 then (if r % 8 = 0 then .rw else .reserved)
    else lookupAccess dbgTable r
  else if o < 0x1100000 then lookupAccess errTable (o - 0x1000000)
  else if o < 0x1102000 then lookupAccess dlnTable (o % 32)
  else .reserved

/-- The access of a word of a function page (R110). -/
def pageAccess (f o : Nat) : Access :=
  if o < 0x100 then lookupAccess idTable o
  else if o < 0x130 then
    (if o = 0x100 ∨ o = 0x10C then .rwl else if o < 0x10C then .ro else if o < 0x124 then .rwl else .ro)
  else if 0x400 ≤ o ∧ o < 0x800 then
    lookupAccess [(0, 0xC, .rwl), (0xC, 0x10, .ro), (0x10, 0x14, .wo), (0x14, 0x18, .ro)] (o % 32)
  else if 0x800 ≤ o ∧ o < 0xC00 then lookupAccess [(0, 0xC, .rwl), (0xC, 0x10, .ro)] (o % 32)
  else if 0xC00 ≤ o ∧ o < 0xD00 then (if o % 8 = 0 then .rwl else .reserved)
  else if 0x2000 ≤ o ∧ o < 0x2000 + 16 * (if f = 0 then 34 else 33) then .rw
  else if 0x3000 ≤ o ∧ o < 0x3010 then .ro
  else .reserved

/-! ### 64-bit registers (R630) -/

/-- Low words of the 64-bit writable registers of PF0 BAR0. -/
def topWide (o : Nat) : Bool :=
  (decide (0x30000 ≤ o) && decide (o < 0x40000) && decide (0x100 ≤ o % 0x1000) && decide (o % 0x1000 < 0x500) && o % 16 == 0) ||
  (decide (0x400100 ≤ o) && decide (o < 0x400500) && o % 0x100 == 8) ||
  (decide (0x404000 ≤ o) && decide (o < 0x404800) && (o % 0x100 == 8 || o % 0x100 == 0x18 || o % 0x100 == 0x28)) ||
  o == 0x600810 || o == 0x600830 ||
  (decide (0x800100 ≤ o) && decide (o < 0x800300) && o % 32 == 0x10)

/-- Low words of the 64-bit RO registers of PF0 BAR0. -/
def topWideRo (o : Nat) : Bool :=
  o == 0x10000 || o == 0x20018 || (decide (0x100000 ≤ o) && decide (o < 0x100800) && o % 8 == 0) ||
  (decide (0x400100 ≤ o) && decide (o < 0x400500) && decide (0x40 ≤ o % 0x100) && decide (o % 0x100 < 0xA0) && o % 8 == 0) ||
  (decide (0x500100 ≤ o) && decide (o < 0x500500) && (o % 0x40 == 0x10 || o % 0x40 == 0x18)) ||
  o == 0x600840 || o == 0x700010 || (decide (0x810800 ≤ o) && decide (o < 0x811000) && o % 8 == 0) ||
  (decide (0x1100000 ≤ o) && decide (o < 0x1102000) && o % 32 == 8)

/-- Low words of the 64-bit writable registers of a function page. -/
def pageWide (o : Nat) : Bool :=
  o == 0x110 || o == 0x118 || (decide (0x400 ≤ o) && decide (o < 0xC00) && o % 32 == 0)

/-! ### Defined bits (R12) -/

/-- The bits of a plain word of PF0 BAR0 that are not reserved. -/
def topMask (o : Nat) : Nat :=
  let all := 0xFFFFFFFF
  if o = 0x20014 then 1 else if o = 0x20024 then 7
  else if o < 0x40000 then
    (match o % 0x1000 with
    | 0 => 0xFFFF | 8 => 0x1FF | 0xC => 0x1FF | 0x14 => 0x81FF1FFF | 0x18 => 0x1FF
    | r => if 0x100 ≤ r ∧ r % 16 = 0xC then 1 else all)
  else if o = 0x200000 then 0xFF
  else if o < 0x300000 then 0xBDFF01FF
  else if o = 0x400000 then 1 else if o = 0x400004 then 0x7F else if o = 0x400008 then 0xF00FF
  else if o < 0x400500 then (if o % 0x100 = 0 then 1 else if o % 0x100 = 0xC then 0xFFFF else all)
  else if o < 0x500000 then all
  else if o < 0x500100 then 0xFFFF
  else if o < 0x600000 then 1
  else if o = 0x600814 then 0xFFFF else if o = 0x600818 then 1 else if o = 0x60081C then 0xFFF
  else if o < 0x700000 then all
  else if o = 0x700018 then 0xFFFF else if o = 0x70001C then 0xFF else if o = 0x700024 then 0x1FFFF
  else if o = 0x800020 then 0xBFFF00FF
  else if o < 0x800300 then
    (match o % 32 with | 0 => 7 | 4 => 0x1F | 0x18 => 0x3FFFFF07 | _ => all)
  else if o < 0x1000000 then 0xBFFFFF07
  else 0xFFFFFF

/-! ### Why a write is ignored (R632) -/

/-- The debug level a DBG_ word needs; 0 for DBG_LEVEL (R601, R625, R643). -/
def dbgLevel (o : Nat) : Nat := if o = 0x800000 then 0 else if o = 0x800020 then 2 else 1

def isDbg (o : Nat) : Bool := decide (0x800000 ≤ o) && decide (o < 0x1000000)
def isHaw (o : Nat) : Bool := decide (0x500000 ≤ o) && decide (o < 0x600000)

/-- A die ID that does not exist (R25). -/
def noDie (w : Nat) : Bool := decide (0x28 ≤ bits w 29 24)

/-- The state forbids a write of a value (reason 0x5). -/
def State.topForbids (s : State) (o v : Nat) : Bool :=
  if isDbg o then decide (s.sec.level < dbgLevel o)
  else if o = 0x700018 ∨ o = 0x70001C ∨ o = 0x700024 then s.fuses.lifecycle == .blank
  else if o = 0x700100 then s.sec.mboxCmd.isSome
  else if o = 0x1000000 ∨ o = 0x1000004 then s.phase != .up
  else if 0x401000 ≤ o ∧ o < 0x402000 then
    let c := s.srcCfg ((o - 0x401000) / 64)
    c.valid && (o % 64 != 0 || bits v 7 0 != c.fmt)
  else if 0x404000 ≤ o ∧ o < 0x404800 then
    let n := (o - 0x404000) / 0x100
    (decide (o % 0x100 < 0x60) && s.strOn n && (o % 0x100 != 0 || v % 2 ^ 31 != s.strW n 0 % 2 ^ 31)) ||
    (o % 0x100 == 0x8C && v == 1 && ! (s.istream n).halted)
  else false

/-- A value outside its field's range, or a reserved encoding (reason 0x3). -/
def topBad (o v : Nat) : Bool :=
  if o = 0x14 then ! (decide (1 ≤ v) && decide (v ≤ 3))
  else if o = 0x1C ∨ o = 0x20000 then v != 1
  else if o = 0x20004 then v != 2
  else if 0x30000 ≤ o ∧ o < 0x40000 ∧ o % 0x1000 = 0x18 then decide (256 < v % 512)
  else if o = 0x200000 then v % 256 == 0 || decide (168 < v % 256)
  else if o = 0x400004 then v % 128 == 0 || decide (64 < v % 128)
  else if 0x404000 ≤ o ∧ o < 0x404800 then o % 0x100 == 0x8C && v != 1
  else if o = 0x500004 then v % 65536 == 0
  else if o = 0x600804 then v != 3 && v != 4
  else if o = 0x60081C then decide (v % 4096 < 600) || decide (2400 < v % 4096)
  else if o = 0x600824 then v == 0 || decide (10000 < v)
  else if o = 0x600828 then decide (60000 < v)
  else if o = 0x60082C then decide (65535 < v)
  else if o = 0x700100 then v == 0 || decide (5 < v)
  else if o = 0x800020 then noDie v
  else if 0x800100 ≤ o ∧ o < 0x800300 then o % 32 == 0x18 && noDie v
  else if 0x810000 ≤ o ∧ o < 0x810800 then noDie v
  else false

/-- SETUP_PART_RESET names no allocated partition (reason 0x3). -/
def State.topBadNow (s : State) (o v : Nat) : Bool :=
  topBad o v || (o == 0x20008 && (decide (15 < v) || ! (s.part v).allocated))

/-- A DECOMMISSIONED part never sets READY and answers each allocation with a refusal (R600). -/
def State.allocServed (s : State) (o : Nat) : Bool :=
  s.phase == .up && decide (0x30000 ≤ o) && decide (o < 0x40000) && o % 0x1000 == 0x1C

/-- The reason a 4-byte write of PF0 BAR0 outside the function page is ignored, 0 when it is performed: the first of 0x2,
0x4, 0x7, 0x5, 0x1, 0x3. `range` says whether the value is judged, which it is not for half of a 64-bit register. -/
def State.topReason (s : State) (o v : Nat) (range : Bool) : Nat :=
  let a := topAccess o
  if a = .reserved then 2
  else if isHaw o && s.fuses.solitary then 4
  else if a = .ro then 7
  else if (! s.serves o && ! s.allocServed o) || s.topForbids o v then 5
  else if a == .rwl && s.locked then 1
  else if range && s.topBadNow o v then 3
  else 0

/-- Some submission ring of the function is not disabled. -/
def Page.anySq (p : Page) : Bool := p.sqs.any fun x => x.2.state != .disabled

/-- Some submission ring that is not disabled feeds completion ring `n`. -/
def Page.feeds (p : Page) (n : Nat) : Bool := p.sqs.any fun x => x.2.state != .disabled && x.2.cqIndex == n

/-- The state forbids a write into a function page (reason 0x5): PART_DRV_IFVER while a ring is enabled, the enable of a ring
that is enabled, the disable of a ring that is fed, a restart of a ring that is not in ERROR (R102, R152, R639). -/
def Page.forbids (p : Page) (o v : Nat) : Bool :=
  if o = 0x100 then p.anyRing
  else if o = 0x120 then (if bit v 31 then p.errEnabled else p.errEnabled && p.anySq)
  else if 0x400 ≤ o ∧ o < 0x800 then
    let q := p.sq ((o - 0x400) / 32)
    (o % 32 == 8 && bit v 31 && q.state != .disabled) || (o % 32 == 0x10 && v == 1 && q.state != .error)
  else if 0x800 ≤ o ∧ o < 0xC00 then
    let n := (o - 0x800) / 32
    o % 32 == 8 && (p.cq n).enabled && (bit v 31 || p.feeds n)
  else false

/-- A function page serves its registers: the device is up and READY (R90, R117). -/
def State.servesPage (s : State) : Bool := s.phase == .up && s.boot.ready

/-- The reason a 4-byte write into a function page is ignored, 0 when it is performed. -/
def State.pageReason (s : State) (f o v : Nat) : Nat :=
  let a := pageAccess f o
  let p := s.page f
  if a = .reserved then 2
  else if a = .ro then 7
  else if ! s.servesPage || p.forbids o v then 5
  else if a == .rwl && p.locked then 1
  else if (o == 0x10C || (a == .wo)) && v != 1 then 3
  else 0

end Sys2Proof.Machine
end

