-- ==== Sys2Proof/Machine/Registers.lean ====
section
/-! DEFINITION. What a register write does: partitions, pin areas, reserved windows, rings, ingest and Hawser set-up, power and
security requests (R64, R98 to R102, R111 to R117, R126, R144 to R152, R377 to R393, R417 to R426, R455, R481, R542, R586,
R608 to R612, R629 to R644). -/

namespace Sys2Proof.Machine

/-! ### Windows (R377 to R379, R608 to R612) -/

/-- No valid window but `i` overlaps a range of whole GiB (R378). -/
def State.windowFree (s : State) (i base size : Nat) : Bool :=
  (List.range 32).all fun k =>
    let w := s.windows.getD k Window.reset
    k == i || ! w.valid || decide (base + size ≤ w.base) || decide (w.limit ≤ base)

/-- A window is set up; with its encryption bit it takes fresh keys, or none at INVASIVE and above (R609, R612). -/
def State.openWindow (s : State) (i base size owner : Nat) (enc : Bool) : State :=
  let lost := enc && decide (2 ≤ s.sec.level)
  let w : Window := { valid := true, base := base, limit := base + size, owner := owner
                      key := if enc && ! lost then some s.sec.keyGen else none, lost := lost }
  { s with windows := modAt s.windows i fun _ => w
           sec := { s.sec with keyGen := if enc && ! lost then s.sec.keyGen + 1 else s.sec.keyGen } }

def State.closeWindow (s : State) (i : Nat) : State := { s with windows := modAt s.windows i fun _ => Window.reset }

/-! ### Partitions (R113 to R116, R388, R401) -/

/-- A partition holds its resources from its acceptance on. -/
def State.held (s : State) (n : Nat) : Bool := (s.part n).allocated || (s.part n).clearing

/-- The other partitions that hold resources. -/
def State.otherHeld (s : State) (n : Nat) : List Partition :=
  ((List.range 16).filter fun m => m != n && s.held m).map s.part

/-- A partition's set-up word. -/
def State.partW (s : State) (n o : Nat) : Nat := s.regN (0x30000 + 0x1000 * n + o)

/-- CACHE and BWR pass their checks (R388, R401). -/
def shareOk (cache bwr : Nat) (ps : List Partition) : Bool :=
  bits cache 15 0 != 0 && decide (bits cache 31 16 + (ps.map fun (p : Partition) => bits p.cache 31 16).sum ≤ 512) &&
  decide (1 ≤ bits bwr 24 16) && decide (bits bwr 24 16 + (ps.map fun (p : Partition) => bits p.bwr 24 16).sum ≤ 256) &&
  decide (4 ≤ bits bwr 12 0) && decide (bits bwr 12 0 ≤ 4096)

/-- The reason an allocation is refused, 0 when it is accepted (R114, R600). -/
def State.allocReason (s : State) (n : Nat) : Nat :=
  let ps := s.otherHeld n
  let bricks := s.partW n 0
  let base := s.partW n 8
  let size := s.partW n 0xC
  if ! s.boot.ready then 6
  else (firstFail [
    (1, s.held n),
    (2, bricks == 0 || ps.any (fun (p : Partition) => (p.bricks &&& bricks) != 0) ||
      (List.range 16).any fun b => bit bricks b && s.outOfService (brickUnit b)),
    (3, size == 0 || decide (Config.usableGiB < base + size) || ! s.windowFree n base size),
    (4, decide (256 < s.partW n 0x18 + (ps.map fun (p : Partition) => p.quota).sum)),
    (5, ! shareOk (s.partW n 0x10) (s.partW n 0x14) ps)]).getD 0

/-- PART_ALLOC 1: the partition's settings are latched, its window is set up, its range begins to clear (R114, R115, R638). -/
def State.allocate (s : State) (n : Nat) : State :=
  let r := s.allocReason n
  if r ≠ 0 then s.modPart n fun p => { p with reason := r }
  else
    let enc := bit (s.regN 0x700018) n
    let s1 := s.openWindow n (s.partW n 8) (s.partW n 0xC) n enc
    let keyless := enc && decide (2 ≤ s.sec.level)
    s1.modPart n fun p =>
      { p with clearing := true, reason := 0, bricks := s.partW n 0, base := s.partW n 8, size := s.partW n 0xC
               cache := s.partW n 0x10, bwr := s.partW n 0x14, quota := s.partW n 0x18, keyless := keyless }

/-- The regulators of a partition at its allocation: full buckets, counts clear (R401, chapter 18). -/
def fullRegulators (l : List Regulator) (n burst : Nat) : List Regulator :=
  (List.range l.length).map fun i =>
    if i % 16 = n then { tokens := burst * 1024, charged := 0, borrowed := 0 }
    else l.getD i { tokens := 0, charged := 0, borrowed := 0 }

/-- A brick whose OB and AM were never written. -/
def BrickS.blank (k : BrickS) : BrickS := { k with ob := Mem.empty, am := Mem.empty }

/-- The clear completes: range zero and never written, OB and AM of the bricks never written, ALLOCATED (R115, R374). -/
def State.allocDone (s : State) (n : Nat) : State :=
  let p := s.part n
  let s := s.wipeDev (p.base * Config.gib) (p.size * Config.gib)
  let s := forAll ((List.range 16).filter fun b => bit p.bricks b) (fun s b => s.modBrick b BrickS.blank) s
  let s := { s with mortar := { s.mortar with regs := fullRegulators s.mortar.regs n (bits p.bwr 12 0) } }
  s.modPart n fun p => { p with allocated := true, clearing := false }

/-- ALLOC_CLEAR_DONE. -/
def execAllocClearDone (n : Nat) (s : State) : Res :=
  if s.phase = .up ∧ (s.part n).clearing = true then .next (s.allocDone n) else .next s

/-! ### Pin areas (R389 to R393) -/

def pinOff (n e : Nat) : Nat := 0x30100 + 0x1000 * n + 16 * e

/-- The reason a pin entry is refused, 0 when it is accepted (R389). -/
def State.pinRefusal (s : State) (n e : Nat) : Nat :=
  let o := pinOff n e
  let base := s.reg64 o
  let size := s.regN (o + 8)
  let p := s.part n
  let es := (s.pinEnts.filter fun x => x.1 == n && x.2.1 != e).map fun x => x.2.2
  (firstFail [
    (5, ! p.allocated),
    (1, base % 65536 != 0 || size % 65536 != 0),
    (6, size == 0),
    (2, decide (base < p.base * Config.gib) || decide ((p.base + p.size) * Config.gib < base + size)),
    (3, es.any fun x => decide (base < x.1 + x.2) && decide (x.1 < base + size)),
    (4, decide (bits p.cache 31 16 * 2 ^ 20 < size + (es.map fun x => x.2).sum))]).getD 0

/-- VALID of an entry is written; every pin area is laid anew (R389, R393, R590). -/
def State.pinWrite (s : State) (n e : Nat) (valid : Bool) : State :=
  let o := pinOff n e + 0xC
  let s := s.setReg o 0
  let s := { s with mortar := { s.mortar with skipWays := [] } }
  if ! valid then s
  else
    let r := s.pinRefusal n e
    let s := s.modPart n fun p => { p with pinReason := r, pinEntry := e }
    if r = 0 then s.setReg o 1 else s

/-- BASE or SIZE of an entry was written: a valid entry is checked again (R389). -/
def State.pinMoved (s : State) (n e : Nat) : State :=
  if bit (s.regN (pinOff n e + 0xC)) 0 then s.pinWrite n e true else s

/-! ### Release (R116, R392, R424, R612) -/

/-- A stream is disabled: its open epochs are ABANDONED (R641). -/
def State.strStop (s : State) (n : Nat) : State :=
  let o := 0x404000 + 0x100 * n
  (s.setReg o (BitVec.ofNat 32 (s.regN o % 2 ^ 31))).abandon n fun _ => true

/-- PART_ALLOC 0. -/
def State.release (s : State) (n : Nat) : State :=
  if (s.page n).anyRing then s.modPart n fun p => { p with reason := 1 }
  else if ! s.held n then s.modPart n fun p => { p with reason := 0 }
  else
    let s := forAll ((s.pinEnts.filter fun x => x.1 == n).map fun x => x.2.1) (fun s e => s.pinWrite n e false) s
    let s := forAll ((List.range 8).filter fun k => s.strPart k == n && s.strOn k) State.strStop s
    let s := { s with
      mortar := { s.mortar with skipWays := [] }
      chains := s.chains.filter fun c => c.part != n
      slots := s.slots.filter fun x => x.2.part != n }
    (s.closeWindow n).modPart n fun p =>
      { Partition.reset with resetting := p.resetting, flr := p.flr, pinReason := p.pinReason, pinEntry := p.pinEntry }

/-! ### Reserved windows (R378, R426) -/

/-- MEM_RESVk: window 16 + k is set up, taken away, or refused. -/
def State.reserve (s : State) (k v : Nat) : State :=
  let i := 16 + k
  let o := 0x200008 + 4 * k
  let w : Word := BitVec.ofNat 32 (v &&& topMask o)
  let base := bits v 8 0
  let size := bits v 24 16
  let tell (r : Nat) (s : State) : State := { s with resvStatus := 16 * r + k }
  if ! bit v 31 then tell 0 ((s.closeWindow i).setReg o w)
  else if ! s.windowFree i base size then tell 1 s
  else if size = 0 ∨ Config.usableGiB < base + size then tell 2 s
  else tell 0 ((s.openWindow i base size (bits v 29 26) (bit (s.regN 0x70001C) k)).setReg o w)

/-- ING_CTRL: EN creates the TAB window, or ingest stays disabled; EN = 0 takes it away (R426). -/
def State.ingCtrl (s : State) (v : Nat) : State :=
  let on := bit (s.regN 0x400000) 0
  if ! bit v 0 then (if on then (s.closeWindow 16).setReg 0x400000 0 else s)
  else if on then s
  else
    let g := s.regN 0x400004
    let base := Config.usableGiB - g
    if s.windowFree 16 base g then
      { (s.openWindow 16 base g 16 (bit (s.regN 0x70001C) 0)).setReg 0x400000 1 with resvStatus := 0 }
    else { s with resvStatus := 16 }

/-! ### Ingest tables (R417, R420 to R424, R640, R641) -/

/-- A word with its top bit clear. -/
def clear31 (v : Nat) : Word := BitVec.ofNat 32 (v % 2 ^ 31)

/-- Word +0x00 of ING_SRCn: VALID stays 0 when a check fails (R417, R640). -/
def State.srcWord (s : State) (n v : Nat) : State :=
  let o := 0x401000 + 64 * n
  let s1 := s.setReg o (BitVec.ofNat 32 v)
  if bit v 31 && ! s1.srcOk n then s1.setReg o (clear31 v) else s1

/-- Word +0x00 of ING_RULEn: VALID stays 0 when it would conflict (R422). -/
def State.ruleWord (s : State) (n v : Nat) : State :=
  let o := 0x402000 + 32 * n
  let s0 := { s with ing := { s.ing with ruleBad := setDel n s.ing.ruleBad } }
  let s1 := s0.setReg o (BitVec.ofNat 32 v)
  if bit v 31 && ! (s1.rule n).bad && s1.conflictWith n then
    let s2 := s1.setReg o (clear31 v)
    { s2 with ing := { s2.ing with ruleBad := setIns n s2.ing.ruleBad } }
  else s1

/-- A positive finite FP32 value (R423). -/
def posFinite (x : Nat) : Bool := isFinite32 x && flt 0 x

/-- Every field of a stream lies in its range, every reserved bit is zero (R423, R641). -/
def State.strFieldsOk (s : State) (n : Nat) : Bool :=
  let w (o : Nat) : Nat := s.strW n o
  let between (a v b : Nat) : Bool := decide (a ≤ v) && decide (v ≤ b)
  bits (w 0) 30 20 == 0 && bits (w 0) 15 13 == 0 && between 1 (bits (w 0) 12 8) 16 && w 4 == 0 &&
  decide (((List.range 64).filter fun i => bit (s.auxMask n) i).length ≤ 15) && between 1000 (w 0x10) 120000000 &&
  decide (w 0x14 ≤ 1000000) && w 0x18 % 65536 == 0 && bits (w 0x20) 31 16 == 0 && decide (bits (w 0x20) 15 8 ≤ 1) &&
  ! bit (w 0x20) 7 && between 1 (bits (w 0x20) 6 0) 64 && between 1 (bits (w 0x24) 31 16) 16384 &&
  between 1 (bits (w 0x24) 15 0) 16384 && w 0x28 % 2 ^ 20 == 0 && posFinite (w 0x30) && posFinite (w 0x34) &&
  posFinite (w 0x38) && posFinite (w 0x3C) && (List.range 8).all fun i => w (0x40 + 4 * i) == 0

/-- The output slots or the transform table leave the partition's range, or overlap (R424). -/
def State.strPlacesBad (s : State) (n : Nat) : Bool :=
  let p := s.part (s.strPart n)
  let out := s.strW n 0x18 + 2 ^ 32 * s.strW n 0x1C
  let len := bits (s.strW n 0x20) 6 0 * s.slotSize n
  let xf := s.strW n 0x28 + 2 ^ 32 * s.strW n 0x2C
  let out_ (a k : Nat) : Bool :=
    decide (a < p.base * Config.gib) || decide ((p.base + p.size) * Config.gib < a + k)
  out_ out len || out_ xf (2 ^ 20) || (decide (out < xf + 2 ^ 20) && decide (xf < out + len))

/-- The first failure of an enable, 0 when there is none (R424). -/
def State.strRefusal (s : State) (n : Nat) : Nat :=
  (firstFail [(1, ! (s.part (s.strPart n)).allocated), (2, s.strPlacesBad n), (3, ! s.strFieldsOk n), (4, ! s.tabOn),
    (5, s.anyConflict)]).getD 0

def State.strReason (s : State) (n r : Nat) : State := s.modStr n fun t => { t with reason := r }

/-- Word +0x00 of ING_STRMn (R422, R424, R641). -/
def State.strWord (s : State) (n v : Nat) : State :=
  let o := 0x404000 + 0x100 * n
  let s1 := s.setReg o (BitVec.ofNat 32 v)
  let moved := s1.strPart n != s.strPart n
  if ! bit v 31 then
    if moved && s1.anyConflict then s.strReason n 5
    else ((if s.strOn n then s.strStop n else s).setReg o (BitVec.ofNat 32 v)).strReason n 0
  else
    let r := s1.strRefusal n
    if r = 0 then s1.strReason n 0
    else if s1.anyConflict then s.strReason n r
    else (s1.setReg o (clear31 v)).strReason n r

/-! ### Hawser set-up (R472, R481) -/

/-- HAW_JOBn: a job that another partition has is refused (R481). -/
def State.jobWrite (s : State) (n v : Nat) : State :=
  let j := v % 65536
  let dup := j != 0 && (List.range 16).any fun m => m != n && s.job m == j
  let s := { s with haw := { s.haw with jobReason := b2n dup, jobPart := n } }
  if dup then s else s.setReg (0x500040 + 4 * n) (BitVec.ofNat 32 j)

/-- HAW_PORTp_CTRL: EN starts the port, its clearing takes it down (R472). -/
def State.portCtrl (s : State) (p v : Nat) : State :=
  let s := s.setReg (0x500100 + 0x40 * p) (BitVec.ofNat 32 (v % 2))
  if bit v 0 then s.startPort p
  else if (s.port p).state == .down || (s.port p).state == .retired then s
  else s.portOut p .down false

/-- ING_PORTq_CTRL (R408). -/
def State.ingPortCtrl (s : State) (q v : Nat) : State :=
  let s := s.setReg (0x400100 + 0x100 * q) (BitVec.ofNat 32 (v % 2))
  if bit v 0 then s else s.modIport q IngPort.unlinked

/-! ### Writes of PF0 BAR0 outside the function page -/

/-- A plain word takes its defined bits (R12). -/
def State.setPlain (s : State) (o v : Nat) : State := s.setReg o (BitVec.ofNat 32 (v &&& topMask o))

/-- Four bytes of a buffer of `Host.Cell`s. -/
def putWord (l : List Host.Cell) (a v : Nat) : List Host.Cell := cellSplice a (a + 4) (runCells a (leBytes 4 v)) l

/-- A write of SETUP_FLASH_CMD. -/
def State.flashCmd (s : State) (v : Nat) : State :=
  s.flashFree fun s =>
    if v = 1 then s.flashStart (.read s.flash.addr)
    else s.flashWritable fun s =>
      s.flashStart (if v = 2 then .erase s.flash.addr else .program s.flash.addr s.flashBuf)

/-- Writes of the recovery window and SETUP_. SETUP_COLD_REQ and SETUP_RESET have rows of their own, which carry what the
reset takes from outside. -/
def setupEffect (o v : Nat) (s : State) : State :=
  if o = 0x10 then { s with flash := { s.flash with addr := v &&& 0x03FFF000 } }
  else if o = 0x14 then s.flashCmd v
  else if o = 0x1C ∨ o = 0x20004 then s
  else if o < 0x10000 then { s with flash := { s.flash with buf := putWord s.flash.buf (o - 0x1000) v } }
  else if o = 0x20000 then { s with locked := true }
  else if o = 0x20008 then s.partReset v false
  else s.setPlain o v

/-- Writes of the PART_ table. -/
def partEffect (o v : Nat) (s : State) : State :=
  let n := (o - 0x30000) / 0x1000
  let r := o % 0x1000
  if r = 0x1C then (if bit v 0 then s.allocate n else if s.boot.ready then s.release n else s)
  else if r < 0x100 then s.setPlain o v
  else
    let e := (r - 0x100) / 16
    if r % 16 = 0xC then s.pinWrite n e (bit v 0) else (s.setPlain o v).pinMoved n e

/-- Writes of MEM_ and ING_. -/
def ingEffect (o v : Nat) (s : State) : State :=
  if 0x20000C ≤ o ∧ o < 0x200028 then s.reserve ((o - 0x200008) / 4) v
  else if o = 0x400000 then s.ingCtrl v
  else if o < 0x400100 then s.setPlain o v
  else if o < 0x400500 then
    if o % 0x100 = 0 then s.ingPortCtrl ((o - 0x400100) / 0x100) v else s.setPlain o v
  else if o < 0x402000 then
    if o % 64 = 0 then s.srcWord ((o - 0x401000) / 64) v else s.setPlain o v
  else if o < 0x403000 then
    if o % 32 = 0 then s.ruleWord ((o - 0x402000) / 32) v else s.setPlain o v
  else
    let n := (o - 0x404000) / 0x100
    if o % 0x100 = 0 then s.strWord n v
    else if o % 0x100 = 0x8C then s.modStr n fun t => { t with halted := false }
    else s.setPlain o v

/-- Writes of HAW_, WDN_, PWR_, SEC_, DBG_ and ERR_. A record submitted through SEC_MBOX_CMD has a row of its own, which says
who signed it. -/
def controlEffect (o v : Nat) (s : State) : State :=
  if o = 0x500004 then s.setPlain o v
  else if o < 0x500100 then s.jobWrite ((o - 0x500040) / 4) v
  else if o < 0x600000 then s.portCtrl ((o - 0x500100) / 0x40) v
  else if o = 0x600804 then s.powerReq (v == 4)
  else if o = 0x700008 then s.levelRequest false (bits v 1 0)
  else if o = 0x700100 then s
  else if 0x701000 ≤ o ∧ o < 0x702000 then
    { s with sec := { s.sec with mboxBuf := putWord s.sec.mboxBuf (o - 0x701000) v } }
  else if o = 0x1000000 then s.retireReq (BitVec.ofNat 32 v)
  else if o = 0x1000004 then s.readmitReq (BitVec.ofNat 32 v)
  else if o = 0x1000010 then { s with repair := { s.repair with query := v % 2 ^ 24 } }
  else s.setPlain o v

/-- A word of PF0 BAR0 outside the function page is written. -/
def topEffect (o v : Nat) (s : State) : State :=
  if o < 0x30000 then setupEffect o v s
  else if o < 0x40000 then partEffect o v s
  else if o < 0x500000 then ingEffect o v s
  else controlEffect o v s

/-- A 64-bit register takes a value; earlier low words are spent (R630). -/
def State.takeTop (s : State) (o lo hi : Nat) : State :=
  let s := { s with lowWords := mapDel o s.lowWords }
  let s := (s.setPlain o lo).setPlain (o + 4) hi
  if 0x30000 ≤ o ∧ o < 0x40000 then s.pinMoved ((o - 0x30000) / 0x1000) ((o % 0x1000 - 0x100) / 16) else s

/-- A 4-byte write of PF0 BAR0 outside the function page (R630 to R632). -/
def writeTop (o v : Nat) (s : State) : State :=
  if s.deaf then s
  else
    let low := topWide o
    let high := decide (4 ≤ o) && topWide (o - 4)
    match s.topReason o v (! low && ! high) with
    | 0 =>
      if low then { s with lowWords := mapPut o (BitVec.ofNat 32 v) s.lowWords }
      else if high then s.takeTop (o - 4) ((mapGet (o - 4) s.lowWords).getD (s.reg (o - 4))).toNat v
      else topEffect o v s
    | r => s.ignoreTop r o

/-! ### Rings (R102, R126, R144, R148, R151, R639) -/

/-- What refuses every ring enable of a function (R98, R99, R115, R117). -/
def State.enableRefusals (s : State) (f : Nat) : List (Nat × Bool) :=
  let p := s.page f
  let out := ! (s.part f).allocated
  [(1, ! s.servesPage), (4, f != 0 && out), (2, ! p.ifverSet), (3, p.cls == 3), (4, out)]

/-- A ring's base and size (R126). -/
def ringShape (base ctrl : Nat) : Bool := base % 4096 == 0 && decide (6 ≤ bits ctrl 4 0) && decide (bits ctrl 4 0 ≤ 16)

/-- The reason a submission ring is refused, 0 when it is accepted (R151). -/
def State.sqRefusal (s : State) (f n v : Nat) : Nat :=
  let p := s.page f
  (firstFail (s.enableRefusals f ++ [
    (5, ! ringShape (p.sq n).base v),
    (6, ! (p.cq (bits v 20 16)).enabled || ! p.errEnabled),
    (7, bits v 13 12 == 3),
    (8, (s.part f).resetting)])).getD 0

/-- An accepted enable keeps the ring's counts; nothing is fetched before the next sweep. -/
def Sq.enable (q : Sq) (v : Nat) : Sq :=
  { q with ctrl := v, inUse := v, state := .enabled, reason := 0, producer := q.fetched, disabling := false, restart := false }

/-- EN = 0: the descriptor in flight completes, those fetched and not started complete RING_STOPPED (R639). -/
def Sq.disable (q : Sq) (v : Nat) : Sq :=
  let q := { q with ctrl := v }
  if q.state = .disabled then q else ({ q with disabling := true, queue := q.queue.map Desc.stop }).settled

/-- SQ_CTRL. -/
def State.sqCtrl (s : State) (f n v : Nat) : State :=
  let v := v &&& 0x801F301F
  if ! bit v 31 then s.modSq f n fun q => q.disable v
  else
    match s.sqRefusal f n v with
    | 0 => s.modSq f n fun q => q.enable v
    | r => s.modSq f n fun q => { q with ctrl := v % 2 ^ 31, reason := r }

/-- A completion ring is refused (R126, R148). -/
def State.cqRefused (s : State) (f n v : Nat) : Bool :=
  let c := (s.page f).cq n
  (s.enableRefusals f).any (·.2) || (s.part f).resetting || ! ringShape c.base v || c.count == 0 || decide (32 < c.vec)

/-- CQ_CTRL. -/
def State.cqCtrl (s : State) (f n v : Nat) : State :=
  let v := v &&& 0x8000001F
  let on := bit v 31 && ! s.cqRefused f n v
  s.modPage f fun p => p.modCq n fun c =>
    { c with ctrl := if on then v else v % 2 ^ 31, enabled := on, unsignalled := 0, oldest := 0 }

/-- The error ring is refused (R126). -/
def State.errRefused (s : State) (f v : Nat) : Bool :=
  (s.enableRefusals f).any (·.2) || (s.part f).resetting || ! ringShape (s.page f).errBase v

/-- ERR_RING_CTRL. Records that a disabled ring still held are lost (R146). -/
def State.errCtrl (s : State) (f v : Nat) : State :=
  let v := v &&& 0x8000001F
  let on := bit v 31 && ! s.errRefused f v
  s.modPage f fun p =>
    { p with errCtrl := if on then v else v % 2 ^ 31, errEnabled := on, errHeld := []
             errDropped := sat32 (p.errDropped + p.errHeld.length) }

/-! ### Writes into a function page -/

/-- One half of a 64-bit number replaced. -/
def setHalf (x i v : Nat) : Nat := if i = 0 then x / 2 ^ 32 * 2 ^ 32 + v else x % 2 ^ 32 + 2 ^ 32 * v

/-- A word of the MSI-X table (R147, R149). -/
def State.msixWord (s : State) (f o v : Nat) : State :=
  let vec := (o - 0x2000) / 16
  match o % 16 with
  | 0 => s.modPage f fun p => p.modMsix vec fun e => { e with addr := setHalf e.addr 0 v }
  | 4 => s.modPage f fun p => p.modMsix vec fun e => { e with addr := setHalf e.addr 1 v }
  | 8 => s.modPage f fun p => p.modMsix vec fun e => { e with data := v }
  | _ =>
    if bit v 0 then s.modPage f fun p => p.modMsix vec fun e => { e with masked := true } else s.unmask f vec

/-- PART_DRV_IFVER: the function's driver is classified (R98, R99). -/
def State.ifverWrite (s : State) (f v : Nat) : State :=
  let c := s.classOf v
  s.modPage f fun p => { p with ifver := v, ifverSet := true, cls := c }

/-- A word of a function page is written. -/
def pageEffect (f o v : Nat) (s : State) : State :=
  if o = 0x100 then s.ifverWrite f v
  else if o = 0x10C then s.modPage f fun p => { p with locked := true }
  else if o = 0x120 then s.errCtrl f v
  else if o < 0x800 then
    let n := (o - 0x400) / 32
    if o % 32 = 8 then s.sqCtrl f n v else s.modSq f n fun q => { q with restart := true }
  else if o < 0xC00 then s.cqCtrl f ((o - 0x800) / 32) v
  else if o < 0xD00 then
    s.modPage f fun p => p.modCq ((o - 0xC00) / 8) fun c => { c with irq := v &&& 0x3FFF03FF }
  else s.msixWord f o v

/-- The value of a 64-bit register of a function page. -/
def Page.wide (p : Page) (o : Nat) : Nat :=
  if o = 0x110 then p.dbBase else if o = 0x118 then p.errBase
  else if o < 0x800 then (p.sq ((o - 0x400) / 32)).base else (p.cq ((o - 0x800) / 32)).base

/-- A 64-bit register of a function page takes a value (R630). -/
def Page.take (p : Page) (o v : Nat) : Page :=
  let p := { p with lowWords := mapDel o p.lowWords }
  if o = 0x110 then { p with dbBase := v } else if o = 0x118 then { p with errBase := v }
  else if o < 0x800 then p.modSq ((o - 0x400) / 32) fun q => { q with base := v }
  else p.modCq ((o - 0x800) / 32) fun c => { c with base := v }

/-- A 4-byte write into function `f`'s page. A VF has a page only while VF Enable is set. -/
def writePage (f o v : Nat) (s : State) : State :=
  if s.deaf || decide (16 ≤ f) then s
  else
    let s := if f = 0 then s else { s with vfEnable := true }
    match s.pageReason f o v with
    | 0 =>
      if pageWide o then s.modPage f fun p => { p with lowWords := mapPut o v p.lowWords }
      else if decide (4 ≤ o) && pageWide (o - 4) then
        s.modPage f fun p => p.take (o - 4) ((mapGet (o - 4) p.lowWords).getD (p.wide (o - 4) % 2 ^ 32) + 2 ^ 32 * v)
      else pageEffect f o v s
    | r => s.ignorePage f r o

/-- A write of PF0 BAR0: the function page of PF0 stands at 0x0004_0000 (R108). -/
def inPage (o : Nat) : Bool := decide (0x40000 ≤ o) && decide (o < 0x44000)

/-- An ignored write, by where it fell (R632). -/
def State.ignore (s : State) (f : Func) (r o : Nat) : State :=
  match f with
  | .pf0 => if inPage o then s.ignorePage 0 r (o - 0x40000) else s.ignoreTop r o
  | .vf n => if n < 16 then { s.ignorePage n r o with vfEnable := true } else s
  | .pf1 => s.ignoreTop r o

/-- A 4-byte write of a function's BAR0. PF1 holds only the mirror of ID_ and FEAT_ (R105). -/
def write4 (f : Func) (o v : Nat) (s : State) : State :=
  match f with
  | .pf0 => if inPage o then writePage 0 (o - 0x40000) v s else writeTop o v s
  | .vf n => if n = 0 then s else writePage n o v s
  | .pf1 => if s.deaf then s else s.ignoreTop (if lookupAccess idTable o = .ro then 7 else 2) o

/-- A register write of any size (R629, R630): 4 or 8 bytes, naturally aligned. One write of 8 bytes over a 64-bit register is
one write, over two 32-bit registers one of each. -/
def registerWrite (f : Func) (o size : Nat) (v : DWord) (s : State) : State :=
  let lo := v.toNat % 2 ^ 32
  let hi := v.toNat / 2 ^ 32
  if s.deaf then s
  else if (size ≠ 4 ∧ size ≠ 8) ∨ o % size ≠ 0 then s.ignore f 6 o
  else if size = 4 then write4 f o lo s
  else
    let wide := match f with
      | .pf0 => if inPage o then pageWide (o - 0x40000) else topWide o
      | .vf _ => pageWide o
      | .pf1 => false
    if ! wide then write4 f (o + 4) hi (write4 f o lo s)
    else
      let r := match f with
        | .pf0 => if inPage o then s.pageReason 0 (o - 0x40000) lo else s.topReason o lo false
        | .vf n => s.pageReason n o lo
        | .pf1 => 2
      if r = 0 then write4 f (o + 4) hi (write4 f o lo s) else s.ignore f r o

/-! ### The commands -/

/-- REGISTER_WRITE. -/
def execRegisterWrite (f : Func) (off size : Nat) (v : DWord) (s : State) : Res := .next (registerWrite f off size v s)

/-- A function page's word, where the page stands. -/
def execPartDrvIfver (f : Nat) (v : Word) (s : State) : Res := .next (writePage f 0x100 v.toNat s)
def execSetupLock (v : Word) (s : State) : Res := .next (writeTop 0x20000 v.toNat s)
def execFunctionSetupLock (f : Nat) (v : Word) (s : State) : Res := .next (writePage f 0x10C v.toNat s)

/-- A write to the PART_ table of partition `n`. -/
def writePart (n o v : Nat) (s : State) : State := if n < 16 then writeTop (0x30000 + 0x1000 * n + o) v s else s

def execPartitionAlloc (n : Nat) (s : State) : Res := .next (writePart n 0x1C 1 s)
def execPartitionRelease (n : Nat) (s : State) : Res := .next (writePart n 0x1C 0 s)
/-- PIN_ENTRY_WRITE: the word +0xC of PART_PINe. -/
def execPinEntryWrite (n e : Nat) (v : Word) (s : State) : Res :=
  .next (if e < 64 then writePart n (0x10C + 16 * e) v.toNat s else s)
/-- RESERVED_REGION_WRITE: MEM_RESVk, k from 1 to 7. -/
def execReservedRegionWrite (k : Nat) (v : Word) (s : State) : Res :=
  .next (if 1 ≤ k ∧ k ≤ 7 then writeTop (0x200008 + 4 * k) v.toNat s else s)

/-- The EN bit of a command that enables, and of one that disables. -/
def enOn (v : Word) : Nat := v.toNat % 2 ^ 31 + 2 ^ 31
def enOff (v : Word) : Nat := v.toNat % 2 ^ 31

/-- A write into the block of 32 bytes of ring `n`. -/
def writeRing (f n o v : Nat) (s : State) : State := if n < 32 then writePage f (o + 32 * n) v s else s

def execSqEnable (f n : Nat) (v : Word) (s : State) : Res := .next (writeRing f n 0x408 (enOn v) s)
def execSqDisable (f n : Nat) (v : Word) (s : State) : Res := .next (writeRing f n 0x408 (enOff v) s)
def execCqEnable (f n : Nat) (v : Word) (s : State) : Res := .next (writeRing f n 0x808 (enOn v) s)
def execCqDisable (f n : Nat) (v : Word) (s : State) : Res := .next (writeRing f n 0x808 (enOff v) s)
def execErrRingEnable (f : Nat) (v : Word) (s : State) : Res := .next (writePage f 0x120 (enOn v) s)
def execErrRingDisable (f : Nat) (v : Word) (s : State) : Res := .next (writePage f 0x120 (enOff v) s)
def execRingSqnRestart (f n : Nat) (v : Word) (s : State) : Res := .next (writeRing f n 0x410 v.toNat s)

def execIngestPortEnable (q : Nat) (s : State) : Res := .next (if q < 4 then writeTop (0x400100 + 0x100 * q) 1 s else s)
def execIngestEnable (s : State) : Res := .next (writeTop 0x400000 1 s)
def execSourceWrite (n : Nat) (v : Word) (s : State) : Res :=
  .next (if n < 64 then writeTop (0x401000 + 64 * n) v.toNat s else s)
def execRuleWrite (n : Nat) (v : Word) (s : State) : Res :=
  .next (if n < 128 then writeTop (0x402000 + 32 * n) v.toNat s else s)

/-- A write into the block of stream `n`. -/
def writeStr (n o v : Nat) (s : State) : State := if n < 8 then writeTop (0x404000 + 0x100 * n + o) v s else s

def execStreamEnable (n : Nat) (v : Word) (s : State) : Res := .next (writeStr n 0 (enOn v) s)
def execStreamDisable (n : Nat) (v : Word) (s : State) : Res := .next (writeStr n 0 (enOff v) s)
def execIngStrmnResume (n : Nat) (v : Word) (s : State) : Res := .next (writeStr n 0x8C v.toNat s)
def execHawserPortEnable (p : Nat) (s : State) : Res := .next (if p < 16 then writeTop (0x500100 + 0x40 * p) 1 s else s)
def execHawJobWrite (n : Nat) (v : Word) (s : State) : Res :=
  .next (if n < 16 then writeTop (0x500040 + 4 * n) v.toNat s else s)

/-- SETUP_RESET: a write of 0x2 starts a warm reset (R64); `w` is what the reset takes from outside. -/
def execSetupReset (v : Word) (w : WarmIn) (s : State) : Res :=
  .next (if s.deaf = false ∧ s.topReason 0x20004 v.toNat true = 0 then s.warm w else writeTop 0x20004 v.toNat s)
def execSetupPartReset (v : Word) (s : State) : Res := .next (writeTop 0x20008 v.toNat s)
def execEnterWarden (s : State) : Res := .next (writeTop 0x600804 3 s)
def execEnterOff (s : State) : Res := .next (writeTop 0x600804 4 s)
def execErrRetireReq (v : Word) (s : State) : Res := .next (writeTop 0x1000000 v.toNat s)
def execErrReadmitReq (v : Word) (s : State) : Res := .next (writeTop 0x1000004 v.toNat s)

end Sys2Proof.Machine
end

