-- ==== Sys2Proof/Machine/RegRead.lean ====
section
/-! DEFINITION. What a register read returns (R97, R203, R499, R575, R601, R608, R629, R630, R643, R644). -/

namespace Sys2Proof.Machine

/-- Half `i` of a 64-bit value. -/
def half (v i : Nat) : Nat := (v / 2 ^ (32 * i)) % 2 ^ 32

/-- A 32-bit word from bits. -/
def packBits (n : Nat) (f : Nat → Bool) : Nat := ((List.range n).map fun i => if f i then 2 ^ i else 0).sum

/-! ### ID_ and FEAT_ -/

/-- FEAT_0 to FEAT_15 (R203). -/
def State.feat (s : State) (n : Nat) : Nat :=
  match n with
  | 0 => Config.contexts * 2 ^ 16 + Config.bricks * 2 ^ 8 + b2n s.fuses.solitary
  | 1 => Config.obBytes / 1024
  | 2 => Config.amBytes / 1024
  | 3 => 0x3F
  | 4 => Config.maxMN * 2 ^ 16 + Config.maxMN
  | 5 => Config.mnGranule * 2 ^ 16 + Config.kGranule
  | 6 => Config.maxDilation * 2 ^ 16 + Config.maxFilter * 2 ^ 8 + Config.maxFilter
  | 7 => Config.kvPageTokens
  | 8 => Config.reuseTiles
  | 9 => s.boot.opba * 2 ^ 16 + 64
  | 10 => 4 * 2 ^ 28 + 8 * 2 ^ 24 + 16 * 2 ^ 16 + 64 * 2 ^ 8 + 64
  | 11 => 5 * 2 ^ 16 + 4 * 2 ^ 8 + 8
  | 12 => 16 * 2 ^ 24 + 64 * 2 ^ 16 + 4 * 2 ^ 8 + (if s.fuses.solitary then 0 else 16)
  | 13 => 1024 * 2 ^ 16 + Config.usableGiB
  | 14 => Config.maxLog2V * 2 ^ 16 + Config.deadlineSlots
  | _ => 0

/-- A word of ID_ and FEAT_, also in the mirrors (R637). -/
def State.idWord (s : State) (o : Nat) : Nat :=
  if o < 8 then half s.fuses.serial (o / 4)
  else if o = 8 then s.fuses.siliconRev else if o = 0xC then s.fuses.romVersion
  else if o = 0x10 then s.fuses.engineGen else if o = 0x14 then s.fuses.romIface
  else if 0x40 ≤ o ∧ o < 0x80 then s.feat ((o - 0x40) / 4)
  else if 0x84 ≤ o ∧ o < 0xA0 then s.boot.imgVer.getD ((o - 0x84) / 4) 0
  else 0

/-! ### Recovery window -/

/-- SETUP_BOOT_STATUS (R97). -/
def BootS.status (b : BootS) : Nat :=
  2 ^ 31 * b2n b.ready + 2 ^ 30 * b2n b.fallback + 2 ^ 29 * b2n b.bankB + 2 ^ 28 * b2n b.sticky +
  2 ^ 27 * b2n b.bankBInvalid + 2 ^ 26 * b2n b.rate64 + 2 ^ 16 * b.outcome.code + 2 ^ 12 * b.aCause + 2 ^ 8 * b.bCause +
  b.stage

/-- The 256 bytes of a last-gasp record (R574). -/
def LastGasp.image (g : LastGasp) : List Byte :=
  let recs := g.recs.flatten
  let b := leBytes 4 0x4C475350 ++ leBytes 1 g.cause ++ leBytes 1 g.pwr ++ leBytes 2 0 ++ leBytes 8 g.time ++
    leBytes 2 g.code ++ leBytes 2 g.code2 ++ leBytes 1 g.die ++ leBytes 1 g.kind ++ leBytes 2 g.index ++
    leBytes 4 g.powerMw ++ leBytes 2 (enc16 g.tempMax) ++ leBytes 1 g.tempDie ++ leBytes 1 0 ++
    (recs ++ List.replicate 128 0).take 128 ++ List.replicate 88 0 ++ leBytes 4 g.seq
  b ++ leBytes 4 (crc32 b)

/-- A word of SETUP_LASTGASP: the record with SEQ q stands at place q mod 16. -/
def State.gaspWord (s : State) (o : Nat) : Nat :=
  match s.wdn.gasp.find? fun g => g.seq % 16 == o / 256 with
  | some g => fieldLE g.image (o % 256) 4
  | none => 0

/-- Four bytes of a buffer. -/
def cellWord (l : List Host.Cell) (a : Nat) : Nat := leNat ((List.range 4).map fun i => mapRd 0 (a + i) l)

def State.recoveryWord (s : State) (o : Nat) : Nat :=
  if o = 0 then s.boot.status
  else if o = 0x10 then s.flash.addr
  else if o = 0x18 then 16 * s.flash.result + b2n s.flash.cmd.isSome
  else if 0x1000 ≤ o ∧ o < 0x2000 then cellWord s.flash.buf (o - 0x1000)
  else if 0x2000 ≤ o ∧ o < 0x3000 then s.gaspWord (o - 0x2000)
  else 0

/-! ### SETUP_, PART_, BWR_, MEM_, CACHE_ -/

/-- The number of a device-time state (R45). -/
def TimeSt.code : TimeSt → Nat
  | .free => 0 | .acquire => 1 | .stepPending => 2 | .locked => 3 | .holdover => 4 | .refused => 5

def State.setupWord (s : State) (o : Nat) : Nat :=
  if o = 0x20000 then b2n s.locked
  else if o = 0x20010 then s.time.st.code
  else if o = 0x20018 then half s.now 0 else if o = 0x2001C then half s.now 1
  else if o = 0x20020 then (s.time.ppsOffset % 2 ^ 32).toNat
  else if o = 0x20030 then s.wrIgnored else if o = 0x20034 then s.wrLast
  else if o = 0x20014 ∨ o = 0x20024 then s.regN o
  else 0

/-- PART_STATUS (R585). -/
def State.partStatus (s : State) (n : Nat) : Nat :=
  let p := s.part n
  let live (b : Nat) : Bool := s.held n && bit p.bricks b && ! s.outOfService (brickUnit b)
  2 ^ 16 * packBits 16 live + 2 ^ 8 * p.reason + 2 * b2n p.resetting + b2n p.allocated

def State.partWord (s : State) (o : Nat) : Nat :=
  let n := (o - 0x30000) / 0x1000
  let r := o % 0x1000
  if r = 0x20 then s.partStatus n
  else if r = 0x24 then 2 ^ 8 * (s.part n).pinReason + (s.part n).pinEntry
  else s.regN o

/-- BWR_STATm_n (chapter 18). -/
def State.bwrWord (s : State) (o : Nat) : Nat :=
  let r := s.mortar.regs.getD (o / 16 % 16 + 16 * (o / 0x100 % 16)) { tokens := 0, charged := 0, borrowed := 0 }
  half (if o % 16 < 8 then r.charged else r.borrowed) (o / 4 % 2)

/-- A 16-bit entry of MEM_REMAPs (R369). -/
def State.remapEnt (s : State) (st slot : Nat) : Nat :=
  match s.mortar.remap.find? fun m => m.stack == st && m.slot == slot with
  | some m => 2 ^ 15 + 2 ^ 8 * m.src + m.chunk
  | none => 0

def State.memWord (s : State) (o : Nat) : Nat :=
  let r := o - 0x200000
  if r = 4 then s.resvStatus
  else if r < 0x100 then s.regN o
  else if r < 0x500 then
    let k := (r - 0x100) % 0x80 / 4
    let st := (r - 0x100) / 0x80
    s.remapEnt st (2 * k) + 2 ^ 16 * s.remapEnt st (2 * k + 1)
  else if r < 0x640 then packBits 32 fun i => s.unit (pcUnit (8 * (r - 0x600) + i)) == .retired
  else
    let p := mapRd (s.mortar.spareAll, s.mortar.spareMin) ((r - 0x800) / 4) s.mortar.spare
    2 ^ 16 * p.1 + p.2

def State.cacheWord (s : State) (o : Nat) : Nat :=
  let r := o - 0x300000
  if r < 0x400 then
    let e := s.mortar.nodes.getD (r / 4) (NodeEnt.reset (r / 4))
    2 ^ 8 * e.rank + 2 ^ 7 * b2n e.forward + 2 ^ 4 * e.donor + e.current
  else if r < 0x420 then packBits 16 fun w => s.unit (wayUnit ((r - 0x400) / 4) w) == .retired
  else if r = 0x420 then packBits 8 fun k => s.unit (sliceUnit k) == .retired
  else s.np

/-! ### ING_, HAW_ -/

def State.ingWord (s : State) (o : Nat) : Nat :=
  let r := o - 0x400000
  if r < 0x10 then s.regN o
  else if r < 0x20 then packBits 32 fun i =>
    let n := 8 * (r - 0x10) + i
    (s.rule n).bad || s.ing.ruleBad.contains n
  else if 0x100 ≤ r ∧ r < 0x500 ∧ 0x40 ≤ r % 0x100 then
    half ((s.iport ((r - 0x100) / 0x100)).drops.getD ((r % 0x100 - 0x40) / 8) 0) (r / 4 % 2)
  else if r < 0x3000 then s.regN o
  else if r < 0x3200 then mapRd 0 ((r - 0x3000) / 4) s.ing.clsMulti
  else
    let t := s.istream ((r - 0x4000) / 0x100)
    if r % 0x100 = 0x80 then t.reason + 16 * b2n t.halted
    else if r % 0x100 = 0x84 then t.late
    else if r % 0x100 = 0x88 then t.refConflict
    else if r % 0x100 = 0x8C then 0
    else s.regN o

/-- The number of a Hawser port's state (R473). -/
def PortSt.code : PortSt → Nat
  | .down => 0 | .training => 1 | .binding => 2 | .up => 3 | .held => 4 | .retired => 5 | .probation => 6

def State.hawWord (s : State) (o : Nat) : Nat :=
  let r := o - 0x500000
  if s.fuses.solitary then (if r = 0 then 0x50000 else 0)
  else if r = 0 then 2 ^ 16 * s.haw.instState + (if s.haw.instState = 0 then s.haw.chip else 0)
  else if r = 8 then 16 * s.haw.jobReason + s.haw.jobPart
  else if r < 0x100 ∨ r % 0x40 = 0 then s.regN o
  else
    let p := s.port ((r - 0x100) / 0x40)
    if r % 0x40 = 4 then p.state.code
    else if r % 0x40 = 8 then p.authFail
    else if r % 0x40 < 0x18 then half p.replays (r / 4 % 2)
    else half p.retrans (r / 4 % 2)

/-! ### WDN_, PWR_, SEC_, DBG_, ERR_, DLN_ -/

/-- WDN_READINGi. -/
def State.reading (s : State) (i : Nat) : Nat :=
  let x := s.sensor i
  2 ^ 17 * b2n (decide (i < 96) && s.disagrees (i / 2)) + 2 ^ 16 * b2n x.failed + enc16 x.y

def State.levels64 (s : State) : Nat := ((List.range 16).map fun b => (s.bp b).level * 2 ^ (3 * b)).sum

def State.wdnWord (s : State) (o : Nat) : Nat :=
  let r := o - 0x600000
  if r < 0x14 then packBits 32 fun i => decide (8 * r + i < 144) && (s.sensor (8 * r + i)).failed
  else if r = 0x20 then s.wdn.railReq
  else if r < 0x400 then s.reading ((r - 0x100) / 4)
  else if r = 0x800 then s.wdn.st.code + 8 * b2n s.wdn.busy
  else if r = 0x804 then 0
  else if r = 0x808 then s.wdn.reqReason
  else if r = 0x820 then s.wdn.power.headD 0
  else if r = 0x840 then half s.levels64 0
  else if r = 0x844 then half s.levels64 1
  else s.regN o

/-- SEC_DEBUG_LEVEL and DBG_LEVEL. -/
def SecS.levelWord (c : SecS) : Nat := 16 * c.cause + c.level

def State.secWord (s : State) (o : Nat) : Nat :=
  let r := o - 0x700000
  if r = 0 then s.fuses.lifecycle.code
  else if r = 4 then s.sec.levelWord
  else if r = 0x10 then half s.sec.nonce.toNat 0
  else if r = 0x14 then half s.sec.nonce.toNat 1
  else if r = 0x18 ∨ r = 0x1C ∨ r = 0x24 then (if s.fuses.lifecycle = .blank then 0 else s.regN o)
  else if r = 0x20 then packBits 16 fun n => (s.part n).keyless
  else if r = 0x104 then 2 ^ 31 * b2n s.sec.mboxCmd.isSome + s.sec.mboxStatus
  else if 0x1000 ≤ r ∧ r < 0x2000 then cellWord s.sec.mboxBuf (r - 0x1000)
  else 0

/-- The number of a seize state (R621). -/
def SeizeSt.code : SeizeSt → Nat
  | .none => 0 | .seizing => 1 | .open_ => 2

/-- The test mux drives low although it is enabled (R625, R627). -/
def State.tmuxBad (s : State) : Bool :=
  let w := s.regN 0x800020
  decide (2 ≤ s.sec.level) && bit w 31 && ! s.muxOk (bits w 29 24) (bits w 23 16) (bits w 7 0)

def State.dbgWord (s : State) (o : Nat) : Nat :=
  let r := o - 0x800000
  if s.sec.level < dbgLevel o then 0
  else if r = 0 then s.sec.levelWord
  else if r = 0x10 then s.dbg.seize.code
  else if r = 0x14 then s.dbg.refused
  else if r = 0x24 then b2n s.tmuxBad
  else if 0x10800 ≤ r then half (mapRd 0 ((r - 0x10800) / 8) s.dbg.counters) (r / 4 % 2)
  else s.regN o

/-- The unit that ERR_QUERY names, if R564 numbers it (R644). -/
def State.queried (s : State) : Option UnitKey :=
  let u : UnitKey := { kind := bits s.repair.query 23 16, index := bits s.repair.query 15 0 }
  let lim : Nat := match u.kind with
    | 0 => 1 | 1 => 16 | 2 => 128 | 3 => 8 | 4 => 512 | 5 => 512 | 6 => 16 | 7 => 4 | 9 => 304 | 0xA => 256 | 0xB => 32
    | 0xC => 8 | 0xD => 8 | _ => 0
  if u.index < lim then some u else none

/-- The number of a repair state. -/
def UnitState.code : UnitState → Nat
  | .inService => 0 | .retiring => 1 | .retired => 2 | .readmitting => 3

/-- ERR_UNIT_STATE and ERR_BUCKET of a unit (R644). -/
def State.unitWord (s : State) (u : UnitKey) : Nat := if u.kind = 4 then 0 else (s.unit u).code
def State.bucketWord (s : State) (u : UnitKey) : Nat :=
  let c := if u.kind = 4 then
      ((s.repair.rowBuckets.filter fun x => x.1.1 == u.index).map fun x => s.rowCount x.1.1 x.1.2).foldl max 0
    else s.bucketCount u
  2 ^ 16 * (bucketRule u.kind).1 + min c 65535

def State.errWord (s : State) (o : Nat) : Nat :=
  let r := o - 0x1000000
  if r = 8 then s.repair.status
  else if r = 0xC then (match s.repair.warmLost with | some n => 2 ^ 31 + n | none => 0)
  else if r = 0x10 then s.repair.query
  else if r = 0x14 then (s.queried.map s.unitWord).getD 0
  else if r = 0x18 then (s.queried.map s.bucketWord).getD 0
  else 0

/-- A word of DLN_SLOTn (R575). -/
def Slot.word (x : Slot) (o : Nat) : Nat :=
  if o = 0 then 2 ^ 16 * x.kind + 2 ^ 8 * x.part + (if x.armed.isSome then 2 else 1)
  else if o = 8 then half x.deadline 0 else if o = 0xC then half x.deadline 1
  else if o = 0x10 then (if x.kind = 4 then x.offset else x.sqIndex)
  else if o = 0x14 then 2 ^ 16 * x.chain + (if x.kind = 4 then x.stream else x.ring)
  else 0

def State.dlnWord (s : State) (o : Nat) : Nat :=
  match mapGet ((o - 0x1100000) / 32) s.slots with
  | some x => x.word (o % 32)
  | none => 0

/-! ### Words of the three BARs -/

/-- A word of PF0 BAR0 outside the function page. WO words and reserved offsets read zero (R11, R109). -/
def State.topWord (s : State) (o : Nat) : Nat :=
  let a := topAccess o
  if a = .reserved ∨ a = .wo then 0
  else if o < 0x10000 then s.recoveryWord o
  else if o < 0x20000 then s.idWord (o - 0x10000)
  else if o < 0x30000 then s.setupWord o
  else if o < 0x40000 then s.partWord o
  else if o < 0x200000 then s.bwrWord (o - 0x100000)
  else if o < 0x300000 then s.memWord o
  else if o < 0x400000 then s.cacheWord o
  else if o < 0x500000 then s.ingWord o
  else if o < 0x600000 then s.hawWord o
  else if o < 0x700000 then s.wdnWord o
  else if o < 0x800000 then s.secWord o
  else if o < 0x1000000 then s.dbgWord o
  else if o < 0x1100000 then s.errWord o
  else s.dlnWord o

/-- The agreed minor of one interface (R81): the lower one where the majors agree, else a free value (log entry 29).
`v`, `c`: the driver's and CTL's version, major and minor. -/
def agreedMinor (v c : Nat) : Nat :=
  if v / 256 = c / 256 then min (v % 256) (c % 256) else (Config.disagreedMinor v c).toNat

/-- PART_DRV_CLASS (R99): the class and the agreed minors (R81) of HOSTRING, the high half, and ERRREC. -/
def State.classWord (s : State) (f : Nat) : Nat :=
  let p := s.page f
  let c := s.boot.ctlIfver
  if p.cls = 0 then 0
  else p.cls + 2 ^ 8 * agreedMinor (p.ifver / 2 ^ 16) (c / 2 ^ 16)
    + 2 ^ 16 * agreedMinor (p.ifver % 2 ^ 16) (c % 2 ^ 16 + c / 2 ^ 32 * 2 ^ 16)

/-- RING_SQn_STATUS (R151). -/
def Sq.status (q : Sq) : Nat :=
  16 * q.reason + (match q.state with | .disabled => 0 | .enabled => 1 | .error => 2)

/-- A word of the MSI-X table. -/
def MsixEntry.word (e : MsixEntry) (o : Nat) : Nat :=
  match o with
  | 0 => half e.addr 0 | 4 => half e.addr 1 | 8 => e.data | _ => b2n e.masked

/-- A word of function `f`'s page. -/
def State.pageWord (s : State) (f o : Nat) : Nat :=
  let p := s.page f
  let a := pageAccess f o
  if a = .reserved ∨ a = .wo then 0
  else if o < 0x100 then s.idWord o
  else if o = 0x100 then p.ifver
  else if o = 0x104 then s.classWord f
  else if o = 0x108 then s.partStatus f
  else if o = 0x10C then b2n p.locked
  else if o < 0x118 then half p.dbBase ((o - 0x110) / 4)
  else if o < 0x120 then half p.errBase ((o - 0x118) / 4)
  else if o = 0x120 then p.errCtrl
  else if o = 0x124 then p.errProduced
  else if o = 0x128 then p.wrIgnored
  else if o = 0x12C then p.wrLast
  else if o < 0x800 then
    let q := p.sq ((o - 0x400) / 32)
    if o % 32 < 8 then half q.base (o % 32 / 4)
    else if o % 32 = 8 then q.ctrl else if o % 32 = 0xC then q.status else q.fetched
  else if o < 0xC00 then
    let c := p.cq ((o - 0x800) / 32)
    if o % 32 < 8 then half c.base (o % 32 / 4) else if o % 32 = 8 then c.ctrl else c.produced
  else if o < 0x2000 then (p.cq ((o - 0xC00) / 8)).irq
  else if o < 0x3000 then (p.msixAt ((o - 0x2000) / 16)).word (o % 16)
  else packBits 32 fun i => (p.msixAt (8 * (o - 0x3000) + i)).pending

/-- A word of a function's BAR0 as it is served (R83, R90, R109, R573). -/
def State.word (s : State) (f : Func) (o : Nat) : Nat :=
  match f with
  | .pf0 =>
    if inPage o then (if s.servesPage then s.pageWord 0 (o - 0x40000) else 0)
    else if s.serves o then s.topWord o else 0
  | .vf n => if 1 ≤ n ∧ n < 16 ∧ s.servesPage = true then s.pageWord n o else 0
  | .pf1 => if s.servesPage = true ∧ s.hio1Down = none ∧ lookupAccess idTable o = .ro then s.idWord o else 0

/-! ### Latched high words (R630) -/

/-- A word is the low word of a 64-bit RO register. -/
def wideRo (f : Func) (o : Nat) : Bool :=
  match f with
  | .pf0 => if inPage o then o == 0x40000 else topWideRo o
  | .vf _ => o == 0
  | .pf1 => o == 0

/-- Where a function's latched words are kept: its page's in the page, others by function x 2^28 + offset. -/
def State.latchGet (s : State) (f : Func) (o : Nat) : Option Nat :=
  match f with
  | .pf0 => if inPage o then mapGet (o - 0x40000) (s.page 0).highLatch else (mapGet o s.latches).map (·.toNat)
  | .vf n => mapGet o (s.page n).highLatch
  | .pf1 => (mapGet (16 * 2 ^ 28 + o) s.latches).map (·.toNat)

/-- A latched word is put (`some`) or spent (`none`). -/
def State.latchPut (s : State) (f : Func) (o : Nat) (v : Option Nat) : State :=
  let page (n k : Nat) : State := s.modPage n fun p =>
    { p with highLatch := match v with | some w => mapPut k w p.highLatch | none => mapDel k p.highLatch }
  let top (k : Nat) : State :=
    { s with latches := match v with | some w => mapPut k (BitVec.ofNat 32 w) s.latches | none => mapDel k s.latches }
  match f with
  | .pf0 => if inPage o then page 0 (o - 0x40000) else top o
  | .vf n => page n o
  | .pf1 => top (16 * 2 ^ 28 + o)

/-- The bytes of a read of `size` bytes at an offset. -/
def State.readBytes (s : State) (f : Func) (o size : Nat) : List Byte :=
  let k := (o + size + 3) / 4 - o / 4
  (((List.range k).flatMap fun i => leBytes 4 (s.word f (4 * (o / 4 + i)))).drop (o % 4)).take size

/-- REGISTER_READ: any size returns the addressed bytes; a 4-byte read of the low word of a 64-bit RO register latches its high
word, which the next 4-byte read of the high word returns (R629, R630). -/
def registerRead (f : Func) (o size : Nat) (s : State) : State :=
  let s := match f with | .vf n => (if 1 ≤ n ∧ n < 16 ∧ s.deaf = false then { s with vfEnable := true } else s) | _ => s
  let plain (s : State) : State := s.emit (.regRead f o size (BitVec.ofNat 64 (leNat (s.readBytes f o size))))
  if s.deaf then s
  else if size = 4 ∧ o % 4 = 0 ∧ wideRo f o = true then plain (s.latchPut f o (some (s.word f (o + 4))))
  else if size = 4 ∧ o % 4 = 0 ∧ 4 ≤ o ∧ wideRo f (o - 4) = true then
    match s.latchGet f (o - 4) with
    | some w => (s.latchPut f (o - 4) none).emit (.regRead f o size (BitVec.ofNat 64 w))
    | none => plain s
  else plain s

def execRegisterRead (f : Func) (off size : Nat) (s : State) : Res := .next (registerRead f off size s)

end Sys2Proof.Machine
end

