-- ==== Sys2Proof/Machine/Dispatch.lean ====
section
/-! DEFINITION. The dispatch: one arm per command, each one direct call of its meaning. -/

namespace Sys2Proof.Machine

/-- A command's effect on everything but the queue. -/
def exec (i : Instr) (s : State) : Host.Outcome State Fault Refusal :=
  match i with
  | .pwrGoodRise boot => Sys2Proof.Machine.execPwrGoodRise boot s
  | .coldReset boot => Sys2Proof.Machine.execColdReset boot s
  | .setupColdReq v boot => Sys2Proof.Machine.execSetupColdReq v boot s
  | .warmResetN w => Sys2Proof.Machine.execWarmResetN w s
  | .setupReset v w => Sys2Proof.Machine.execSetupReset v w s
  | .i3cWarmResetRequest b0 b1 w => Sys2Proof.Machine.execI3cWarmResetRequest b0 b1 w s
  | .perst0N w => Sys2Proof.Machine.execPerst0N w s
  | .perst1N p => Sys2Proof.Machine.execPerst1N p s
  | .hio0LinkLoss w => Sys2Proof.Machine.execHio0LinkLoss w s
  | .hio1LinkLoss p => Sys2Proof.Machine.execHio1LinkLoss p s
  | .flrVf n => Sys2Proof.Machine.execFlrVf n s
  | .flrPf0 w => Sys2Proof.Machine.execFlrPf0 w s
  | .flrPf1 p => Sys2Proof.Machine.execFlrPf1 p s
  | .setupPartReset v => Sys2Proof.Machine.execSetupPartReset v s
  | .powerLoss => Sys2Proof.Machine.execPowerLoss s
  | .thermTrip die => Sys2Proof.Machine.execThermTrip die s
  | .referenceLost r p w => Sys2Proof.Machine.execReferenceLost r p w s
  | .meshLinkFail link => Sys2Proof.Machine.execMeshLinkFail link s
  | .ptpSync port domain identity time => Sys2Proof.Machine.execPtpSync port domain identity time s
  | .ptpAnnounce port domain m => Sys2Proof.Machine.execPtpAnnounce port domain m s
  | .syncTimeout => Sys2Proof.Machine.execSyncTimeout s
  | .deviceTimeStep => Sys2Proof.Machine.execDeviceTimeStep s
  | .ppsInEdge => Sys2Proof.Machine.execPpsInEdge s
  | .ppsOut => Sys2Proof.Machine.execPpsOut s
  | .seizeN => Sys2Proof.Machine.execSeizeN s
  | .jtagSeize => Sys2Proof.Machine.execJtagSeize s
  | .seizeExit boot => Sys2Proof.Machine.execSeizeExit boot s
  | .flashRead => Sys2Proof.Machine.execFlashRead s
  | .flashErase => Sys2Proof.Machine.execFlashErase s
  | .flashProgram => Sys2Proof.Machine.execFlashProgram s
  | .flashCommandDone flashOk => Sys2Proof.Machine.execFlashCommandDone flashOk s
  | .override r => Sys2Proof.Machine.execOverride r s
  | .goldenUpdate r => Sys2Proof.Machine.execGoldenUpdate r s
  | .lifecycleRecord signer => Sys2Proof.Machine.execLifecycleRecord signer s
  | .debugToken jtag bytes signer => Sys2Proof.Machine.execDebugToken jtag bytes signer s
  | .linkSecretRecord signer unwrapOk secret => Sys2Proof.Machine.execLinkSecretRecord signer unwrapOk secret s
  | .debugLevelRequest jtag v => Sys2Proof.Machine.execDebugLevelRequest jtag v s
  | .partDrvIfver f v => Sys2Proof.Machine.execPartDrvIfver f v s
  | .setupLock v => Sys2Proof.Machine.execSetupLock v s
  | .functionSetupLock f v => Sys2Proof.Machine.execFunctionSetupLock f v s
  | .registerWrite f off size v => Sys2Proof.Machine.execRegisterWrite f off size v s
  | .partitionAlloc n => Sys2Proof.Machine.execPartitionAlloc n s
  | .allocClearDone n => Sys2Proof.Machine.execAllocClearDone n s
  | .partitionRelease n => Sys2Proof.Machine.execPartitionRelease n s
  | .pinEntryWrite n e v => Sys2Proof.Machine.execPinEntryWrite n e v s
  | .reservedRegionWrite k v => Sys2Proof.Machine.execReservedRegionWrite k v s
  | .sqEnable f n v => Sys2Proof.Machine.execSqEnable f n v s
  | .sqDisable f n v => Sys2Proof.Machine.execSqDisable f n v s
  | .cqEnable f n v => Sys2Proof.Machine.execCqEnable f n v s
  | .cqDisable f n v => Sys2Proof.Machine.execCqDisable f n v s
  | .errRingEnable f v => Sys2Proof.Machine.execErrRingEnable f v s
  | .errRingDisable f v => Sys2Proof.Machine.execErrRingDisable f v s
  | .ringSqnRestart f n v => Sys2Proof.Machine.execRingSqnRestart f n v s
  | .doorbellSweep f block => Sys2Proof.Machine.execDoorbellSweep f block s
  | .descriptorFetch f n bytes => Sys2Proof.Machine.execDescriptorFetch f n bytes s
  | .nop f n => Sys2Proof.Machine.execNop f n s
  | .runList f n => Sys2Proof.Machine.execRunList f n s
  | .hostCopy f n data => Sys2Proof.Machine.execHostCopy f n data s
  | .waitRing f n => Sys2Proof.Machine.execWaitRing f n s
  | .waitEpoch f n => Sys2Proof.Machine.execWaitEpoch f n s
  | .timestamp f n => Sys2Proof.Machine.execTimestamp f n s
  | .pcieErrorResponse f n r abort => Sys2Proof.Machine.execPcieErrorResponse f n r abort s
  | .pcieCompletionTimeout f n r => Sys2Proof.Machine.execPcieCompletionTimeout f n r s
  | .completionWrite f n => Sys2Proof.Machine.execCompletionWrite f n s
  | .irqTimer f n => Sys2Proof.Machine.execIrqTimer f n s
  | .msixUnmask f vec => Sys2Proof.Machine.execMsixUnmask f vec s
  | .listStart f n => Sys2Proof.Machine.execListStart f n s
  | .contextDeadlock f n => Sys2Proof.Machine.execContextDeadlock f n s
  | .copy c o => Sys2Proof.Machine.execCopy c o s
  | .loopBegin c lc src => Sys2Proof.Machine.execLoopBegin c lc src s
  | .loopEnd c lc => Sys2Proof.Machine.execLoopEnd c lc s
  | .predSet c p src => Sys2Proof.Machine.execPredSet c p src s
  | .fence c => Sys2Proof.Machine.execFence c s
  | .matmul c o => Sys2Proof.Machine.execMatmul c o s
  | .matmulAcc c o => Sys2Proof.Machine.execMatmulAcc c o s
  | .matmulGated c o => Sys2Proof.Machine.execMatmulGated c o s
  | .epilogueStreamHandoff l => Sys2Proof.Machine.execEpilogueStreamHandoff l s
  | .act c o => Sys2Proof.Machine.execAct c o s
  | .normRow c o => Sys2Proof.Machine.execNormRow c o s
  | .softmaxRow c o => Sys2Proof.Machine.execSoftmaxRow c o s
  | .attnBlock c o => Sys2Proof.Machine.execAttnBlock c o s
  | .pinResume l => Sys2Proof.Machine.execPinResume l s
  | .gatherPages c o => Sys2Proof.Machine.execGatherPages c o s
  | .scatterWrite c o => Sys2Proof.Machine.execScatterWrite c o s
  | .scatterFork c o => Sys2Proof.Machine.execScatterFork c o s
  | .scatterFree c o => Sys2Proof.Machine.execScatterFree c o s
  | .conv2d c o => Sys2Proof.Machine.execConv2d c o s
  | .pool2d c o => Sys2Proof.Machine.execPool2d c o s
  | .resample c o => Sys2Proof.Machine.execResample c o s
  | .rngFill c o => Sys2Proof.Machine.execRngFill c o s
  | .allReduce c o => Sys2Proof.Machine.execAllReduce c o s
  | .reduceScatter c o => Sys2Proof.Machine.execReduceScatter c o s
  | .vetoOr c o => Sys2Proof.Machine.execVetoOr c o s
  | .allGather c o => Sys2Proof.Machine.execAllGather c o s
  | .broadcast c o => Sys2Proof.Machine.execBroadcast c o s
  | .collTimeout l => Sys2Proof.Machine.execCollTimeout l s
  | .amax c o => Sys2Proof.Machine.execAmax c o s
  | .sumsq c o => Sys2Proof.Machine.execSumsq c o s
  | .push c o => Sys2Proof.Machine.execPush c o s
  | .clip c o => Sys2Proof.Machine.execClip c o s
  | .product c o => Sys2Proof.Machine.execProduct c o s
  | .nonfiniteVote c o => Sys2Proof.Machine.execNonfiniteVote c o s
  | .eccCorrected e => Sys2Proof.Machine.execEccCorrected e s
  | .eccUncorrectable e retryOk => Sys2Proof.Machine.execEccUncorrectable e retryOk s
  | .tagCopyError slice both => Sys2Proof.Machine.execTagCopyError slice both s
  | .obAmEccError brick am corrected addr => Sys2Proof.Machine.execObAmEccError brick am corrected addr s
  | .engineError brick recomputeOk l => Sys2Proof.Machine.execEngineError brick recomputeOk l s
  | .patrolScrub r => Sys2Proof.Machine.execPatrolScrub r s
  | .chunkCopyDone stack => Sys2Proof.Machine.execChunkCopyDone stack s
  | .copyBackChunkDone stack => Sys2Proof.Machine.execCopyBackChunkDone stack s
  | .nodeMove unreadable => Sys2Proof.Machine.execNodeMove unreadable s
  | .bucketRefill mortar => Sys2Proof.Machine.execBucketRefill mortar s
  | .ingestPortEnable q => Sys2Proof.Machine.execIngestPortEnable q s
  | .ingestEnable => Sys2Proof.Machine.execIngestEnable s
  | .sourceWrite n v => Sys2Proof.Machine.execSourceWrite n v s
  | .ruleWrite n v => Sys2Proof.Machine.execRuleWrite n v s
  | .streamEnable n v => Sys2Proof.Machine.execStreamEnable n v s
  | .streamDisable n v => Sys2Proof.Machine.execStreamDisable n v s
  | .ingStrmnResume n v => Sys2Proof.Machine.execIngStrmnResume n v s
  | .ingestPacket p => Sys2Proof.Machine.execIngestPacket p s
  | .arpRequest r => Sys2Proof.Machine.execArpRequest r s
  | .gatherLimit n exposure => Sys2Proof.Machine.execGatherLimit n exposure s
  | .fusionStart n exposure => Sys2Proof.Machine.execFusionStart n exposure s
  | .epochWritten n exposure => Sys2Proof.Machine.execEpochWritten n exposure s
  | .ingestLinkLost q => Sys2Proof.Machine.execIngestLinkLost q s
  | .hawserPortEnable p => Sys2Proof.Machine.execHawserPortEnable p s
  | .linkTrained p => Sys2Proof.Machine.execLinkTrained p s
  | .lldpSend p => Sys2Proof.Machine.execLldpSend p s
  | .lldpReceived p mac partnerPort retry => Sys2Proof.Machine.execLldpReceived p mac partnerPort retry s
  | .bindingTimeout p => Sys2Proof.Machine.execBindingTimeout p s
  | .hawserLinkLost p => Sys2Proof.Machine.execHawserLinkLost p s
  | .write h => Sys2Proof.Machine.execWrite h s
  | .readReq h => Sys2Proof.Machine.execReadReq h s
  | .readResp h => Sys2Proof.Machine.execReadResp h s
  | .collData h => Sys2Proof.Machine.execCollData h s
  | .collCtrl h => Sys2Proof.Machine.execCollCtrl h s
  | .ack h => Sys2Proof.Machine.execAck h s
  | .nak h => Sys2Proof.Machine.execNak h s
  | .probe h => Sys2Proof.Machine.execProbe h s
  | .portState h => Sys2Proof.Machine.execPortState h s
  | .hawserReservedFrame p type => Sys2Proof.Machine.execHawserReservedFrame p type s
  | .pfcPause p prio on => Sys2Proof.Machine.execPfcPause p prio on s
  | .ackTimer chip lane => Sys2Proof.Machine.execAckTimer chip lane s
  | .replayTimer p => Sys2Proof.Machine.execReplayTimer p s
  | .retransmitTimer chip lane => Sys2Proof.Machine.execRetransmitTimer chip lane s
  | .hawJobWrite n v => Sys2Proof.Machine.execHawJobWrite n v s
  | .sensorSample idx raw => Sys2Proof.Machine.execSensorSample idx raw s
  | .decisionPeriod => Sys2Proof.Machine.execDecisionPeriod s
  | .levelChange brick => Sys2Proof.Machine.execLevelChange brick s
  | .powerEstimate rails restMw => Sys2Proof.Machine.execPowerEstimate rails restMw s
  | .avsResponse ok => Sys2Proof.Machine.execAvsResponse ok s
  | .wardenWatchdog => Sys2Proof.Machine.execWardenWatchdog s
  | .idleTimeout => Sys2Proof.Machine.execIdleTimeout s
  | .dozeTimeout => Sys2Proof.Machine.execDozeTimeout s
  | .wardenTimeout => Sys2Proof.Machine.execWardenTimeout s
  | .enterWarden => Sys2Proof.Machine.execEnterWarden s
  | .enterOff => Sys2Proof.Machine.execEnterOff s
  | .hostWakeRequest port memory => Sys2Proof.Machine.execHostWakeRequest port memory s
  | .wakeTime => Sys2Proof.Machine.execWakeTime s
  | .railsInRegulation t selfTestFail => Sys2Proof.Machine.execRailsInRegulation t selfTestFail s
  | .storeDrain brick => Sys2Proof.Machine.execStoreDrain brick s
  | .drainTimeout brick targets => Sys2Proof.Machine.execDrainTimeout brick targets s
  | .errorHandle => Sys2Proof.Machine.execErrorHandle s
  | .handlerTimeout => Sys2Proof.Machine.execHandlerTimeout s
  | .bucketLeak u row => Sys2Proof.Machine.execBucketLeak u row s
  | .errRetireReq v => Sys2Proof.Machine.execErrRetireReq v s
  | .errReadmitReq v => Sys2Proof.Machine.execErrReadmitReq v s
  | .selfTestDone pass => Sys2Proof.Machine.execSelfTestDone pass s
  | .probationEnd pass => Sys2Proof.Machine.execProbationEnd pass s
  | .handOver => Sys2Proof.Machine.execHandOver s
  | .deadlineTest => Sys2Proof.Machine.execDeadlineTest s
  | .debugTrigger edges => Sys2Proof.Machine.execDebugTrigger edges s
  | .getVersion => Sys2Proof.Machine.execGetVersion s
  | .getCapabilities => Sys2Proof.Machine.execGetCapabilities s
  | .negotiateAlgorithms p384 sha384 => Sys2Proof.Machine.execNegotiateAlgorithms p384 sha384 s
  | .getDigests => Sys2Proof.Machine.execGetDigests s
  | .getCertificate slot offset length => Sys2Proof.Machine.execGetCertificate slot offset length s
  | .challenge slot nonce => Sys2Proof.Machine.execChallenge slot nonce s
  | .getMeasurements index nonce => Sys2Proof.Machine.execGetMeasurements index nonce s
  | .spdmUnsupportedRequest code => Sys2Proof.Machine.execSpdmUnsupportedRequest code s
  | .coldResetNAssert => Sys2Proof.Machine.execColdResetNAssert s
  | .perstNDeassert n => Sys2Proof.Machine.execPerstNDeassert n s
  | .pcieLinkTrained n => Sys2Proof.Machine.execPcieLinkTrained n s
  | .pf1FlrReadiness => Sys2Proof.Machine.execPf1FlrReadiness s
  | .ingestLinkUp q => Sys2Proof.Machine.execIngestLinkUp q s
  | .delayResp port domain identity delay => Sys2Proof.Machine.execDelayResp port domain identity delay s
  | .hawserFcsFailure p fec => Sys2Proof.Machine.execHawserFcsFailure p fec s
  | .forkResume l => Sys2Proof.Machine.execForkResume l s
  | .secMboxDone boot => Sys2Proof.Machine.execSecMboxDone boot s
  | .registerRead f off size => Sys2Proof.Machine.execRegisterRead f off size s
  | .ppsOutFall => Sys2Proof.Machine.execPpsOutFall s

end Sys2Proof.Machine
end

