-- ==== Sys2Proof/Machine/Step.lean ====
section
/-! DEFINITION. The step: the command at the front of the queue, or a cycle of the device-time counter. -/

namespace Sys2Proof.Machine

/-- One cycle of the device-time counter: of CTL0's while the device runs, of the warden's count in WARDEN and in RECOVERY
(R42, R50); it stands still in reset, stopped by the warden, and seized. -/
def State.tick (s : State) : State :=
  match s.phase with
  | .up => { s with time := if s.wdn.st = .warden then s.time.wardenTick else s.time.tick }
  | .recovery => { s with time := s.time.wardenTick }
  | .failed => { s with time := s.time.tick }
  | .stopped => { s with time := s.time.tick }
  | _ => s

/-- A step takes the command at the front of the queue and runs it with the rest of the queue; on an empty queue device time
goes on by one cycle of its counter (log entry 7). -/
def step (s : State) : Host.Outcome State Fault Refusal :=
  match s.pending with
  | [] => .next s.tick
  | c :: rest => exec c { s with pending := rest }

/-- The command a table word spells, in front of the queue; none does. -/
def State.withFetchWord (s : State) (nbits w : Nat) : State :=
  match decodeTableWord nbits w with
  | some c => { s with pending := c :: s.pending }
  | none => s

end Sys2Proof.Machine
end

