-- ==== Sys2Proof/Safety.lean ====
section
/-! DEFINITION. The terms in which claims about the device are made: the canonical form of its memories, where a ring or a
register is served, what it means that an engine command runs, and that a state differs from another in named places only. -/

namespace Sys2Proof.Machine

/-! ### Memories -/

/-- Device memory, and OB and AM of every brick, are in their canonical form. -/
def State.memOk (s : State) : Bool := s.mem.wf && s.bricks.all fun b => b.ob.wf && b.am.wf

/-- The bytes of a store lie at an address of a memory (0 OB, 1 AM, 2 device) of a brick. -/
def Store.covers (t : Store) (mem brick a : Nat) : Prop :=
  t.mem = mem ∧ (mem = 2 ∨ t.brick = brick) ∧ t.addr ≤ a ∧ a < t.addr + t.bytes.length

/-- Every byte that no store of the list covers reads as before. -/
def SameOutside (s t : State) (ss : List Store) : Prop :=
  (∀ a, (∀ w ∈ ss, ¬ w.covers 2 0 a) → t.mem.rd a = s.mem.rd a) ∧
  (∀ b a, (∀ w ∈ ss, ¬ w.covers 0 b a) → (t.brick b).ob.rd a = (s.brick b).ob.rd a) ∧
  (∀ b a, (∀ w ∈ ss, ¬ w.covers 1 b a) → (t.brick b).am.rd a = (s.brick b).am.rd a)

/-! ### Engine commands -/

/-- The environment of a command after C3 has consumed its waits (R179). -/
def Env.after (e : Env) (c : Cmd) : Env := { e with c := (e.c.consume c.wait0).consume c.wait1 }

/-- The state after C3: the context with its waits consumed, the list active (R179, R200). -/
def State.issued (s : State) (e : Env) (c : Cmd) : State :=
  (s.modCtx e.key fun _ => (e.after c).c).modList e.l.owner fun l => { l with lastActive := s.now }

/-- A command reaches C2: it stands next in a stream of a running list, in no loop body that is passed over, on a device that
is awake (R160, R184, R191). -/
def Reaches (s : State) (c : Cmd) (e : Env) : Prop :=
  s.env c.loc = some e ∧ s.awake = true ∧ e.c.ready c.loc.stream = true ∧ e.c.skipping c.loc.stream = false

/-- A command reaches C5b: C2 passes, its waits hold, its predicate lets it run (R178, R183, R184). -/
def Runs (s : State) (c : Cmd) (e : Env) (fits eng : Bool) (own : List (Nat × Bool)) : Prop :=
  Reaches s c e ∧ cmdC2 c e fits eng own = none ∧
  e.c.waitOk e.stream c.wait0 = true ∧ e.c.waitOk e.stream c.wait1 = true ∧ (e.after c).c.runs c.sel = true

/-- The site at which a running command reads its operands (R177). -/
def siteOf (s : State) (c : Cmd) (e : Env) : Site := (e.after c).site (s.issued e c)

/-- Reads of this chip that fault nowhere. -/
def ReadsHere (x : Site) (reads : List (Nat × Nat × Nat)) : Prop := x.readsFault reads = none ∧ farReads reads = []

/-- Stores of this chip that fault nowhere, by a command with nothing under way on another chip. -/
def StoresHere (s : State) (c : Cmd) (e : Env) (ss : List Store) : Prop :=
  (siteOf s c e).writesFault ss = none ∧ ss.filter Store.isFar = [] ∧ (s.issued e c).remoteAt c.loc = none

/-- The state after the reads of a running command have been charged (R403). -/
def State.fetched (s : State) (c : Cmd) (e : Env) (reads : List (Nat × Nat × Nat)) : State :=
  (s.issued e c).chargeReads (e.after c).c.part reads

/-- The site of a running command once its reads have been charged. -/
def siteAt (s : State) (c : Cmd) (e : Env) (reads : List (Nat × Nat × Nat)) : Site := (e.after c).site (s.fetched c e reads)

/-- The draws of stochastic rounding a command starts from (R348). -/
def Env.rnd0 (e : Env) (c : Cmd) : Rnd := (e.after c).c.rnd e.stream

/-- A command ends with stores on this chip: its reads charged, its draws recorded, its stores visible, then C7. -/
def storesDone (s : State) (c : Cmd) (e : Env) (reads : List (Nat × Nat × Nat)) (r : Rnd) (ss : List Store)
    (regs : List Nat) : State :=
  (((s.fetched c e reads).modCtx e.key (Ctx.withRnd r)).commit e.c.part ss).finish (e.after c) c 6 regs c.last

/-- Nothing hangs on the completion of a command but its own stream and signals: no fence of its context is held, its list
has no deadline entry and its signals stay in range. -/
def Quiet (s : State) (e : Env) (c : Cmd) : Prop :=
  s.ctx e.key = some e.c ∧ s.list? e.l.owner = some e.l ∧ e.l.dlns = [] ∧
  s.sigsOver e.l e.key c.sig0 c.sig1 = false ∧
  ∀ k x, s.ctx k = some x → ∀ i, ∀ d regs w, (x.stream i).busy ≠ .exec d regs (.fence w)

/-! ### C2 of each command -/

/-- The engine command that an event issues; the loop commands and the collectives, which have rules of their own, are left
out. With it: whether its fields lie within their widths, the engine that takes it (5: any), its tile registers. -/
def engineCmd : Instr → Option (Cmd × Bool × Nat × List Nat)
  | .copy c o => some (c, fitsCmd c && fitsCopy o, 3, if o.dstKind = 0 then [o.src, o.dst] else [o.src])
  | .predSet c p src => some (c, fitsCmd c && fitsW 3 p && fitsPred src, 5, [])
  | .fence c => some (c, fitsCmd c, 5, [])
  | .matmul c o => some (c, fitsCmd c && fitsMat o, 0, matRegs 0 o)
  | .matmulAcc c o => some (c, fitsCmd c && fitsMat o, 0, matRegs 1 o)
  | .matmulGated c o => some (c, fitsCmd c && fitsMat o && o.epi.gateT.isSome, 0, matRegs 2 o)
  | .act c o => some (c, fitsCmd c && fitsAct o, 1, [o.x, o.y])
  | .normRow c o => some (c, fitsCmd c && fitsNorm o, 1, (normNeeds o).map (·.reg))
  | .softmaxRow c o => some (c, fitsCmd c && fitsSoft o, 1, (softNeeds o).map (·.reg))
  | .attnBlock c o => some (c, fitsCmd c && fitsAttn o, 0, attnRegs o)
  | .gatherPages c o => some (c, fitsCmd c && fitsPages o, 3, pagesRegs o true)
  | .scatterWrite c o => some (c, fitsCmd c && fitsPages o, 3, pagesRegs o true)
  | .scatterFork c o => some (c, fitsCmd c && fitsPages o, 3, pagesRegs o false)
  | .scatterFree c o => some (c, fitsCmd c && fitsPages o, 3, pagesRegs o false)
  | .conv2d c o => some (c, fitsCmd c && fitsConv o, 0, convRegs o)
  | .pool2d c o => some (c, fitsCmd c && fitsPool o, 2, [o.x, o.y])
  | .resample c o => some (c, fitsCmd c && fitsResamp o, 2, [o.x, o.y])
  | .rngFill c o => some (c, fitsCmd c && fitsRng o, 1, [o.y])
  | .amax c o => some (c, fitsCmd c && fitsScaleF o, 1, [o.x, o.r])
  | .sumsq c o => some (c, fitsCmd c && fitsScaleF o, 1, [o.x, o.r])
  | .push c o => some (c, fitsCmd c && fitsScaleF o, 1, (pushNeeds o).map (·.reg))
  | .clip c o => some (c, fitsCmd c && fitsScaleF o, 1, [o.src, o.r])
  | .product c o => some (c, fitsCmd c && fitsScaleF o, 1, [o.src, o.src2, o.r])
  | .nonfiniteVote c o => some (c, fitsCmd c && fitsVote o, 1, [o.x])
  | _ => none

/-- C2 of such a command (R178 to R183, R198). -/
def engineC2 (x : Cmd × Bool × Nat × List Nat) (e : Env) : Option Nat :=
  cmdC2 x.1 e x.2.1 (x.2.2.1 == 5 || engineOf x.1.loc.stream == x.2.2.1) []

/-! ### Host rings -/

/-- Descriptor `d` of ring `n` of function `f` starts now (R129, R131, R141, R151). -/
def StartsOn (s : State) (f n : Nat) (d : Desc) : Prop :=
  s.ringsOn f = true ∧ (s.sq f n).state = .enabled ∧ (s.sq f n).disabling = false ∧ s.head? f n = some d ∧ s.unrun f d = none

/-! ### Hawser frames -/

/-- A frame is heard: the links take part, its port takes frames, and it authenticates (R479). -/
def Hears (s : State) (h : HawFrame) : Prop := s.online = true ∧ s.takes h.port = true ∧ s.authentic h = true

/-- The state once the acknowledgement that a frame carries has been taken (R474). -/
def State.acked (s : State) (h : HawFrame) : State := s.ackUpTo h.src h.lane h.ackPsn

/-- A sequenced frame takes its place on its connection (R476). -/
def State.took (s : State) (h : HawFrame) : State :=
  let c := s.conn h.src h.lane
  s.setConn { c with rxNext := (c.rxNext + 1) % 2 ^ 32, rxOwed := c.rxOwed + 1
                     rxSince := if c.rxOwed = 0 then s.now else c.rxSince }

/-- The receiver acknowledges at the 32nd frame it owes an acknowledgement (R476). -/
def State.ackAt32 (s : State) (h : HawFrame) : State :=
  if 32 ≤ (s.conn h.src h.lane).rxOwed then s.sendAck h.src h.lane else s

/-! ### Registers -/

/-- The registers of PF0 BAR0 are served and unlocked (R90, R634). -/
def OpenTop (s : State) : Prop := s.phase = .up ∧ s.boot.ready = true ∧ s.locked = false

/-- The page of function `f` is served and unlocked (R90, R117, R635). -/
def OpenPage (s : State) (f : Nat) : Prop :=
  f < 16 ∧ s.phase = .up ∧ s.boot.ready = true ∧ (s.page f).locked = false

/-- An access to a VF's page shows that VF Enable is set. -/
def State.seen (s : State) (f : Nat) : State := if f = 0 then s else { s with vfEnable := true }

/-- The security mailbox takes a record: its registers are served and no record is being checked (R642). -/
def MailboxOpen (s : State) : Prop := s.deaf = false ∧ s.serves 0x700100 = true ∧ s.sec.mboxCmd = none

end Sys2Proof.Machine
end

