-- ==== Sys2Proof/Certificates/Slice0/Obligations.lean ====
section
/-! DEFINITION. The statements for the provers, in the terms of Safety.lean. Each docstring says what its statement claims
and names the rules it rests on. -/

open Sys2Proof Sys2Proof.Machine

/-! ### The whole device -/

/-- With a command at the front of the queue, step is exec of that command on the state with the queue's rest. On an
empty queue it is one cycle of the device-time counter (the model's choice, log entry 7). (R10, log entry 7) -/
def Obligations.StepRunsTheFrontCommand : Prop :=
  (∀ (s : State) c rest, step { s with pending := c :: rest } = exec c { s with pending := rest }) ∧
  (∀ (s : State), s.pending = [] → step s = .next s.tick)

/-- Whatever the state, step answers a next state, no fault and no refusal, and the queue is what it was without its
front command (log entry 1). (log entry 1) -/
def Obligations.EveryStepAnswersAndConsumesOne : Prop :=
  ∀ s, ∃ t, step s = .next t ∧ t.pending = s.pending.tail

/-- State.reset has its memories in canonical form, is held in reset, has no command waiting, no allocated partition,
no enabled ring, no window, the node table of R384 and the register reset values of chapter 18. (R63, R113, R384,
R594, R633) -/
def Obligations.ResetIsCanonicalAndHeld : Prop :=
  State.reset.memOk = true ∧ State.reset.pending = [] ∧ State.reset.phase = .held ∧ State.reset.regN 0x400004 = 4 ∧
  State.reset.regN 0x60081C = 2400 ∧ State.reset.regN 0x600824 = 100 ∧ State.reset.regN 0x500004 = 100 ∧
  State.reset.regN 0x200000 = 24 ∧ State.reset.locked = false ∧ State.reset.sec.mrs = List.replicate 9 0 ∧
  (∀ n, n < 16 → (State.reset.part n).allocated = false ∧ ∀ k, k < 32 → (State.reset.sq n k).state = .disabled) ∧
  (∀ n, n < 32 → State.reset.windows[n]? = some Window.reset) ∧
  (∀ n, n < 256 → ∃ e, State.reset.mortar.nodes[n]? = some e ∧ e.current = n % 8 ∧ e.rank = n / 8)

/-- From every state whose memories are canonical (cells by strictly rising address, none zero; written and poison
sets strictly rising), whatever command is at the front, the next state's memories are canonical. (R204, R375, R646)
-/
def Obligations.StepKeepsMemoryCanonical : Prop :=
  ∀ s t, s.memOk = true → step s = .next t → t.memOk = true

/-- For each of the 24 engine commands of `engineCmd`, in every state, exec leaves the plain registers, the windows,
the fuses, the partition table, the boot state, the security engine, the lock and device time as they were, also where
the command faults. (R184, R378, R44, R591) -/
def Obligations.EngineCommandsKeepTheSetUp : Prop :=
  ∀ s i x t, engineCmd i = some x → exec i s = .next t →
    t.regs = s.regs ∧ t.windows = s.windows ∧ t.fuses = s.fuses ∧ t.parts = s.parts ∧ t.boot = s.boot ∧ t.sec = s.sec ∧
    t.locked = s.locked ∧ t.time = s.time

/-- Where a command ends with stores on this chip, no fence waits on it, its list has no deadline entry and its
signals stay in range: every byte no store covers reads as before, no other context than its own and those it signals
changes, no other list, and nothing else of the state but the regulators and the free counter. (R181, R182, R184,
R205, R403) -/
def Obligations.CompletedCommandsChangeNothingElse : Prop :=
  ∀ s c e fits eng own reads r ss regs, Runs s c e fits eng own → Quiet s e c → c.last = false → (∀ w ∈ ss, w.mem ≤ 2) →
    SameOutside s (storesDone s c e reads r ss regs) ss ∧
    (∃ t, t = storesDone s c e reads r ss regs ∧
      t = { s with ctxs := t.ctxs, lists := t.lists, mem := t.mem, bricks := t.bricks, mortar := t.mortar, free := t.free } ∧
      (∀ k, k ≠ e.key → k ≠ sigKey e.l e.key c.sig0 → k ≠ sigKey e.l e.key c.sig1 → t.ctx k = s.ctx k) ∧
      (∀ o, o ≠ e.l.owner → t.list? o = s.list? o))

/-! ### Engine commands -/

/-- For each of the 24 engine commands: nothing where no list runs it; the first failing C2 test faults at step 2; an
unmet wait holds the stream at C3; a predicate that is false passes the command through C7 without its operation.
(R178, R179, R183, R184, R198, R201) -/
def Obligations.EngineCommandsPassTheirGates : Prop :=
  ∀ i x, engineCmd i = some x →
    let c := x.1
    let regs := x.2.2.2
    (∀ s, s.env c.loc = none ∨ s.awake = false → exec i s = .next s) ∧
    (∀ s e code, Reaches s c e → engineC2 x e = some code →
      exec i s = .next (s.faultCmd e c code 2 regs 0 0xFFFFFFFF)) ∧
    (∀ s e, Reaches s c e → engineC2 x e = none →
      (e.c.waitOk e.stream c.wait0 && e.c.waitOk e.stream c.wait1) = false →
      exec i s = .next (s.modCtx e.key fun y => y.modStream e.stream fun t => t.hold s.now)) ∧
    (∀ s e, Reaches s c e → engineC2 x e = none →
      (e.c.waitOk e.stream c.wait0 && e.c.waitOk e.stream c.wait1) = true → (e.after c).c.runs c.sel = false →
      exec i s = .next (((s.issued e c).modCtx e.key id).finish (e.after c) c 5 regs c.last))

/-- A running LOOP_BEGIN enters its loop, or its skip where the count is zero; LOOP_END steps it; PRED_SET writes its
predicate; FENCE completes at once where nothing else of its context runs, else it waits for the streams that do.
(R184, R188, R189, R191, R193) -/
def Obligations.ControlCommandsComplete : Prop :=
  (∀ s c e lc src, Runs s c e (fitsCmd c && fitsW 3 lc && fitsCount src) true
      [(0x101A, decide (4 ≤ (e.c.stream e.stream).loops.length)), (0x101B, e.c.held lc)] →
    exec (.loopBegin c lc src) s = .next (((s.issued e c).modCtx e.key fun x =>
      if (e.after c).c.count src = 0 then x.enterSkip e.stream lc
      else x.enterLoop e.stream lc ((e.after c).c.count src)).finish (e.after c) c 6 [] c.last)) ∧
  (∀ s c e lc, Reaches s c e →
    cmdC2 c e (fitsCmd c && fitsW 3 lc) true [(0x101D, c.sel != 0), (0x101B, e.c.unmatched e.stream lc)] = none →
    e.c.waitOk e.stream c.wait0 = true → e.c.waitOk e.stream c.wait1 = true →
    exec (.loopEnd c lc) s = .next ((((s.issued e c).finish (e.after c) c 6 [] (c.last && (e.after c).c.loopOver lc)).modCtx
      e.key (Ctx.loopStep e.stream lc)))) ∧
  (∀ s c e p src, Runs s c e (fitsCmd c && fitsW 3 p && fitsPred src) true [] →
    exec (.predSet c p src) s = .next (((s.issued e c).modCtx e.key
      (Ctx.setPred p ((e.after c).c.predValue src))).finish (e.after c) c 6 [] c.last)) ∧
  (∀ s c e, Runs s c e (fitsCmd c) true [] → (e.after c).c.running = [] →
    exec (.fence c) s = .next ((s.issued e c).finish (e.after c) c 6 [] c.last)) ∧
  (∀ s c e, Runs s c e (fitsCmd c) true [] → (e.after c).c.running ≠ [] →
    exec (.fence c) s = .next ((s.issued e c).modCtx e.key fun x => x.modStream e.stream fun t =>
      { t with busy := .exec c [] (.fence (e.after c).c.running) }))

/-- With checks passed and operands on this chip, COPY moves each row through its conversion, or loads tile registers;
POOL_2D and RESAMPLE store each output of their windows; then C7. (R184, R245, R283, R286) -/
def Obligations.CopyAndWindowCommandsComplete : Prop :=
  (∀ s c e o a d, Runs s c e (fitsCmd c && fitsCopy o) (engineOf c.loc.stream == 3) [] →
    o.dstKind = 0 → (siteOf s c e).opnd o.src = some a → (siteOf s c e).opnd o.dst = some d →
    (siteOf s c e).check (copyNeeds o) [] (copyPair (some a) (some d)) [o.cvt] (copyOwn (siteOf s c e) o a (some d)) = none →
    let moves := copyMoves a d o.batch
    let reads := moves.map fun m => (a.desc.mem, m.1, m.2.2)
    let out := copyStores a d e.brick o.cvt moves
      (moves.map fun m => ((siteAt s c e reads).memFor a).read m.1 m.2.2) 0 (e.rnd0 c)
    ReadsHere (siteOf s c e) reads → StoresHere s c e out.1 →
    exec (.copy c o) s = .next (storesDone s c e reads out.2 out.1 [o.src, o.dst])) ∧
  (∀ s c e o a, Runs s c e (fitsCmd c && fitsCopy o) (engineOf c.loc.stream == 3) [] →
    o.dstKind = 1 → (siteOf s c e).opnd o.src = some a →
    (siteOf s c e).check (copyNeeds o) [] false [] (copyOwn (siteOf s c e) o a none) = none →
    let rows := (List.range a.desc.rows).map fun r => a.rowAt 0 r
    let reads := rows.map fun p => (a.desc.mem, p, 32)
    ReadsHere (siteOf s c e) reads →
    exec (.copy c o) s = .next (((s.fetched c e reads).modCtx e.key fun k =>
      { k with tiles := loadTiles o.trFirst (rows.map fun p => ((siteAt s c e reads).memFor a).read p 32) k.tiles }).finish
        (e.after c) c 6 [o.src] c.last)) ∧
  (∀ s c e o a y, Runs s c e (fitsCmd c && fitsPool o) (engineOf c.loc.stream == 2) [] →
    (siteOf s c e).opnd o.x = some a → (siteOf s c e).opnd o.y = some y →
    (siteOf s c e).check (poolNeeds o) [(0x1019, (poolWin o).tooBig)] false [o.cvt] (poolOwn o a y) = none →
    let w := poolWin o
    let keys := planeKeys o.batch o.ch y.desc.rows
    let reads := keys.flatMap fun k => (List.range y.desc.cols).flatMap fun ow =>
      sampleReads a o.xIstr k.1 k.2.1 (w.taps k.2.2 ow)
    let imgs := (List.range o.batch).map fun b => (siteAt s c e reads).planes32 a o.xIstr b o.ch
    let rows := keys.map fun k => (k, (List.range y.desc.cols).map fun ow =>
      poolVal o.mode ((w.taps k.2.2 ow).map fun t => sampleAt (imgs.getD k.1 []) k.2.1 t.1 t.2))
    let out := planeStores y e.brick o.yIstr o.cvt 0 rows (e.rnd0 c)
    ReadsHere (siteOf s c e) reads → StoresHere s c e out.1 →
    exec (.pool2d c o) s = .next (storesDone s c e reads out.2 out.1 [o.x, o.y])) ∧
  (∀ s c e o a y, Runs s c e (fitsCmd c && fitsResamp o) (engineOf c.loc.stream == 2) [] →
    (siteOf s c e).opnd o.x = some a → (siteOf s c e).opnd o.y = some y →
    (siteOf s c e).check (resampNeeds o) [] false [o.cvt] (resampOwn o a y) = none →
    let keys := planeKeys o.batch o.ch y.desc.rows
    let taps := (List.range y.desc.rows).map fun r => rowTaps o r y.desc.cols
    let reads := keys.flatMap fun k => (taps.getD k.2.2 []).flatMap fun ts =>
      sampleReads a o.xIstr k.1 k.2.1 (ts.map (·.1))
    let imgs := (List.range o.batch).map fun b => (siteAt s c e reads).planes32 a o.xIstr b o.ch
    let rows := keys.map fun k => (k, (taps.getD k.2.2 []).map fun ts =>
      pixelVal o.kernel (ts.map fun t => (sampleAt (imgs.getD k.1 []) k.2.1 t.1.1 t.1.2, t.2)))
    let out := planeStores y e.brick o.yIstr o.cvt 0 rows (e.rnd0 c)
    ReadsHere (siteOf s c e) reads → StoresHere s c e out.1 →
    exec (.resample c o) s = .next (storesDone s c e reads out.2 out.1 [o.x, o.y]))

/-- With checks passed and operands on this chip, the three row commands read their rows, store the values of their
functions and their statistics, and complete. (R184, R292, R294, R296) -/
def Obligations.VectorRowCommandsComplete : Prop :=
  (∀ s c e o a y, Runs s c e (fitsCmd c && fitsAct o) (engineOf c.loc.stream == 1) [] →
    (siteOf s c e).opnd o.x = some a → (siteOf s c e).opnd o.y = some y →
    (siteOf s c e).check [Need.tile o.x o.batch, Need.tile o.y o.batch] [(0x1013, (e.after c).c.scaleBad o.scale)] false
      [o.cvt] (actOwn (siteOf s c e) o a y) = none →
    let sc := (siteOf s c e).scale o.scale
    let reads := (siteOf s c e).scaleReads o.scale ++ a.allReads o.batch
    let rows := (List.range o.batch).map fun b => ((siteAt s c e reads).rows32 a b).map fun row => row.map (actVal o.act sc)
    let out := memberStores y e.brick o.cvt 0 0 rows (e.rnd0 c)
    ReadsHere (siteOf s c e) reads → StoresHere s c e out.1 →
    exec (.act c o) s = .next (storesDone s c e reads out.2 out.1 [o.x, o.y])) ∧
  (∀ s c e o a y, Runs s c e (fitsCmd c && fitsNorm o) (engineOf c.loc.stream == 1) [] →
    (siteOf s c e).opnd o.x = some a → (siteOf s c e).opnd o.y = some y →
    let g := o.gamma.bind (siteOf s c e).opnd
    let b := o.beta.bind (siteOf s c e).opnd
    let st := o.statT.bind (siteOf s c e).opnd
    (siteOf s c e).check (normNeeds o) [] false [o.cvt] (normOwn (siteOf s c e) o a y g b st) = none →
    let reads := a.allReads 1 ++ (g.toList ++ b.toList).flatMap fun t => t.allReads 1
    let rows := ((siteAt s c e reads).rows32 a 0).map (normRow o.mode o.eps)
    let vals := rows.map fun r => normAffine (g.map fun t => (siteAt s c e reads).row t 0 0)
      (b.map fun t => (siteAt s c e reads).row t 0 0) r.2.2
    let out := memberStores y e.brick o.cvt 0 0 [vals] (e.rnd0 c)
    let ss := out.1 ++ pairStores st e.brick 0 (rows.map fun r => (r.1, r.2.1))
    ReadsHere (siteOf s c e) reads → StoresHere s c e ss →
    exec (.normRow c o) s = .next (storesDone s c e reads out.2 ss ((normNeeds o).map (·.reg)))) ∧
  (∀ s c e o a y, Runs s c e (fitsCmd c && fitsSoft o) (engineOf c.loc.stream == 1) [] →
    (siteOf s c e).opnd o.x = some a → (siteOf s c e).opnd o.y = some y →
    let x := siteOf s c e
    let st := o.statT.bind x.opnd
    let k := (x.opt (o.maskMode == 1) (some o.maskT)).map fun t => ({ o := t, rows := a.desc.rows, keys := a.desc.cols } : Mask)
    x.check (softNeeds o) ((0x1013, (e.after c).c.scaleBad o.c) :: x.maskShape k 1) false [o.cvt] (softOwn x o a y k st) = none →
    let reads := x.scaleReads o.c ++ a.allReads 1 ++ (match k with | some k => k.reads 0 | none => [])
    let x1 := siteAt s c e reads
    let mask := match k with | some k => (x1.memFor k.o).read (k.at 0) (maskBytes k.rows k.keys) | none => []
    let rows := x1.rows32 a 0
    let zs := (rows.zip (List.range rows.length)).map fun p => maskRow k mask (x.scale o.c) p.2 p.1
    let sts := zs.map softRow
    let out := memberStores y e.brick o.cvt 0 0 [List.zipWith softOut sts zs] (e.rnd0 c)
    let ss := out.1 ++ pairStores st e.brick 0 (sts.map fun t => (t.m, t.l))
    ReadsHere x reads → StoresHere s c e ss →
    exec (.softmaxRow c o) s = .next (((((s.fetched c e reads).modCtx e.key (Ctx.withRnd out.2)).addVoids e.l.owner
      (sts.filter fun t => t.l == 0).length).commit e.c.part ss).finish (e.after c) c 6 ((softNeeds o).map (·.reg)) c.last))

/-- With checks passed and operands on this chip, the five scale commands, RNG_FILL and NONFINITE_VOTE store, push or
vote what their rules say, and complete. (R184, R348, R502, R506, R508) -/
def Obligations.ScaleAndRngCommandsComplete : Prop :=
  (∀ s c e o a r, Runs s c e (fitsCmd c && fitsScaleF o) (engineOf c.loc.stream == 1) [] → o.mode ≤ 4 →
    (siteOf s c e).opnd o.x = some a → (siteOf s c e).opnd o.r = some r →
    (siteOf s c e).check [Need.tile o.x o.batch, Need.tile o.r 1] [] false []
      ((siteOf s c e).farOwn [a, r] ++ [(0x1160, scalarBad (some r) 1 || o.batch == 0)]) = none →
    let reads := a.allReads o.batch ++ (if o.acc = 1 then r.allReads 1 else [])
    let x := siteAt s c e reads
    let peak := amaxOf (x.elements a o.batch)
    let sum := sumsqOf (x.elements a o.batch)
    let st (v : Nat) : List Store := [r.storeRow e.brick 0 0 0 [v]]
    ReadsHere (siteOf s c e) reads →
    (StoresHere s c e (st (if o.acc = 1 then fmax (x.word r 0) peak else peak)) →
      exec (.amax c o) s = .next (((s.fetched c e reads).commit e.c.part
        (st (if o.acc = 1 then fmax (x.word r 0) peak else peak))).finish (e.after c) c 6 [o.x, o.r] c.last)) ∧
    (StoresHere s c e (st (if o.acc = 1 then fadd (x.word r 0) sum else sum)) →
      exec (.sumsq c o) s = .next (((s.fetched c e reads).commit e.c.part
        (st (if o.acc = 1 then fadd (x.word r 0) sum else sum))).finish (e.after c) c 6 [o.x, o.r] c.last))) ∧
  (∀ s c e o a t, Runs s c e (fitsCmd c && fitsScaleF o) (engineOf c.loc.stream == 1) [] → o.mode ≤ 4 →
    (siteOf s c e).opnd o.src = some a → (siteOf s c e).opnd o.recT = some t →
    let out := o.out.bind (siteOf s c e).opnd
    (siteOf s c e).check (pushNeeds o) [] false []
      ((siteOf s c e).farOwn ([a, t] ++ out.toList) ++ [(0x1160, scalarBad (some a) 1 || scalarBad out 2 || recBad t)]) = none →
    let reads := t.allReads 1 ++ a.allReads 1
    let x := siteAt s c e reads
    let b := (x.memFor t).read t.base t.desc.rowBytes
    let p := (parseScale b).push ((x.row t 0 0).drop 16) (fabs (widen 0 (x.word a 0)))
    let ss := pushStores t out e.brick p.1 p.2
    ReadsHere (siteOf s c e) reads → (parseScale b).ok b t.desc.cols = true → StoresHere s c e ss →
    exec (.push c o) s = .next (((s.fetched c e reads).commit e.c.part ss).finish (e.after c) c 6
      ((pushNeeds o).map (·.reg)) c.last)) ∧
  (∀ s c e o a r, Runs s c e (fitsCmd c && fitsScaleF o) (engineOf c.loc.stream == 1) [] → o.mode ≤ 4 →
    (siteOf s c e).opnd o.src = some a → (siteOf s c e).opnd o.r = some r →
    (siteOf s c e).check [Need.tile o.src 1, Need.tile o.r 1] [] false []
      ((siteOf s c e).farOwn [a, r] ++ [(0x1160, scalarBad (some a) 1 || scalarBad (some r) 1), (0x1163, ! ratioOk o.maxnorm)])
        = none →
    let reads := a.allReads 1
    let ss := [r.storeRow e.brick 0 0 0 [clipOf o.maxnorm ((siteAt s c e reads).word a 0)]]
    ReadsHere (siteOf s c e) reads → StoresHere s c e ss →
    exec (.clip c o) s = .next (((s.fetched c e reads).commit e.c.part ss).finish (e.after c) c 6 [o.src, o.r] c.last)) ∧
  (∀ s c e o a b r, Runs s c e (fitsCmd c && fitsScaleF o) (engineOf c.loc.stream == 1) [] → o.mode ≤ 4 →
    (siteOf s c e).opnd o.src = some a → (siteOf s c e).opnd o.src2 = some b → (siteOf s c e).opnd o.r = some r →
    (siteOf s c e).check [Need.tile o.src 1, Need.tile o.src2 1, Need.tile o.r 1] [] false []
      ((siteOf s c e).farOwn [a, b, r] ++ [(0x1160, [a, b, r].any fun t => scalarBad (some t) 1)]) = none →
    let reads := a.allReads 1 ++ b.allReads 1
    let x := siteAt s c e reads
    let ss := [r.storeRow e.brick 0 0 0 [fmul (x.word a 0) (x.word b 0)]]
    ReadsHere (siteOf s c e) reads → StoresHere s c e ss →
    exec (.product c o) s = .next (((s.fetched c e reads).commit e.c.part ss).finish (e.after c) c 6
      [o.src, o.src2, o.r] c.last)) ∧
  (∀ s c e o y, Runs s c e (fitsCmd c && fitsRng o) (engineOf c.loc.stream == 1) [] →
    (siteOf s c e).opnd o.y = some y →
    (siteOf s c e).check [Need.tile o.y o.batch] [] (o.dist == 0 && y.desc.fmt != 0) [o.cvt] (rngOwn (siteOf s c e) o y)
      = none →
    let out := rngStores y e.brick o (((e.after c).c.rngSrc o.seed).getD 0) (((e.after c).c.rngSrc o.tid).getD 0) 0
      (rngKeys y o (rngBase (e.after c).c e.stream o)) (e.rnd0 c)
    StoresHere s c e out.1 →
    exec (.rngFill c o) s = .next ((((s.issued e c).modCtx e.key (Ctx.withRnd out.2)).commit e.c.part out.1).finish
      (e.after c) c 6 [o.y] c.last)) ∧
  (∀ s c e o a, Runs s c e (fitsCmd c && fitsVote o) (engineOf c.loc.stream == 1) [] →
    (siteOf s c e).opnd o.x = some a →
    (siteOf s c e).check [Need.tile o.x o.batch] [] false [] ((siteOf s c e).farOwn [a]) = none →
    let reads := a.allReads o.batch
    let bad := ((siteAt s c e reads).elements a o.batch).any fun v => ! isFinite32 v
    ReadsHere (siteOf s c e) reads →
    exec (.nonfiniteVote c o) s = .next (((s.fetched c e reads).modCtx e.key (Ctx.setPred o.pred
      (((e.after c).c.preds.getD o.pred false && o.acc == 1) || bad))).finish (e.after c) c 6 [o.x] c.last))

/-- With checks passed, no member failing, no output stream and no remote destination, the members run in order and
every block's stores become visible before C7. (R184, R229, R240, R245, R247) -/
def Obligations.MatrixCommandsComplete : Prop :=
  (∀ s c e o kind i a b ct,
    (kind = 0 ∧ i = Instr.matmul c o ∧ Runs s c e (fitsCmd c && fitsMat o) (engineOf c.loc.stream == 0) []) ∨
    (kind = 1 ∧ i = Instr.matmulAcc c o ∧ Runs s c e (fitsCmd c && fitsMat o) (engineOf c.loc.stream == 0) []) ∨
    (kind = 2 ∧ i = Instr.matmulGated c o ∧
      Runs s c e (fitsCmd c && fitsMat o && o.epi.gateT.isSome) (engineOf c.loc.stream == 0) []) →
    let x := siteOf s c e
    let f := o.epi
    let bias := x.opt (kind == 0) f.bias
    let g := x.opt (kind == 2) f.gateT
    let r := x.opt (epiRedOn f) (some f.redT)
    let d := x.opt true f.d
    let t := x.opt (kind == 0 && f.reuse == 1) (some f.reuseT)
    x.opnd o.a = some a → x.opnd o.b = some b → x.opnd o.c = some ct →
    x.check (matNeeds kind o)
      [(0x1013, (e.after c).c.scaleBad f.proScale || (e.after c).c.scaleBad f.epiScale),
       (0x1014, ct.desc.rows % 32 != 0 || ct.desc.cols % 32 != 0 || decide (Config.maxMN < ct.desc.rows) ||
         decide (Config.maxMN < ct.desc.cols)), (0x1015, a.desc.cols % 32 != 0)]
      ((decide (f.proFmt ≤ 4) || f.proFmt == 0xFF) &&
        ! pairOk (if f.proFmt = 0xFF then a.desc.fmt else f.proFmt) b.desc.fmt)
      (epiCvts f) (matOwn x kind o a b ct bias g r d t) = none →
    let j := matJob i c kind o (s.issued e c) (e.after c) a b ct bias g r d t
    let run := (List.range o.batch).foldl (j.member (e.after c) (x.scale f.proScale) (x.scale f.epiScale))
      { s := s.issued e c, rnd := e.rnd0 c, sums := [], red := [], outs := [], fail := none }
    x.readsFault (x.scaleReads f.proScale ++ x.scaleReads f.epiScale) = none →
    run.fail = none → (∀ w ∈ run.outs, w.cx = none ∧ w.stores.filter Store.isFar = []) →
    (∀ q, d = some q → q.chip = 0) → (s.issued e c).remoteAt c.loc = none →
    let s1 := (s.issued e c).modCtx e.key (Ctx.withRnd run.rnd)
    let s2 := if j.reuseBytes run.outs = 0 then s1 else s1.charge e.c.part (j.reuseBytes run.outs)
    exec i s = .next ((run.outs.reverse.foldl (fun s w => s.blockDone (e.after c) c i w) s2).finish (e.after c) c 6
      (matRegs kind o) c.last)) ∧
  (∀ s c e o a f y, Runs s c e (fitsCmd c && fitsConv o) (engineOf c.loc.stream == 0) [] →
    let x := siteOf s c e
    let p := o.epi
    let bias := x.opt (o.acc == 0) p.bias
    let r := x.opt (epiRedOn p) (some p.redT)
    let d := x.opt true p.d
    let m := y.desc.rows * y.desc.cols
    let n := f.desc.rows
    x.opnd o.x = some a → x.opnd o.f = some f → x.opnd o.y = some y →
    x.check (convNeeds x o)
      [(0x1013, (e.after c).c.scaleBad p.proScale || (e.after c).c.scaleBad p.epiScale),
       (0x1014, m % 32 != 0 || n % 32 != 0 || decide (Config.maxMN < m) || decide (Config.maxMN < n)),
       (0x1015, (o.fh * o.fw * o.cin) % 32 != 0), (0x1019, (convWin o).tooBig)]
      ((decide (p.proFmt ≤ 4) || p.proFmt == 0xFF) &&
        ! pairOk (if p.proFmt = 0xFF then a.desc.fmt else p.proFmt) f.desc.fmt)
      (epiCvts p) (convOwn x o a f y bias r d) = none →
    let j := convJob c o a f y bias r d
    let run := (List.range o.batch).foldl (j.member (e.after c) (x.scale p.proScale) (x.scale p.epiScale))
      { s := s.issued e c, rnd := e.rnd0 c, sums := [], red := [], outs := [], fail := none }
    x.readsFault (x.scaleReads p.proScale ++ x.scaleReads p.epiScale) = none →
    run.fail = none → (∀ w ∈ run.outs, w.cx = none ∧ w.stores.filter Store.isFar = []) →
    (∀ q, d = some q → q.chip = 0) → (s.issued e c).remoteAt c.loc = none →
    exec (.conv2d c o) s = .next ((run.outs.reverse.foldl (fun s w => s.blockDone (e.after c) c (.conv2d c o) w)
      ((s.issued e c).modCtx e.key (Ctx.withRnd run.rnd))).finish (e.after c) c 6 (convRegs o) c.last))

/-- With checks passed, ATTN_BLOCK stores O, its statistics and, when FINAL, Y; on a splice table it pins the pages it
reads and releases them before C7. (R184, R297, R310, R312) -/
def Obligations.AttentionCompletes : Prop :=
  (∀ s c e o p, Runs s c e (fitsCmd c && fitsAttn o) (engineOf c.loc.stream == 0) [] → o.kvSrc = 0 →
    let x := siteOf s c e
    x.attnOps o = some p →
    x.check (attnNeeds x o) ((0x1013, (e.after c).c.scaleBad o.c) :: x.maskShape p.mask o.batch)
      (! pairOk p.q.desc.fmt (p.kFmt none)) (if o.final = 1 then [o.yCvt] else []) (attnOwn x o p none) = none →
    let reads := x.scaleReads o.c ++ (List.range o.batch).flatMap (p.memberReads x o none [])
    let ms := (List.range o.batch).map (p.member x o none [] (x.scale o.c))
    let out := match p.y with
      | some y => memberStores y e.brick o.yCvt 0 0 (ms.map (List.map attnY)) (e.rnd0 c)
      | none => ([], e.rnd0 c)
    let ss := ((ms.zip (List.range ms.length)).flatMap fun m =>
      p.o.storeRows e.brick m.2 (m.1.map (·.2)) ++ pairStores p.st e.brick m.2 (m.1.map fun r => (r.1.m, r.1.l))) ++ out.1
    let voids := if o.final = 1 then (ms.flatten.filter fun r => r.1.l == 0).length else 0
    (∀ k, p.mask = some k → k.o.chip = 0) → (∀ k, p.mask = some k → ∀ b ∈ List.range o.batch, farReads (k.reads b) = []) →
    x.readsFault reads = none → StoresHere s c e ss →
    exec (.attnBlock c o) s = .next ((((((s.issued e c).modCtx e.key (Ctx.withRnd out.2)).addVoids e.l.owner voids).chargeReads
      e.c.part reads).commit e.c.part ss).finish (e.after c) c 6 (attnRegs o) c.last)) ∧
  (∀ s c e o p h d ps, Runs s c e (fitsCmd c && fitsAttn o) (engineOf c.loc.stream == 0) [] → o.kvSrc = 1 → o.maskMode = 0 →
    let x := siteOf s c e
    x.attnOps o = some p → p.mask = none → x.hdr true o.splT = some h →
    x.check (attnNeeds x o) ((0x1013, (e.after c).c.scaleBad o.c) :: x.maskShape p.mask o.batch)
      (x.hdrOk h && ! pairOk p.q.desc.fmt (p.kFmt (some h))) (if o.final = 1 then [o.yCvt] else [])
      (attnOwn x o p (some h)) = none →
    let seq := (e.after c).c.seqVal o.seqSrc o.seq
    let slots := slotsOf o.firstToken o.tokens
    x.splFault h seq slots = none →
    let par := ((s.issued e c).dev.enterPin h).2
    Dev.pinSlots h seq slots.length (o.firstToken / 256) [] ((s.issued e c).dev.enterPin h).1 = .done d ps →
    let s1 := (s.issued e c).withDev (d.leavePin h par)
    let y := (e.after c).site s1
    let reads := y.scaleReads o.c ++ (List.range o.batch).flatMap (p.memberReads y o (some h) ps)
    let ms := (List.range o.batch).map (p.member y o (some h) ps (y.scale o.c))
    let out := match p.y with
      | some t => memberStores t e.brick o.yCvt 0 0 (ms.map (List.map attnY)) (e.rnd0 c)
      | none => ([], e.rnd0 c)
    let ss := ((ms.zip (List.range ms.length)).flatMap fun m =>
      p.o.storeRows e.brick m.2 (m.1.map (·.2)) ++ pairStores p.st e.brick m.2 (m.1.map fun r => (r.1.m, r.1.l))) ++ out.1
    let voids := if o.final = 1 then (ms.flatten.filter fun r => r.1.l == 0).length else 0
    y.readsFault reads = none → StoresHere s c e ss →
    exec (.attnBlock c o) s = .next ((((((s1.modCtx e.key (Ctx.withRnd out.2)).addVoids e.l.owner voids).chargeReads
      e.c.part reads).commit e.c.part ss).unpinAll h.at_ ps).finish (e.after c) c 6 (attnRegs o) c.last))

/-- With checks passed and no page locked, the four page commands pin, move, fork or free as the splice rules say and
complete; PIN_RESUME and FORK_RESUME go on from the slot that waited. (R184, R310, R312, R315, R316) -/
def Obligations.PageCommandsComplete : Prop :=
  (∀ s c e o h d ps, Runs s c e (fitsCmd c && fitsPages o) (engineOf c.loc.stream == 3) [] →
    let x := siteOf s c e
    x.hdr true o.splT = some h → x.check (pagesNeeds o true) [] false [] (rowsOwn x o h false) = none →
    let seq := (e.after c).c.seqVal o.seqSrc o.seq
    let slots := slotsOf o.firstToken o.tokens
    x.splFault h seq slots = none →
    let par := ((s.issued e c).dev.enterPin h).2
    Dev.pinSlots h seq slots.length (o.firstToken / 256) [] ((s.issued e c).dev.enterPin h).1 = .done d ps →
    let s1 := (s.issued e c).withDev (d.leavePin h par)
    let y := (e.after c).site s1
    let ms := gatherMoves o h (rowTiles y o).1 (rowTiles y o).2 ps
    let reads := ms.map fun m => (2, m.1, m.2.1)
    let ss := ms.map fun m =>
      ({ mem := m.2.2.1.desc.mem, brick := e.brick, addr := m.2.2.1.rowAt m.2.2.2.1 m.2.2.2.2
         bytes := s1.mem.read m.1 m.2.1 } : Store)
    y.readsFault reads = none → StoresHere s c e ss →
    exec (.gatherPages c o) s = .next ((((s1.chargeReads e.c.part reads).commit e.c.part ss).unpinAll h.at_ ps).finish
      (e.after c) c 6 (pagesRegs o true) c.last)) ∧
  (∀ s c e o h t, Runs s c e (fitsCmd c && fitsPages o) (engineOf c.loc.stream == 3) [] → o.form ≠ 3 →
    let x := siteOf s c e
    x.hdr true o.splT = some h → x.check (pagesNeeds o true) [] false [] (rowsOwn x o h true) = none →
    let tiles := rowTiles x o
    let reads := (tiles.1.toList ++ tiles.2.toList).flatMap fun t => t.allReads o.heads
    let seq := (e.after c).c.seqVal o.seqSrc o.seq
    let slots := slotsOf o.firstToken o.tokens
    ReadsHere x reads → (siteAt s c e reads).splFault h seq slots = none →
    writeSlots (siteAt s c e reads) (e.after c) o h tiles.1 tiles.2 seq slots (s.fetched c e reads) = .done t →
    exec (.scatterWrite c o) s = .next (t.finish (e.after c) c 6 (pagesRegs o true) c.last)) ∧
  (∀ s c e o h d ps, Runs s c e (fitsCmd c && fitsPages o) (engineOf c.loc.stream == 3) [] → o.form ≠ 3 →
    let x := siteOf s c e
    let seq := (e.after c).c.seqVal o.seqSrc o.seq
    let src := (e.after c).c.seqVal o.srcSeqSrc o.srcSeq
    x.hdr true o.splT = some h → x.splFault h seq (List.range' o.firstSlot o.slots) = none →
    (x.check (pagesNeeds o false) [] false [] (slotsOwn x o h true) = none →
      Dev.forkSlots h src seq o.slots o.firstSlot (s.issued e c).dev = .done d ps →
      exec (.scatterFork c o) s = .next (((s.issued e c).withDev d).finish (e.after c) c 6 (pagesRegs o false) c.last)) ∧
    (x.check (pagesNeeds o false) [] false [] (slotsOwn x o h false) = none →
      Dev.freeSlots h seq (List.range' o.firstSlot o.slots) (s.issued e c).dev = .done d ps →
      exec (.scatterFree c o) s = .next (((s.issued e c).withDev d).finish (e.after c) c 6 (pagesRegs o false) c.last))) ∧
  (∀ s l e c regs o tiles spl par k ps d ps', s.awake = true → s.env l = some e →
    (e.c.stream l.stream).busy = .exec c regs (.pinGather o tiles spl par k ps) →
    let h := s.dev.header spl
    let e1 := { e with c := { e.c with tiles := tiles } }
    Dev.pinSlots h (e.c.seqVal o.seqSrc o.seq) (slotsLeft o.firstToken o.tokens k) k ps s.dev = .done d ps' →
    let s1 := s.withDev (d.leavePin h par)
    exec (.pinResume l) s = .next ((gatherRun c o s1 e1 h ps').settle e c regs c.last)) ∧
  (∀ s l e c regs o spl k d ps, s.awake = true → s.env l = some e →
    (e.c.stream l.stream).busy = .exec c regs (.fork o spl k) →
    Dev.forkSlots (s.dev.header spl) (e.c.seqVal o.srcSeqSrc o.srcSeq) (e.c.seqVal o.seqSrc o.seq)
      (o.firstSlot + o.slots - k) k s.dev = .done d ps →
    exec (.forkResume l) s = .next ((s.withDev d).finish e c 6 regs c.last))

/-- A running collective whose checks pass and whose chips are all reachable joins its instance under its key, sends
its handshake to every other chip of its group, is held on its stream, and the instance goes on as far as it can.
(R488, R489, R493) -/
def Obligations.CollectivesJoinTheirInstance : Prop :=
  ∀ s c e o k i,
    (k = CollKind.allReduce ∧ i = Instr.allReduce c o) ∨ (k = CollKind.reduceScatter ∧ i = Instr.reduceScatter c o) ∨
    (k = CollKind.vetoOr ∧ i = Instr.vetoOr c o) ∨ (k = CollKind.allGather ∧ i = Instr.allGather c o) ∨
    (k = CollKind.broadcast ∧ i = Instr.broadcast c o) →
    Runs s c e (fitsCmd c && fitsColl o) (engineOf c.loc.stream == 4) [] →
    let s1 := s.issued e c
    let e1 := e.after c
    let a := (siteOf s c e).opt k.hasTiles (some o.x)
    let y := (siteOf s c e).opt k.hasTiles (some o.y)
    (siteOf s c e).check (collNeeds k o) [] false (if k.hasTiles then [o.cvt] else []) (collOwn s1 e1 k o a y) = none →
    let g := s1.groupOf e1 o
    let key := collKey e1 o g
    let others := g.chips.filter (· != s1.haw.chip)
    (∀ ch ∈ others, s1.reachable ch = true) →
    let shake := collShake e1 k o g a y
    let joined := s1.collJoin key g.chips g.rankwise
      { chip := s1.haw.chip, rank := e.c.rank, shake := shake, pred := some (e.c.preds.getD o.predIn false)
        cmd := some (c, o), src := a, dst := y, given := false }
    let told := others.foldl (fun s ch =>
      s.sendCtrl ch 0 fCollCtrl (s.job e.c.part) (ctrlOp 0 key e.c.rank) shake.bytes) joined
    let held := told.modCtx e.key fun x => x.modStream e.stream fun t =>
      { t with busy := .exec c (if k.hasTiles then [o.x, o.y] else [])
                 (.coll (if k.hasTiles && o.src == 1 then o.blocks else 0) []) }
    exec i s = .next (held.collGo c.loc)

/-- A held block goes to its CX stream when there is room; a collective without progress for its limit faults 0x3024
on every participant; a list none of whose streams can go on faults 0x1022. (R200, R261, R490, R495) -/
def Obligations.StreamsAndStuckLists : Prop :=
  (∀ s l, s.awake = true → engineOf l.stream = 4 → exec (.epilogueStreamHandoff l) s = .next (s.collGo l)) ∧
  (∀ s l e c regs q b k x, s.awake = true → engineOf l.stream ≠ 4 → s.env l = some e →
    (e.c.stream l.stream).busy = .exec c regs (.e8 q [b] none) → e.c.cxRoom q = true → b.cx = some k → b.stores = [] →
    let s1 := s.blockDone e c (.epilogueStreamHandoff l) b
    s1.ctx e.key = some x → x.cxRoom q = true → s1.remoteAt c.loc = none →
    exec (.epilogueStreamHandoff l) s = .next ((s1.modCtx e.key (Ctx.pushCx q k)).finish e c 6 regs c.last)) ∧
  (∀ s l e c regs q bs f, s.env l = some e → (e.c.stream l.stream).busy = .exec c regs (.e8 q bs f) →
    engineOf l.stream ≠ 4 → e.c.cxRoom q = false → exec (.epilogueStreamHandoff l) s = .next s) ∧
  (∀ s l c, s.collAt l = some c → s.awake = true → c.progress + s.collLimit ≤ s.now →
    exec (.collTimeout l) s = .next (s.collFault c 0x3024)) ∧
  (∀ s l c, s.collAt l = some c → s.now < c.progress + s.collLimit → exec (.collTimeout l) s = .next s) ∧
  (∀ s f n l, s.list? (ownerOf f n) = some l → s.awake = true →
    (∀ k ∈ l.keys, ∀ x, s.ctx k = some x → ∀ t ∈ x.streams, t.stuck s.now l.lastActive = true) →
    (∃ k ∈ l.keys, ∃ x, s.ctx k = some x ∧ ∃ t ∈ x.streams, t.ended = false) →
    exec (.contextDeadlock f n) s =
      .next (s.faultList l.owner (ErrRec.mk0 s.now 0x1022 2 (l.bricks.headD 0) noUnit l.part)))

/-! ### Host rings -/

/-- The list in flight starts once every brick has its context free and the tile budget holds; a plan that fails ends
it with its code; without room it waits. (R163, R166, R168) -/
def Obligations.ListsStart : Prop :=
  (∀ s f n d p m, (s.sq f n).cur = some { desc := d, out := none, missed := m } → d.type = 1 → s.ringsOn f = true →
    s.list? (ownerOf f n) = none → s.ctxFree d.bricks (d.f 0x1E 1) = true → s.plan f d = .ok p →
    s.roomFor d.bricks p.res = true → exec (.listStart f n) s = .next (s.wakeUp.startList f n d p)) ∧
  (∀ s f n d code m, (s.sq f n).cur = some { desc := d, out := none, missed := m } → d.type = 1 → s.ringsOn f = true →
    s.list? (ownerOf f n) = none → s.ctxFree d.bricks (d.f 0x1E 1) = true → s.plan f d = .error code →
    exec (.listStart f n) s = .next (s.startFault f n d code)) ∧
  (∀ s f n d p m, (s.sq f n).cur = some { desc := d, out := none, missed := m } → d.type = 1 → s.plan f d = .ok p →
    s.roomFor d.bricks p.res = false → exec (.listStart f n) s = .next s)

/-- A descriptor at its ring's head that nothing forbids is admitted; NOP and TIMESTAMP complete at once, RUN_LIST
waits for its list or is MALFORMED, WAIT_RING and WAIT_EPOCH complete when their condition holds. (R129, R131, R141,
R151, R456) -/
def Obligations.DescriptorsRun : Prop :=
  (∀ s f n d, StartsOn s f n d → d.type = 0 →
    exec (.nop f n) s = .next ((s.letRun f n d none).endDesc f n
      { status := 0, detail := 0, code := 0, result := 0, degraded := false, needRec := false, errIndex := none
        time := s.now })) ∧
  (∀ s f n d, StartsOn s f n d → d.type = 1 →
    exec (.runList f n) s = .next (if (s.letRun f n d none).maskBad f d then
      (s.letRun f n d none).endDesc f n { Ending.mk0 1 s.now with detail := 0x05 } else s.letRun f n d none)) ∧
  (∀ s f n d, StartsOn s f n d → d.type = 3 → (s.letRun f n d none).ringBad f n d = false →
    exec (.waitRing f n) s = .next (if (s.letRun f n d none).ringReached f d then
      (s.letRun f n d none).endDesc f n (Ending.mk0 0 s.now) else s.letRun f n d none)) ∧
  (∀ s f n d, StartsOn s f n d → d.type = 3 → (s.letRun f n d none).ringBad f n d = true →
    exec (.waitRing f n) s = .next ((s.letRun f n d none).endDesc f n { Ending.mk0 1 s.now with detail := 0x09 })) ∧
  (∀ s f n d, StartsOn s f n d → d.type = 4 → d.f 0x10 1 ≤ 7 → s.strOn (d.f 0x10 1) = true → s.strPart (d.f 0x10 1) = f →
    exec (.waitEpoch f n) s = .next (match s.epochOutcome d with
      | some c => (s.letRun f n d none).endWait f n d c
      | none => s.letRun f n d none)) ∧
  (∀ s f n d, StartsOn s f n d → d.type = 5 →
    exec (.timestamp f n) s = .next (((s.letRun f n d none).emit (.hostWrite f 0 d.hostAddr (leBytes 8 s.now))).endDesc f n
      { Ending.mk0 0 s.now with result := s.now % 2 ^ 64 }))

/-- A HOST_COPY stores LENGTH bytes at the device address and nothing else, or writes them to the host; an error
response or a timeout ends it with 0x3030 or 0x3031; a failed descriptor read puts the ring in ERROR with 0x3033.
(R128, R143, R156, R380) -/
def Obligations.HostCopiesMoveOrFail : Prop :=
  (∀ s f n d data, StartsOn s f n d → d.type = 2 → d.dir = 0 → d.length ≠ 0 → (d.port = 0 ∨ s.hio1Down = none) →
    s.accessFault f d.devAddr d.length = none →
    ∃ t, exec (.hostCopy f n data) s = .next t ∧
      t.mem = s.mem.put devGranule d.devAddr (sliceB data 0 d.length) ∧
      (∀ a, a < d.devAddr ∨ d.devAddr + d.length ≤ a → t.mem.rd a = s.mem.rd a) ∧
      (∀ i, i < d.length → t.mem.rd (d.devAddr + i) = data.getD i 0) ∧
      t = { s with pages := t.pages, outs := t.outs, mem := t.mem, mortar := t.mortar, free := t.free } ∧
      t.pages = ((s.letRun f n d none).okDesc f n d.length).pages) ∧
  (∀ s f n d data, StartsOn s f n d → d.type = 2 → d.dir = 1 → d.length ≠ 0 → (d.port = 0 ∨ s.hio1Down = none) →
    s.accessFault f d.devAddr d.length = none → s.mem.firstPoison d.devAddr d.length = none →
    ∃ t, exec (.hostCopy f n data) s = .next t ∧
      t = { s with pages := t.pages, outs := t.outs, mortar := t.mortar, free := t.free } ∧
      t.pages = ((s.letRun f n d none).okDesc f n d.length).pages ∧
      (d.port = 0 → t.outs = .hostWrite f 0 d.hostAddr (s.mem.read d.devAddr d.length) :: s.outs)) ∧
  (∀ s f n d data code, StartsOn s f n d → d.type = 2 → d.port ≠ 0 → s.hio1Down = some code →
    exec (.hostCopy f n data) s = .next ((s.letRun f n d none).faultDesc f n
      ((s.letRun f n d none).hostRec f code 1 d.hostAddr 0) 0)) ∧
  (∀ s f n d count data abort, StartsOn s f n d → d.type = 2 →
    exec (.pcieErrorResponse f n (.copy count data) abort) s =
      .next ((s.letRun f n d none).failCopy f n d count data 0x3030 (if abort then 4 else 1)) ∧
    exec (.pcieCompletionTimeout f n (.copy count data)) s =
      .next ((s.letRun f n d none).failCopy f n d count data 0x3031 0)) ∧
  (∀ s f n abort, s.ringsOn f = true → (s.sq f n).state = .enabled → (s.sq f n).disabling = false →
    (s.sq f n).ahead (s.sq f n).producer ≠ 0 →
    let q := s.sq f n
    exec (.pcieErrorResponse f n .descriptor abort) s =
      .next (s.ringError f n 0x3033 0x24 (q.base + 64 * (q.fetched % 2 ^ q.log2)) (if abort then 4 else 1)) ∧
    exec (.pcieCompletionTimeout f n .descriptor) s =
      .next (s.ringError f n 0x3033 0x24 (q.base + 64 * (q.fetched % 2 ^ q.log2)) 0)) ∧
  (∀ (s : State) f n, f < s.pages.length → ∀ code die addr status,
    ((s.ringError f n code die addr status).sq f n).state = .error ∧
    ((s.ringError f n code die addr status).sq f n).queue = (s.sq f n).queue.map Desc.stop)

/-- A due sweep takes every producer and consumer index and puts a ring whose producer is too far ahead in ERROR; a
fetch takes the next descriptor, parses its fields and judges it. (R119, R121, R127, R128, R132, R135) -/
def Obligations.SweepsAndFetches : Prop :=
  (∀ s f b, s.ringsOn f = true → (s.page f).anyRing = true → f < 16 → f < s.pages.length →
    (s.page f).sweepAt + (s.page f).sweepInterval ≤ s.now →
    ∃ t, exec (.doorbellSweep f b) s = .next t ∧
      (∀ n, n < 32 → (t.sq f n).producer = dbProducer b n ∧ ((t.page f).cq n).consumer = dbConsumer b n) ∧
      (t.page f).errConsumer = dbError b ∧ (t.page f).sweepAt = s.now ∧
      (t.page f).sweepInterval = (s.page f).nextInterval s.idleInterval s.now ((s.page f).changed b) ∧
      (∀ n, n < 32 → (s.sq f n).state = .enabled → (s.sq f n).disabling = false →
        2 ^ (s.sq f n).log2 < (s.sq f n).ahead (dbProducer b n) → (t.sq f n).state = .error) ∧
      t.mem = s.mem ∧ t.bricks = s.bricks ∧ t.parts = s.parts ∧ t.regs = s.regs) ∧
  (∀ s f n b, s.ringsOn f = true → (s.sq f n).state = .enabled → (s.sq f n).disabling = false →
    (s.sq f n).ahead (s.sq f n).producer ≠ 0 → f < s.pages.length →
    ∃ t d, exec (.descriptorFetch f n b) s = .next t ∧ (t.sq f n).fetched = ((s.sq f n).fetched + 1) % 2 ^ 32 ∧
      (t.sq f n).queue = (s.sq f n).queue ++ [d] ∧ d.index = (s.sq f n).fetched ∧ d.type = fieldLE b 0 1 ∧
      d.flags = fieldLE b 1 1 ∧ d.tag = fieldLE b 2 2 ∧ d.dlnMode = fieldLE b 4 1 ∧ d.chain = fieldLE b 6 2 ∧
      d.deadline = fieldLE b 8 8 ∧ d.body = sliceB b 0x10 48 ∧ d.fetchTime = s.now ∧
      d.malformed = s.wakeUp.malformed f n b (parseDesc (s.sq f n).fetched s.now b) ∧
      t = { s with wdn := t.wdn, bricks := t.bricks, chains := t.chains, slots := t.slots, pages := t.pages }) ∧
  (∀ s f n b, (s.sq f n).state ≠ .enabled ∨ (s.sq f n).ahead (s.sq f n).producer = 0 →
    exec (.descriptorFetch f n b) s = .next s)

/-- A settled descriptor whose completion ring has room gets its completion with its phase and flags and leaves the
ring; an aged completion raises its vector; an unmasked pending vector sends one message. (R129, R140, R149, R150) -/
def Obligations.CompletionsAreWritten : Prop :=
  (∀ s f n d e m, s.ringsOn f = true → (s.sq f n).cur = some { desc := d, out := some e, missed := m } →
    s.canWrite f n d e = true → lateFirst s.now (s.slots.filter fun x => x.2.endsWith f n d) = none →
    exec (.completionWrite f n) s = .next ((if d.noCompletion = true ∧ e.status = 0 then s else s.putCompletion f n d e m).retireDesc f n d e)) ∧
  (∀ s f n d e m, (s.sq f n).cur = some { desc := d, out := some e, missed := m } → s.canWrite f n d e = false →
    exec (.completionWrite f n) s = .next s) ∧
  (∀ (s : State) f n d e m, let k := (s.sq f n).cqIndex
    let c := (s.page f).cq k
    Out.completion f k c.produced d.tag n
      (phaseBit c.produced c.log2 + 2 * b2n e.errIndex.isSome + 4 * b2n m + 8 * b2n e.degraded) e.status e.detail e.code
      (s.sq f n).fetched (e.errIndex.getD 0) (s.now % 2 ^ 64) (e.result % 2 ^ 64) ∈ (s.putCompletion f n d e m).outs) ∧
  (∀ s f n, s.ringsOn f = true → ((s.page f).cq n).enabled = true → ((s.page f).cq n).vec ≠ 0 →
    ((s.page f).cq n).unsignalled ≠ 0 → ((s.page f).cq n).oldest + ((s.page f).cq n).time ≤ s.now →
    exec (.irqTimer f n) s = .next (s.signal f n)) ∧
  (∀ s f v, s.phase = .up → f < 16 → v < (if f = 0 then 34 else 33) →
    exec (.msixUnmask f v) s = .next (let s1 := s.modPage f fun p => p.modMsix v fun e => { e with masked := false, pending := false }
      if ((s.page f).msixAt v).masked = true ∧ ((s.page f).msixAt v).pending = true then s1.emit (.msix f v) else s1))

/-! ### Registers, partitions and locks -/

/-- A write that something forbids is ignored and counted with its reason and offset; an open plain register takes its
defined bits; a 64-bit register takes both halves with the high write; a read of a size other than 4 answers its
bytes, and the halves of SETUP_TIME_NOW come from one moment. (R12, R629, R630, R632) -/
def Obligations.RegisterAccesses : Prop :=
  (∀ s o (v : DWord), s.deaf = false → o < 2 ^ 28 → o % 4 = 0 → inPage o = false →
    s.topReason o (v.toNat % 2 ^ 32) (! topWide o && ! (decide (4 ≤ o) && topWide (o - 4))) ≠ 0 →
    exec (.registerWrite .pf0 o 4 v) s = .next { s with
      wrIgnored := min (s.wrIgnored + 1) (2 ^ 32 - 1)
      wrLast := s.topReason o (v.toNat % 2 ^ 32) (! topWide o && ! (decide (4 ≤ o) && topWide (o - 4))) * 2 ^ 28 + o }) ∧
  (∀ s o size (v : DWord), s.deaf = false → o < 2 ^ 28 → inPage o = false → (size ≠ 4 ∧ size ≠ 8) ∨ o % size ≠ 0 →
    exec (.registerWrite .pf0 o size v) s = .next { s with
      wrIgnored := min (s.wrIgnored + 1) (2 ^ 32 - 1), wrLast := 6 * 2 ^ 28 + o }) ∧
  (∀ s o (v : DWord), s.phase = .up → s.boot.ready = true → s.locked = false →
    o ∈ [0x20014, 0x20024, 0x30000, 0x30008, 0x3000C, 0x30010, 0x30014, 0x400008, 0x600818] →
    exec (.registerWrite .pf0 o 4 v) s = .next (s.setReg o (BitVec.ofNat 32 (v.toNat % 2 ^ 32 &&& topMask o)))) ∧
  (∀ s o (v w : DWord), s.phase = .up → s.boot.ready = true → s.locked = false →
    o = 0x400108 ∨ o = 0x600810 → ∃ t, exec (.registerWrite .pf0 o 4 v) s = .next t ∧ t = { s with lowWords := t.lowWords } ∧
      exec (.registerWrite .pf0 (o + 4) 4 w) t = .next
        (({ s with lowWords := mapDel o t.lowWords }.setReg o (BitVec.ofNat 32 (v.toNat % 2 ^ 32))).setReg (o + 4)
          (BitVec.ofNat 32 (w.toNat % 2 ^ 32 &&& 0xFFFF)))) ∧
  (∀ s o size (v : DWord), s.deaf = true → exec (.registerWrite .pf0 o size v) s = .next s) ∧
  (∀ s o size, s.deaf = false → size ≠ 4 → exec (.registerRead .pf0 o size) s =
    .next (s.emit (.regRead .pf0 o size (BitVec.ofNat 64 (leNat (s.readBytes .pf0 o size)))))) ∧
  (∀ s, s.phase = .up → s.boot.ready = true → ∃ t, exec (.registerRead .pf0 0x20018 4) s = .next t ∧
    t.outs = .regRead .pf0 0x20018 4 (BitVec.ofNat 64 (s.now % 2 ^ 32)) :: s.outs ∧ t.time = s.time ∧ t.regs = s.regs ∧
    ∀ time, ∃ u, exec (.registerRead .pf0 0x2001C 4) { t with time := time } = .next u ∧
      u.outs = .regRead .pf0 0x2001C 4 (BitVec.ofNat 64 (s.now / 2 ^ 32 % 2 ^ 32)) :: t.outs) ∧
  (∀ s f o size, s.deaf = true → exec (.registerRead f o size) s = .next s)

/-- The locks are set by a write of 1; PART_DRV_IFVER classifies the driver while no ring is enabled and is ignored
with reason 0x5 otherwise; a major version mismatch is DISCORD, a listed override CONCORD. (R98, R99, R102, R634) -/
def Obligations.LocksAndDriverClasses : Prop :=
  (∀ s (v : Word), OpenTop s → v = 1 →
    exec (.setupLock v) s = .next { s with locked := true }) ∧
  (∀ s f (v : Word), OpenPage s f → v = 1 →
    exec (.functionSetupLock f v) s = .next
      ((s.seen f).modPage f fun p => { p with locked := true })) ∧
  (∀ s f (v : Word), OpenPage s f → (s.page f).anyRing = false →
    exec (.partDrvIfver f v) s = .next
      ((s.seen f).modPage f fun p =>
        { p with ifver := v.toNat, ifverSet := true, cls := s.classOf v.toNat })) ∧
  (∀ s f (v : Word), s.phase = .up → s.boot.ready = true → f < 16 → (s.page f).anyRing = true →
    exec (.partDrvIfver f v) s = .next
      ((s.seen f).ignorePage f 5 0x100)) ∧
  (∀ (s : State) (v : Nat), (v >>> 24 ≠ s.boot.ctlIfver >>> 24 ∨ bits v 15 8 ≠ bits s.boot.ctlIfver 15 8 → s.classOf v = 3) ∧
    (v >>> 24 = s.boot.ctlIfver >>> 24 → bits v 15 8 = bits s.boot.ctlIfver 15 8 →
      s.boot.overridePairs.contains v = true → s.classOf v = 1))

/-- An accepted allocation latches the settings and opens the window; the clear leaves every byte of the range zero
and never written and every other byte alone; a release is refused while a ring is enabled, else it gives everything
back and clears no memory. (R114, R115, R116, R378) -/
def Obligations.PartitionsAreAllocatedAndReleased : Prop :=
  (∀ s n, s.phase = .up → s.boot.ready = true → n < 16 → s.allocReason n = 0 →
    ∃ t, exec (.partitionAlloc n) s = .next t ∧ (n < s.parts.length → (t.part n).clearing = true ∧ (t.part n).reason = 0 ∧
        (t.part n).bricks = s.partW n 0 ∧ (t.part n).base = s.partW n 8 ∧ (t.part n).size = s.partW n 0xC ∧
        (t.part n).cache = s.partW n 0x10 ∧ (t.part n).bwr = s.partW n 0x14 ∧ (t.part n).quota = s.partW n 0x18) ∧
      (n < s.windows.length → ∃ w, t.windows[n]? = some w ∧ w.valid = true ∧ w.base = s.partW n 8 ∧
        w.limit = s.partW n 8 + s.partW n 0xC ∧ w.owner = n) ∧
      t = { s with parts := t.parts, windows := t.windows, sec := t.sec }) ∧
  (∀ s n, s.phase = .up → n < 16 → s.allocReason n ≠ 0 → exec (.partitionAlloc n) s =
    .next (s.modPart n fun p => { p with reason := s.allocReason n })) ∧
  (∀ s n, s.phase = .up → (s.part n).clearing = true →
    ∃ t, exec (.allocClearDone n) s = .next t ∧ (n < s.parts.length → (t.part n).allocated = true ∧ (t.part n).clearing = false) ∧
      (∀ a, (s.part n).base * 2 ^ 30 ≤ a → a < ((s.part n).base + (s.part n).size) * 2 ^ 30 →
        (s.mem.wf = true → t.mem.rd a = 0) ∧ t.mem.unwritten 64 a 1 = true) ∧
      (∀ a, a < (s.part n).base * 2 ^ 30 ∨ ((s.part n).base + (s.part n).size) * 2 ^ 30 ≤ a →
        t.mem.rd a = s.mem.rd a) ∧ t.regs = s.regs ∧ t.pages = s.pages) ∧
  (∀ s n, s.phase = .up → s.boot.ready = true → n < 16 → (s.page n).anyRing = true →
    exec (.partitionRelease n) s = .next (s.modPart n fun p => { p with reason := 1 })) ∧
  (∀ s n, s.phase = .up → s.boot.ready = true → n < 16 → (s.page n).anyRing = false → s.held n = true →
    ∃ t, exec (.partitionRelease n) s = .next t ∧ (n < s.parts.length → (t.part n).allocated = false ∧
        (t.part n).clearing = false ∧ (t.part n).bricks = 0 ∧ (t.part n).quota = 0) ∧
      (n < s.windows.length → t.windows[n]? = some Window.reset) ∧ t.mem = s.mem ∧ t.bricks = s.bricks ∧
      t.fuses = s.fuses)

/-- A pin entry is judged when VALID is written; a reserved window is set up where it overlaps no valid window,
refused otherwise, and taken away by a write without VALID. (R378, R389, R393) -/
def Obligations.PinsAndReservedRegions : Prop :=
  (∀ s n e (v : Word), OpenTop s → n < 16 → e < 64 →
    ∃ t, exec (.pinEntryWrite n e v) s = .next t ∧ t.mem = s.mem ∧ t.windows = s.windows ∧
      (bit v.toNat 0 = true → n < s.parts.length → (t.part n).pinReason = ({ s with mortar := { s.mortar with skipWays := [] }}.setReg
        (pinOff n e + 0xC) 0).pinRefusal n e ∧ (t.part n).pinEntry = e) ∧
      (bit v.toNat 0 = false → t.parts = s.parts ∧ t.regs = (s.setReg (pinOff n e + 0xC) 0).regs)) ∧
  (∀ s k (v : Word), OpenTop s → 1 ≤ k → k ≤ 7 → bit v.toNat 31 = true →
    s.windowFree (16 + k) (bits v.toNat 8 0) (bits v.toNat 24 16) = true → bits v.toNat 24 16 ≠ 0 →
    bits v.toNat 8 0 + bits v.toNat 24 16 ≤ 372 →
    ∃ t, exec (.reservedRegionWrite k v) s = .next t ∧ t.resvStatus = k ∧
      (16 + k < s.windows.length → ∃ w, t.windows[16 + k]? = some w ∧ w.valid = true ∧ w.base = bits v.toNat 8 0 ∧
        w.limit = bits v.toNat 8 0 + bits v.toNat 24 16 ∧ w.owner = bits v.toNat 29 26) ∧
      t = { s with regs := t.regs, windows := t.windows, sec := t.sec, resvStatus := t.resvStatus }) ∧
  (∀ s k (v : Word), OpenTop s → 1 ≤ k → k ≤ 7 → bit v.toNat 31 = true →
    s.windowFree (16 + k) (bits v.toNat 8 0) (bits v.toNat 24 16) = false →
    exec (.reservedRegionWrite k v) s = .next { s with resvStatus := 16 + k }) ∧
  (∀ s k (v : Word), OpenTop s → 1 ≤ k → k ≤ 7 → bit v.toNat 31 = false →
    ∃ t, exec (.reservedRegionWrite k v) s = .next t ∧ t.resvStatus = k ∧
      (16 + k < s.windows.length → t.windows[16 + k]? = some Window.reset) ∧
      t = { s with regs := t.regs, windows := t.windows, resvStatus := t.resvStatus })

/-- A ring whose checks pass is enabled with its counts kept (log entry 10), else its reason is reported; a disable
leaves every other ring alone; a completion or error ring that is still fed is not disabled; a restart acts on a ring
in ERROR only. (R126, R148, R151, R152, R639) -/
def Obligations.RingsAreEnabledAndDisabled : Prop :=
  (∀ s f n (v : Word), OpenPage s f → n < 32 → (s.sq f n).state = .disabled → (s.seen f).sqRefusal f n (enOn v &&& 0x801F301F) = 0 →
    exec (.sqEnable f n v) s = .next ((s.seen f).modSq f n fun q =>
      { q with
        ctrl := enOn v &&& 0x801F301F, inUse := enOn v &&& 0x801F301F, state := .enabled, reason := 0
        producer := q.fetched, disabling := false, restart := false })) ∧
  (∀ s f n (v : Word), OpenPage s f → n < 32 → (s.sq f n).state = .disabled → (s.seen f).sqRefusal f n (enOn v &&& 0x801F301F) ≠ 0 →
    exec (.sqEnable f n v) s = .next ((s.seen f).modSq f n fun q =>
      { q with
        ctrl := (enOn v &&& 0x801F301F) % 2 ^ 31
        reason := (s.seen f).sqRefusal f n (enOn v &&& 0x801F301F) })) ∧
  (∀ s f n (v : Word), OpenPage s f → n < 32 →
    ∃ t, exec (.sqDisable f n v) s = .next t ∧ t = { s with vfEnable := t.vfEnable, pages := t.pages } ∧
      ∀ k g, (k ≠ f ∨ g ≠ n) → (t.sq k g).state = (s.sq k g).state) ∧
  (∀ s f n (v : Word), OpenPage s f → n < 32 → (s.sq f n).state = .error → v = 1 →
    exec (.ringSqnRestart f n v) s = .next ((s.seen f).modSq f n fun q => { q with restart := true })) ∧
  (∀ s f n (v : Word), OpenPage s f → n < 32 → (s.sq f n).state ≠ .error → v = 1 →
    exec (.ringSqnRestart f n v) s = .next ((s.seen f).ignorePage f 5 (0x410 + 32 * n))) ∧
  (∀ s f n (v : Word), OpenPage s f → n < 32 → ((s.page f).cq n).enabled = false →
    exec (.cqEnable f n v) s = .next ((s.seen f).modPage f fun p => p.modCq n fun c =>
      if (s.seen f).cqRefused f n (enOn v &&& 0x8000001F) = true then
        { c with ctrl := (enOn v &&& 0x8000001F) % 2 ^ 31, enabled := false, unsignalled := 0, oldest := 0 }
      else { c with ctrl := enOn v &&& 0x8000001F, enabled := true, unsignalled := 0, oldest := 0 })) ∧
  (∀ s f n (v : Word), OpenPage s f → n < 32 → (s.page f).feeds n = false →
    exec (.cqDisable f n v) s = .next ((s.seen f).modPage f fun p => p.modCq n fun c =>
      { c with ctrl := enOff v &&& 0x1F, enabled := false, unsignalled := 0, oldest := 0 })) ∧
  (∀ s f n (v : Word), OpenPage s f → n < 32 → ((s.page f).cq n).enabled = true → (s.page f).feeds n = true →
    exec (.cqDisable f n v) s = .next ((s.seen f).ignorePage f 5 (0x808 + 32 * n))) ∧
  (∀ s f (v : Word), OpenPage s f → (s.page f).errEnabled = false → (s.seen f).errRefused f (enOn v &&& 0x8000001F) = false →
    exec (.errRingEnable f v) s = .next ((s.seen f).modPage f fun p => { p with
      errCtrl := enOn v &&& 0x8000001F, errEnabled := true, errHeld := []
      errDropped := min (p.errDropped + p.errHeld.length) (2 ^ 32 - 1) })) ∧
  (∀ s f (v : Word), OpenPage s f → (s.page f).anySq = false →
    exec (.errRingDisable f v) s = .next ((s.seen f).modPage f fun p => { p with
      errCtrl := enOff v &&& 0x1F, errEnabled := false, errHeld := []
      errDropped := min (p.errDropped + p.errHeld.length) (2 ^ 32 - 1) })) ∧
  (∀ s f (v : Word), OpenPage s f → (s.page f).errEnabled = true → (s.page f).anySq = true →
    exec (.errRingDisable f v) s = .next ((s.seen f).ignorePage f 5 0x120))

/-- A partition reset disables and empties every ring of its function, clears its lock and class, and ends its chains
and deadline slots; one that meets another is absorbed; one that names no allocated partition is counted. (R65, R66,
R102, R112, R153, R157) -/
def Obligations.PartitionResetsEmptyTheirRings : Prop :=
  (∀ s n, s.warmable = true → s.vfEnable = true → 1 ≤ n → n ≤ 15 → (s.part n).resetting = false →
    ∃ t, exec (.flrVf n) s = .next t ∧ (∀ k, (t.sq n k).state = .disabled ∧ (t.sq n k).queue = []) ∧
      (t.page n).errEnabled = false ∧ (t.page n).locked = false ∧ (t.page n).cls = 0 ∧
      (∀ c ∈ t.chains, c.part ≠ n) ∧ (∀ x ∈ t.slots, x.2.part ≠ n)) ∧
  (∀ s (v : Word), s.phase = .up → s.boot.ready = true → v.toNat < 16 → (s.part v.toNat).allocated = true →
    (s.part v.toNat).resetting = false →
    ∃ t, exec (.setupPartReset v) s = .next t ∧ (∀ k, (t.sq v.toNat k).state = .disabled ∧ (t.sq v.toNat k).queue = []) ∧
      (t.page v.toNat).errEnabled = false ∧ (t.page v.toNat).locked = false ∧ (t.page v.toNat).cls = 0 ∧
      (∀ c ∈ t.chains, c.part ≠ v.toNat) ∧ (∀ x ∈ t.slots, x.2.part ≠ v.toNat)) ∧
  (∀ s (v : Word), s.phase = .up → s.boot.ready = true → v.toNat < 16 → (s.part v.toNat).allocated = true →
    (s.part v.toNat).resetting = true → exec (.setupPartReset v) s = .next s) ∧
  (∀ s (v : Word), s.phase = .up → s.boot.ready = true → 16 ≤ v.toNat ∨ (s.part v.toNat).allocated = false →
    exec (.setupPartReset v) s = .next (s.ignoreTop 3 0x20008))

/-- A write of 2 on a device that is READY performs a warm reset; every other value is ignored and counted with reason
0x3; the register reads as zero. (R64) -/
def Obligations.SetupResetTakesOnlyTwo : Prop :=
  (∀ s w, s.warmable = true → exec (.setupReset 2 w) s = .next (warmReset w s)) ∧
  (∀ s (v : Word) w, s.phase = .up → s.boot.ready = true → v ≠ 2 → exec (.setupReset v w) s = .next { s with
    wrIgnored := min (s.wrIgnored + 1) (2 ^ 32 - 1), wrLast := 3 * 2 ^ 28 + 0x20004 }) ∧
  (∀ (s : State), s.word .pf0 0x20004 = 0)

/-- Ports, the TAB window, sources, rules and streams take their words; VALID or EN stays 0 where a check fails; a
disabled stream has no open epoch; a resume acts on a halted stream only. (R408, R417, R422, R424, R426, R455, R640,
R641) -/
def Obligations.IngestSetUp : Prop :=
  (∀ s q, OpenTop s → q < 4 → exec (.ingestPortEnable q) s = .next (s.setReg (0x400100 + 0x100 * q) 1)) ∧
  (∀ s, OpenTop s → bit (s.regN 0x400000) 0 = false →
    s.windowFree 16 (372 - s.regN 0x400004) (s.regN 0x400004) = true →
    ∃ t, exec .ingestEnable s = .next t ∧ t.resvStatus = 0 ∧ t.regs = (s.setReg 0x400000 1).regs ∧
      (16 < s.windows.length → ∃ w, t.windows[16]? = some w ∧ w.valid = true ∧ w.base = 372 - s.regN 0x400004 ∧
        w.limit = 372 - s.regN 0x400004 + s.regN 0x400004 ∧ w.owner = 16) ∧ t.ing = s.ing ∧ t.mem = s.mem) ∧
  (∀ s, OpenTop s → bit (s.regN 0x400000) 0 = false →
    s.windowFree 16 (372 - s.regN 0x400004) (s.regN 0x400004) = false →
    exec .ingestEnable s = .next { s with resvStatus := 16 }) ∧
  (∀ s n (v : Word), OpenTop s → n < 64 → (s.srcCfg n).valid = false →
    exec (.sourceWrite n v) s = .next (if bit v.toNat 31 = true ∧ (s.setReg (0x401000 + 64 * n) v).srcOk n = false then
      (s.setReg (0x401000 + 64 * n) v).setReg (0x401000 + 64 * n) (v &&& 0x7FFFFFFF)
      else s.setReg (0x401000 + 64 * n) v)) ∧
  (∀ s n (v : Word), OpenTop s → n < 128 → bit v.toNat 31 = false →
    exec (.ruleWrite n v) s = .next
      ({ s with ing := { s.ing with ruleBad := setDel n s.ing.ruleBad } }.setReg (0x402000 + 32 * n) v)) ∧
  (∀ s n (v : Word), OpenTop s → n < 128 → bit v.toNat 31 = true →
    let s1 := { s with ing := { s.ing with ruleBad := setDel n s.ing.ruleBad } }.setReg (0x402000 + 32 * n) v
    exec (.ruleWrite n v) s = .next (if (s1.rule n).bad = false ∧ s1.conflictWith n = true then
      { s1.setReg (0x402000 + 32 * n) (v &&& 0x7FFFFFFF) with
        ing := { s1.ing with ruleBad := setIns n s1.ing.ruleBad } } else s1)) ∧
  (∀ s n (v : Word), OpenTop s → n < 8 → s.strOn n = false →
    let s1 := s.setReg (0x404000 + 0x100 * n) (v ||| 0x80000000)
    (s1.strRefusal n = 0 → exec (.streamEnable n v) s = .next (s1.modStr n fun t => { t with reason := 0 })) ∧
    (s1.strRefusal n ≠ 0 → s1.anyConflict = false → exec (.streamEnable n v) s =
      .next ((s1.setReg (0x404000 + 0x100 * n) (v &&& 0x7FFFFFFF)).modStr n fun t => { t with reason := s1.strRefusal n }))) ∧
  (∀ s n (v : Word), OpenTop s → n < 8 → s.strOn n = true → v.toNat % 2 ^ 31 = s.strW n 0 % 2 ^ 31 →
    ∃ t, exec (.streamDisable n v) s = .next t ∧ (t.istream n).epochs = [] ∧ t.mem = s.mem) ∧
  (∀ s n (v : Word), s.phase = .up → s.boot.ready = true → n < 8 → (s.istream n).halted = true → v = 1 →
    exec (.ingStrmnResume n v) s = .next (s.modStr n fun t => { t with halted := false })) ∧
  (∀ s n (v : Word), s.phase = .up → s.boot.ready = true → n < 8 → (s.istream n).halted = false → v = 1 →
    exec (.ingStrmnResume n v) s = .next (s.ignoreTop 5 (0x40408C + 0x100 * n)))

/-- An enabled port whose binding is used begins to train; on a solitary part the write is ignored with reason 0x4; a
job another partition has is refused and reported. (R472, R481, R499) -/
def Obligations.HawserSetUp : Prop :=
  (∀ s p, OpenTop s → s.fuses.solitary = false → p < 16 →
    exec (.hawserPortEnable p) s = .next ((s.setReg (0x500100 + 0x40 * p) 1).startPort p)) ∧
  (∀ s p, OpenTop s → s.fuses.solitary = false → p < 16 → s.online = true → s.haw.instState = 0 → (s.binding p).used = 1 →
    (s.port p).state = .down → s.unit (hawUnit p) = .inService → ∃ t, exec (.hawserPortEnable p) s = .next t ∧
      (p < s.haw.ports.length → (t.port p).state = .training)) ∧
  (∀ s p, s.deaf = false → s.fuses.solitary = true → p < 16 →
    exec (.hawserPortEnable p) s = .next (s.ignoreTop 4 (0x500100 + 0x40 * p))) ∧
  (∀ s n (v : Word), OpenTop s → s.fuses.solitary = false → n < 16 →
    (∀ m, m < 16 → m ≠ n → v.toNat % 65536 ≠ 0 → s.job m ≠ v.toNat % 65536) →
    exec (.hawJobWrite n v) s = .next ({ s with haw := { s.haw with jobReason := 0, jobPart := n } }.setReg
      (0x500040 + 4 * n) (BitVec.ofNat 32 (v.toNat % 65536)))) ∧
  (∀ s n m (v : Word), OpenTop s → s.fuses.solitary = false → n < 16 → m < 16 → m ≠ n → v.toNat % 65536 ≠ 0 →
    s.job m = v.toNat % 65536 →
    exec (.hawJobWrite n v) s = .next { s with haw := { s.haw with jobReason := 1, jobPart := n } })

/-- A write of 3 or 4 is performed with no list in flight and every epoch free, and refused with reason 0x1 otherwise,
locked or not; every other value is ignored and counted; the register reads as zero. (R542) -/
def Obligations.PowerRequests : Prop :=
  (∀ s, s.phase = .up → s.boot.ready = true → s.listInFlight = false → s.epochsFree = true → s.wdn.st ≠ .warden →
    ∃ t, exec .enterWarden s = .next t ∧ t.wdn.st = .warden ∧ t.wdn.reqReason = 0 ∧ t.wdn.railReq = 0x380 ∧
      t.mem = Mem.empty ∧ (∀ b ∈ t.bricks, b.powered = false) ∧ t.haw.conns = [] ∧ t.fuses = s.fuses ∧ t.time.step = 0) ∧
  (∀ s, s.phase = .up → s.boot.ready = true → s.listInFlight = false → s.epochsFree = true →
    ∃ t, exec .enterOff s = .next t ∧ t.wdn.st = .off ∧ t.wdn.railReq = 0 ∧ t.wdn.gasp = [] ∧ t.phase = .held) ∧
  (∀ s, s.phase = .up → s.boot.ready = true → s.listInFlight = true ∨ s.epochsFree = false →
    exec .enterWarden s = .next { s with wdn := { s.wdn with reqReason := 1 } } ∧
    exec .enterOff s = .next { s with wdn := { s.wdn with reqReason := 1 } }) ∧
  (∀ s (v : DWord), s.phase = .up → s.boot.ready = true → v.toNat % 2 ^ 32 ≠ 3 → v.toNat % 2 ^ 32 ≠ 4 →
    exec (.registerWrite .pf0 0x600804 4 v) s = .next { s with
      wrIgnored := min (s.wrIgnored + 1) (2 ^ 32 - 1), wrLast := 3 * 2 ^ 28 + 0x600804 }) ∧
  (∀ (s : State), s.word .pf0 0x600804 = 0)

/-- A request reports the first of 0x4, 0x1, 0x2, 0x3, 0x5 that holds and then changes no unit; an accepted retirement
retires the unit; an accepted readmission begins with the self-test. (R586, R587) -/
def Obligations.RepairRequests : Prop :=
  (∀ s (v : Word), s.phase = .up → s.boot.ready = true →
    (s.unitOk (reqUnit v) = false → exec (.errRetireReq v) s = .next (s.setStatus 4)) ∧
    (s.unitOk (reqUnit v) = true → s.unit (reqUnit v) ≠ .inService → exec (.errRetireReq v) s = .next (s.setStatus 1)) ∧
    (s.unitOk (reqUnit v) = true → s.unit (reqUnit v) = .inService → s.restricted = true →
      exec (.errRetireReq v) s = .next (s.setStatus 2)) ∧
    (s.unitOk (reqUnit v) = true → s.unit (reqUnit v) = .inService → s.restricted = false →
      s.retireBreaks (reqUnit v) = true → exec (.errRetireReq v) s = .next (s.setStatus 5)) ∧
    (s.unitOk (reqUnit v) = true → s.unit (reqUnit v) = .inService → s.restricted = false →
      s.retireBreaks (reqUnit v) = false → exec (.errRetireReq v) s =
        .next ((s.setStatus 0).retire (reqUnit v) 0 ((s.brickOwner (reqUnit v).index).getD 0)))) ∧
  (∀ s (v : Word), s.phase = .up → s.boot.ready = true → s.unitOk (reqUnit v) = true → s.unit (reqUnit v) = .retired →
    s.restricted = false → s.repair.readmit = none → ∃ t, exec (.errReadmitReq v) s = .next t ∧ t.repair.status = 0 ∧
      t.unit (reqUnit v) = .readmitting ∧ t.repair.readmit = some { unit := reqUnit v, step := .selfTest } ∧
      t = { s with repair := t.repair }) ∧
  (∀ s (v : Word) m, s.phase = .up → s.boot.ready = true → s.unitOk (reqUnit v) = true → s.unit (reqUnit v) = .retired →
    s.restricted = false → s.repair.readmit = some m → exec (.errReadmitReq v) s = .next (s.setStatus 3))

/-! ### Resets, boot and links -/

/-- Each command that starts a cold reset runs the boot; whatever the boot finds, it ends with fused lifecycle records
in force, the debug level of the lifecycle state, and every register, list, window, memory cell and the device time at
its reset value. (R59, R63, R88, R96, R599, R602, R623) -/
def Obligations.ColdResetsBootAndClear : Prop :=
  (∀ s i, s.pins.pwrGood = true →
    exec (.coldReset i) s = .next (boot i { s with pins := { s.pins with coldResetN := true } })) ∧
  (∀ s i, s.phase = .held → s.pins.pwrGood = false → s.pins.coldResetN = true →
    exec (.pwrGoodRise i) s = .next (boot i { s with pins := { s.pins with pwrGood := true } })) ∧
  (∀ s i, s.phase ≠ .held → s.phase ≠ .dark → s.phase ≠ .seized → exec (.setupColdReq 1 i) s = .next (boot i s)) ∧
  (∀ s i, s.phase = .seized → exec (.seizeExit i) s = .next (boot i s)) ∧
  (∀ s i c f, s.sec.mboxCmd = some c → s.deaf = false → s.sec.fused = some f →
    exec (.secMboxDone i) s = .next (boot i { s with sec := { s.sec with mboxCmd := none, mboxStatus := c } })) ∧
  (∀ s i c, s.sec.mboxCmd = some c → s.deaf = false → s.sec.fused = none →
    exec (.secMboxDone i) s = .next { s with sec := { s.sec with mboxCmd := none, mboxStatus := c } }) ∧
  (∀ s, exec .coldResetNAssert s = .next { s with pins := { s.pins with coldResetN := false }, phase := .held }) ∧
  (∀ i s, let t := boot i s
    t.fuses = s.sec.fused.getD s.fuses ∧ t.sec.level = (if t.fuses.lifecycle = .blank then 3 else 0) ∧
    t.sec.mboxToken = none ∧ t.sec.jtagToken = none ∧ t.sec.mboxCmd = none ∧ t.sec.fused = none ∧
    t.dbg = DbgS.reset ∧ t.regs = [] ∧ t.locked = false ∧ t.parts = List.replicate 16 Partition.reset ∧
    t.lists = [] ∧ t.ctxs = [] ∧ t.slots = [] ∧ t.chains = [] ∧ t.windows = List.replicate 32 Window.reset ∧
    t.mem = Mem.empty ∧ t.time = TimeS.reset ∧ t.ing = IngS.reset ∧ t.pins.alertN = true ∧ t.pins.lostClks = [] ∧
    t.vfEnable = false ∧ t.phase ≠ .held ∧ t.phase ≠ .seized ∧ t.pending = s.pending)

/-- Six commands perform a warm reset of a device that is READY; it ends all work, returns set-up to reset values, and
keeps fuses, device time, the boot state, the debug state, the measurement registers, the flash and, without a lost
line or a clear, memory. (R63, R67, R155, R158, R520, R582, R633, R643) -/
def Obligations.WarmResetsKeepAndClear : Prop :=
  (∀ s w, s.warmable = true →
    exec (.warmResetN w) s = .next (warmReset w s) ∧
    exec (.i3cWarmResetRequest 0x57 0x52 w) s = .next (warmReset w s) ∧
    exec (.hio0LinkLoss w) s = .next (warmReset w { s with hio0Up := false }) ∧
    exec (.flrPf0 w) s = .next (warmReset w { s with vfEnable := false }) ∧
    exec (.perst0N w) s = .next (warmReset w
      { s with pins := { s.pins with perstN := s.pins.perstN.modify 0 fun _ => false }, hio0Up := false, vfEnable := false })) ∧
  (∀ s w, s.warmable = true → exec (.setupReset 2 w) s = .next (warmReset w s)) ∧
  (∀ s w b0 b1, b0 ≠ 0x57 ∨ b1 ≠ 0x52 → exec (.i3cWarmResetRequest b0 b1 w) s = .next s) ∧
  (∀ s w, s.phase ≠ .up → exec (.warmResetN w) s = .next s) ∧
  (∀ w s, let t := warmReset w s
    t.lists = [] ∧ t.ctxs = [] ∧ t.slots = [] ∧ t.chains = [] ∧ t.parts = List.replicate 16 Partition.reset ∧
    t.ing = IngS.reset ∧ t.locked = false ∧ t.wrIgnored = 0 ∧ t.wrLast = 0 ∧ t.lowWords = [] ∧ t.resvStatus = 0 ∧
    t.regs = s.regs.filter (fun p => decide (0x800000 ≤ p.1) && decide (p.1 < 0x1000000)) ∧
    t.fuses = s.fuses ∧ t.boot = s.boot ∧ t.time = s.time ∧ t.dbg = s.dbg ∧ t.sec.level = s.sec.level ∧
    t.sec.nonce = s.sec.nonce ∧ t.sec.mrs = s.sec.mrs ∧ t.flash.cells = s.flash.cells ∧ t.haw.chip = s.haw.chip ∧
    t.haw.bindings = s.haw.bindings ∧ t.hio0Up = s.hio0Up ∧ t.vfEnable = s.vfEnable ∧ t.pending = s.pending) ∧
  (∀ w s, s.lists = [] → w.unhealthy = [] → s.regN 0x700024 = 0 → (warmReset w s).mem.cells = s.mem.cells)

/-- HIO1's losses fail its copies with their codes and reset nothing else; PF1's readiness, a rising PERSTn_N and a
trained link bring the ports back. (R42, R67, R156, R158) -/
def Obligations.Hio1ResetsAndLinks : Prop :=
  (∀ s p, s.phase ≠ .seized →
    exec (.hio1LinkLoss p) s = .next (s.failHio1 0x3032 p) ∧
    exec (.perst1N p) s = .next (({ s with pins := { s.pins with
      perstN := s.pins.perstN.modify 1 fun _ => false } }).failHio1 0x3032 p)) ∧
  (∀ s p, s.phase ≠ .seized → s.hio1Down = none → exec (.flrPf1 p) s = .next (s.failHio1 0x3034 p)) ∧
  (∀ (s : State) code, s.failHio1 code [] = { s with hio1Down := some code }) ∧
  (∀ s, s.hio1Down = some 0x3034 → exec .pf1FlrReadiness s = .next { s with hio1Down := none }) ∧
  (∀ s, s.hio1Down ≠ some 0x3034 → exec .pf1FlrReadiness s = .next s) ∧
  (∀ s n, exec (.perstNDeassert n) s = .next { s with pins := { s.pins with
    perstN := s.pins.perstN.modify n fun _ => true
    lostClks := s.pins.lostClks.filter fun c => c != (if n = 0 then RefClk.host0 else RefClk.host1) } }) ∧
  (∀ s, s.phase = .up → s.pins.perstN.getD 0 false = true → RefClk.host0 ∉ s.pins.lostClks →
    exec (.pcieLinkTrained 0) s = .next { s with hio0Up := true }) ∧
  (∀ s, s.phase = .up → s.pins.perstN.getD 1 false = true → RefClk.host1 ∉ s.pins.lostClks →
    exec (.pcieLinkTrained 1) s = .next { s with hio1Down := none }) ∧
  (∀ s n, s.pins.perstN.getD n false = false → exec (.pcieLinkTrained n) s = .next s)

/-- Losing REFCLK_SYS stops the device with a last-gasp record and FATAL_N; losing a host reference acts as the loss
of its link; a failed mesh link is a DEVICE fault. (R30, R41, R42) -/
def Obligations.ReferenceLossActs : Prop :=
  (∀ s p w, s.phase = .up → RefClk.sys ∉ s.pins.lostClks → ∃ t, exec (.referenceLost .sys p w) s = .next t ∧
    t.phase = .dark ∧ t.pins.fatalN = false ∧ t.wdn.gaspSeq = s.wdn.gaspSeq + 1 ∧ (t.wdn.gasp.head?.map (·.cause)) = some 4 ∧
    t = { s with phase := t.phase, pins := t.pins, wdn := t.wdn }) ∧
  (∀ s p w, s.phase = .up → RefClk.host0 ∉ s.pins.lostClks → s.warmable = true →
    exec (.referenceLost .host0 p w) s = .next (warmReset w
      { s with pins := { s.pins with lostClks := RefClk.host0 :: s.pins.lostClks }, hio0Up := false })) ∧
  (∀ s p w, s.phase = .up → RefClk.host1 ∉ s.pins.lostClks →
    exec (.referenceLost .host1 p w) s = .next
      (({ s with pins := { s.pins with lostClks := RefClk.host1 :: s.pins.lostClks } }).failHio1 0x3032 p)) ∧
  (∀ s p w, s.phase = .up → RefClk.xtal ∉ s.pins.lostClks → ∃ t, exec (.referenceLost .xtal p w) s = .next t ∧
    t.pins.alertN = false ∧ t.phase = .up) ∧
  (∀ s p w r, r ∈ s.pins.lostClks → exec (.referenceLost r p w) s = .next s) ∧
  (∀ s link, s.memoryOn = true → exec (.meshLinkFail link) s =
    .next (s.raise1 0x2040 4 { kind := 8, index := Config.linkNumber link } 0))

/-! ### Time, debug, flash and security -/

/-- Device time acquires, steps forward once, refuses a step backward, slews a small offset, follows the better
master, and leaves LOCKED after 4 s without a Sync; a pending step is taken only while no slot is armed; an enabled
PPS edge records its offset from the nearest second; PTP_PPS_OUT rises on the second and falls after 1 ms. (R45, R46,
R47, R51, R412) -/
def Obligations.DeviceTimeFollowsPtp : Prop :=
  (∀ s port domain ident (time : Nat) m, s.ptpHears port domain = true → s.ptp.master = some m → m.identity = ident →
    s.time.st = .free → exec (.ptpSync port domain ident time) s =
      .next ((({ s with ptp := { s.ptp with lastSync := s.now } }).emit (.ptpDelayReq port)).setTime .acquire port)) ∧
  (∀ s port domain ident (time : Nat) m d, s.ptpHears port domain = true → s.ptp.master = some m → m.identity = ident →
    s.ptp.delay = some d → s.time.st = .acquire → s.now ≤ time + d →
    (∀ x ∈ s.slots, x.2.armed.isSome = true → x.2.missed = true) →
    ∃ t, exec (.ptpSync port domain ident time) s = .next t ∧ t.time.now = time + d ∧ t.time.st = .locked ∧
      t.time.stepped = true ∧ t.ptp.lastSync = s.now) ∧
  (∀ s port domain ident (time : Nat) m d, s.ptpHears port domain = true → s.ptp.master = some m → m.identity = ident →
    s.ptp.delay = some d → s.time.st = .acquire → time + d < s.now →
    ∃ t, exec (.ptpSync port domain ident time) s = .next t ∧ t.time.now = s.now ∧ t.time.st = .refused) ∧
  (∀ s port domain ident (time : Nat) m d, s.ptpHears port domain = true → s.ptp.master = some m → m.identity = ident →
    s.ptp.delay = some d → s.time.st = .locked → ((time : Int) + d - s.now).natAbs ≤ 1000000000 →
    ∃ t, exec (.ptpSync port domain ident time) s = .next t ∧ t.time.now = s.now ∧ t.time.st = .locked ∧
      t.time.slewLeft = ((time : Int) + d - s.now) * 2 ^ 32) ∧
  (∀ s port domain m, s.ptpHears port domain = true → s.ptp.master = none →
    exec (.ptpAnnounce port domain m) s = .next { s with ptp := { s.ptp with master := some m } }) ∧
  (∀ s port domain m b, s.ptpHears port domain = true → s.ptp.master = some b → m.identity ≠ b.identity →
    PtpBetter m b = true →
    exec (.ptpAnnounce port domain m) s = .next { s with ptp := { s.ptp with master := some m, delay := none } }) ∧
  (∀ s port domain ident delay m, s.ptpHears port domain = true → s.ptp.master = some m → m.identity = ident →
    exec (.delayResp port domain ident delay) s = .next { s with ptp := { s.ptp with delay := some delay } }) ∧
  (∀ s, s.phase = .up → s.ptp.lastSync + 4000000000 ≤ s.now → exec .syncTimeout s = .next s.loseSync) ∧
  (∀ s, s.phase = .up → s.time.st = .stepPending →
    (∀ x ∈ s.slots, x.2.armed.isSome = true → x.2.missed = true) →
    ∃ t, exec .deviceTimeStep s = .next t ∧ t.time.now = s.time.now + s.time.step ∧ t.time.step = 0 ∧
      t.time.st = .locked ∧ t.time.stepped = true) ∧
  (∀ s x, x ∈ s.slots → x.2.armed.isSome = true → x.2.missed = false → exec .deviceTimeStep s = .next s) ∧
  (∀ s, s.phase = .up → bit (s.regN 0x20014) 0 = true →
    exec .ppsInEdge s = .next { s with time := { s.time with ppsOffset :=
      if s.now % 1000000000 < 500000000 then ((s.now % 1000000000 : Nat) : Int)
      else ((s.now % 1000000000 : Nat) : Int) - 1000000000 } }) ∧
  (∀ s, bit (s.regN 0x20014) 0 = false → exec .ppsInEdge s = .next s) ∧
  (∀ s, s.phase = .up → s.now % 1000000000 = 0 → exec .ppsOut s =
    .next { s with pins := { s.pins with ppsOut := true }, time := { s.time with ppsRose := s.now } }) ∧
  (∀ s, s.phase = .up → s.pins.ppsOut = true → s.time.ppsRose + 1000000 ≤ s.now →
    exec .ppsOutFall s = .next { s with pins := { s.pins with ppsOut := false } })

/-- At INVASIVE and above a seize stops the device, zeroises window keys, link secrets and tokens, and keeps memory
and registers; below it is refused and counted, and no secret or byte of memory changes. (R53, R618, R620, R621) -/
def Obligations.SeizeNeedsInvasive : Prop :=
  (∀ s, s.phase ≠ .held → s.phase ≠ .seized → 2 ≤ s.sec.level →
    ∃ t, exec .seizeN s = .next t ∧ exec .jtagSeize s = .next t ∧ t.phase = .seized ∧ t.dbg.seize = .open_ ∧
      (∀ w ∈ t.windows, w.key = none) ∧ t.haw.secrets = [] ∧ t.sec.mboxToken = none ∧ t.sec.jtagToken = none ∧
      t.mem = s.mem ∧ t.bricks = s.bricks ∧ t.regs = s.regs ∧ t.pages = s.pages ∧ t.parts = s.parts) ∧
  (∀ s, s.phase ≠ .held → s.phase ≠ .seized → s.sec.level < 2 →
    ∃ t, exec .seizeN s = .next t ∧ exec .jtagSeize s = .next t ∧ t.phase ≠ .seized ∧ t.windows = s.windows ∧
      t.dbg.refused = min (s.dbg.refused + 1) (2 ^ 32 - 1) ∧ t.haw.secrets = s.haw.secrets ∧ t.mem = s.mem) ∧
  (∀ s, s.phase = .held ∨ s.phase = .seized → exec .seizeN s = .next s ∧ exec .jtagSeize s = .next s)

/-- At CLOSED nothing happens; at OBSERVE trace starts; at INVASIVE a seize action seizes; counters count their edges.
(R601, R618, R619, R625) -/
def Obligations.DebugTriggersAct : Prop :=
  (∀ s edges, s.deaf = false → 1 ≤ s.sec.level → (∀ n, n < 16 → s.trigHolds edges n = false) →
    exec (.debugTrigger edges) s = .next ((List.range 256).foldl (fun s n => s.countEdges edges n) s)) ∧
  (∀ s edges n, s.deaf = false → 2 ≤ s.sec.level → n < 16 → s.trigHolds edges n = true → bit (s.trigW n 4) 4 = true →
    s.phase ≠ .held → ∃ t, exec (.debugTrigger edges) s = .next t ∧ t.phase = .seized) ∧
  (∀ s edges n, s.deaf = false → s.sec.level = 1 → n < 16 → s.trigHolds edges n = true → s.trigW n 4 % 32 = 1 →
    (∀ k, k < 16 → k ≠ n → s.trigHolds edges k = false) →
    ∃ t, exec (.debugTrigger edges) s = .next t ∧ t.dbg.tracing = true ∧ t.outs = .traceStart :: s.outs) ∧
  (∀ s edges, s.sec.level = 0 → exec (.debugTrigger edges) s = .next s)

/-- A command starts where none is in progress and its address may be written; bank B is refused with 0x8001; a
completed command reads, erases or programs exactly its sector or page. (R75, R636) -/
def Obligations.FlashMailboxCommands : Prop :=
  (∀ s, s.deaf = false → s.flash.cmd = none →
    exec .flashRead s = .next { s with flash := { s.flash with cmd := some (.read s.flash.addr), result := 0 } }) ∧
  (∀ s, s.deaf = false → s.flash.cmd = none → inBankA s.flash.addr = true ∨ inInst s.flash.addr = true →
    exec .flashErase s = .next { s with flash := { s.flash with cmd := some (.erase s.flash.addr), result := 0 } } ∧
    exec .flashProgram s = .next { s with flash := { s.flash with
      cmd := some (.program s.flash.addr ((List.range 4096).map fun i => mapRd 0 i s.flash.buf)), result := 0 } }) ∧
  (∀ s, s.deaf = false → s.flash.cmd = none → inBankB s.flash.addr = true →
    ∃ t, exec .flashErase s = .next t ∧ exec .flashProgram s = .next t ∧ t.flash.cells = s.flash.cells ∧
      t.flash.cmd = none ∧ t.flash.result = 1 ∧
      t = ({ s with flash := { s.flash with result := 1 } }).raise1 0x8001 2 noUnit 0) ∧
  (∀ s c, s.deaf = false → s.flash.cmd = some c → exec .flashRead s = .next { s with flash := { s.flash with result := 2 } } ∧
    exec .flashErase s = .next { s with flash := { s.flash with result := 2 } } ∧
    exec .flashProgram s = .next { s with flash := { s.flash with result := 2 } }) ∧
  (∀ s c, s.deaf = false → s.flash.cmd = some c → exec (.flashCommandDone false) s =
    .next { s with flash := { s.flash with cmd := none, result := 3 } }) ∧
  (∀ s a, s.deaf = false → s.flash.cmd = some (.read a) → exec (.flashCommandDone true) s =
    .next { s with flash := { s.flash with
      cmd := none, result := 0
      buf := runCells 0 (flashRd s.flash.cells a 4096) } }) ∧
  (∀ s a, s.deaf = false → s.flash.cmd = some (.erase a) → inInst a = true →
    ∃ t, exec (.flashCommandDone true) s = .next t ∧ t.flash.cmd = none ∧ t.flash.result = 0 ∧
      (∀ k, a / 65536 * 65536 ≤ k → k < a / 65536 * 65536 + 65536 → mapRd 0xFF k t.flash.cells = 0xFF)) ∧
  (∀ s a d, s.deaf = false → s.flash.cmd = some (.program a d) → ∃ t, exec (.flashCommandDone true) s = .next t ∧
    t.flash.cmd = none ∧ t.flash.result = 0 ∧ t.flash.cells = flashProgram (headerFirst a s.flash.cells) a d)

/-- A record whose checks pass takes its effect and extends its measurement register; one that fails any check changes
nothing but the result; no record changes the fuses before a cold reset. (R75, R87, R599, R605, R613, R642) -/
def Obligations.SecurityRecordsAreJudged : Prop :=
  (∀ s r, MailboxOpen s → s.overrideOk r = true →
    ∃ t, exec (.override r) s = .next t ∧ t.flash.overrides = r :: s.flash.overrides ∧ t.boot.overridePairs = r.pairs ∧
      t.boot.outcome = (if s.boot.outcome = .tolerated then .overridden else s.boot.outcome) ∧ t.sec.mboxCmd = some 0 ∧
      t.sec.mrs = s.sec.mrs.modify 8 (fun m =>
        mrExtend m (beBytes 48 (Config.overrideHash r.serial r.setHash r.pairs).toNat)) ∧
      t.fuses = s.fuses ∧ t.mem = s.mem) ∧
  (∀ s r, MailboxOpen s → s.overrideOk r = false → ∃ t, exec (.override r) s = .next t ∧
    t.flash = s.flash ∧ t.boot = s.boot ∧ t.sec.mboxCmd = some 0x8002 ∧ t.sec.mrs = s.sec.mrs) ∧
  (∀ s r, MailboxOpen s → s.ownerSigned r.signer = true → r.setHash = s.boot.setHash → s.boot.concordFromA = true →
    exec (.goldenUpdate r) s = .next { s with
      flash := { s.flash with cells := copyBank s.flash.cells }, sec := { s.sec with mboxCmd := some 0 } }) ∧
  (∀ s r, MailboxOpen s → s.ownerSigned r.signer = false ∨ r.setHash ≠ s.boot.setHash ∨ s.boot.concordFromA = false →
    ∃ t, exec (.goldenUpdate r) s = .next t ∧ t.flash = s.flash ∧ t.sec.mboxCmd = some 0x8001) ∧
  (∀ s g f, MailboxOpen s → s.lifecycleFields (s.mboxBytes 224) = true → s.lifecycleSigned g = true →
    s.lifecycleFuses (s.mboxBytes 224) = some f →
    ∃ t, exec (.lifecycleRecord g) s = .next t ∧ t.fuses = s.fuses ∧ t.sec.fused = some f ∧ t.sec.mboxCmd = some 0 ∧
      t.sec.mrs = s.sec.mrs.modify 8 (fun m => mrExtend m (sha384 (s.mboxBytes 224)))) ∧
  (∀ s g, MailboxOpen s → s.lifecycleFields (s.mboxBytes 224) = false ∨ s.lifecycleSigned g = false →
    ∃ t, exec (.lifecycleRecord g) s = .next t ∧ t.fuses = s.fuses ∧ t.sec.fused = s.sec.fused ∧
      t.sec.mboxCmd = some 0x6011 ∧ t.flash = s.flash) ∧
  (∀ s g u k, MailboxOpen s → s.linkRecordOk (s.mboxBytes 288) g u = true →
    ∃ t, exec (.linkSecretRecord g u k) s = .next t ∧ t.sec.mboxCmd = some 0 ∧
      t.flash.secrets = ({ gen := fieldLE (s.mboxBytes 288) 6 2, secret := k } :: s.flash.secrets).take 2 ∧
      t.haw.secrets = t.flash.secrets ∧ t.haw.epoch = 0 ∧ t.haw.exhausted = false) ∧
  (∀ s g u k, MailboxOpen s → s.linkRecordOk (s.mboxBytes 288) g u = false →
    ∃ t, exec (.linkSecretRecord g u k) s = .next t ∧ t.sec.mboxCmd = some 0x6012 ∧ t.flash = s.flash ∧ t.haw = s.haw) ∧
  (∀ s b g, MailboxOpen s → exec (.debugToken false b g) s = .next { s with sec := { s.sec with
    mboxToken := some { bytes := s.mboxBytes 160, signer := g }, mboxCmd := some 0 } }) ∧
  (∀ s b g, s.deaf = false → exec (.debugToken true b g) s = .next { s with sec := { s.sec with
    jtagToken := some { bytes := b, signer := g } } })

/-- The level falls on request; OBSERVE is open; INVASIVE on a PROVISIONED or OWNED part needs a token that passes
every test, and entering it drops the keys of windows 0 to 23. (R601, R604, R605, R607, R612) -/
def Obligations.DebugLevelsAreGuarded : Prop :=
  (∀ s v, s.deaf = false → bits (BitVec.toNat v) 1 0 = s.sec.level → exec (.debugLevelRequest true v) s = .next s) ∧
  (∀ s v, s.deaf = false → bits (BitVec.toNat v) 1 0 < s.sec.level → ∃ t, exec (.debugLevelRequest true v) s = .next t ∧
    t.sec.level = bits v.toNat 1 0 ∧ t.sec.cause = 0 ∧
    t.sec.mrs = s.sec.mrs.modify 8 (fun m => mrExtend m [BitVec.ofNat 8 (bits v.toNat 1 0)])) ∧
  (∀ s v, s.deaf = false → s.sec.level < bits (BitVec.toNat v) 1 0 → bits v.toNat 1 0 = 3 → s.fuses.lifecycle ≠ .blank →
    ∃ t, exec (.debugLevelRequest true v) s = .next t ∧ t.sec = s.sec ∧ t.windows = s.windows) ∧
  (∀ s v, s.deaf = false → s.sec.level = 0 → bits (BitVec.toNat v) 1 0 = 1 → s.serves 0x700008 = true →
    ∃ t, exec (.debugLevelRequest false v) s = .next t ∧ t.sec.level = 1) ∧
  (∀ s v, s.deaf = false → s.sec.level < 2 → bits (BitVec.toNat v) 1 0 = 2 →
    s.fuses.lifecycle = .owned ∨ s.fuses.lifecycle = .provisioned →
    s.sec.jtagToken = none ∨ (∃ t, s.sec.jtagToken = some t ∧ s.tokenCause t 2 ≠ 0) →
    ∃ t, exec (.debugLevelRequest true v) s = .next t ∧ t.sec.level = s.sec.level ∧ t.windows = s.windows ∧
      t.sec.cause ≠ 0) ∧
  (∀ s v tk, s.deaf = false → s.sec.level < 2 → bits (BitVec.toNat v) 1 0 = 2 →
    s.fuses.lifecycle = .owned ∨ s.fuses.lifecycle = .provisioned →
    s.sec.jtagToken = some tk → s.tokenCause tk 2 = 0 →
    ∃ t, exec (.debugLevelRequest true v) s = .next t ∧ t.sec.level = 2 ∧ t.sec.cause = 0 ∧
      ∀ i, i < 24 → ∀ w, t.windows[i]? = some w → w.key = none)

/-- Versions, capabilities, algorithms and digests are answered; certificates, challenges and measurements are
answered on a provisioned part and refused otherwise; an unsupported request gets an error. (R594, R596) -/
def Obligations.AttestationAnswers : Prop :=
  (∀ s, s.phase = .up → exec .getVersion s = .next (s.emit (.spdm 0x04 (spdmBody 0x04 4))) ∧
    exec .getCapabilities s = .next (s.emit (.spdm 0x61 (spdmBody 0x61 16)))) ∧
  (∀ s a b, s.phase = .up → exec (.negotiateAlgorithms a b) s = .next (s.emit (if a = true ∨ b = true then
    .spdm 0x63 (spdmBody 0x63 32) else .spdm 0x7F [7, 0xE3]))) ∧
  (∀ s, s.phase = .up → exec .getDigests s = .next (s.emit (.spdm 0x01
    (if s.fuses.certified then sha384 certChain else [])))) ∧
  (∀ s o n, s.phase = .up → s.fuses.lifecycle = .provisioned ∨ s.fuses.lifecycle = .owned →
    exec (.getCertificate 0 o n) s = .next (s.emit (.spdm 0x02 ((certChain.drop o).take n)))) ∧
  (∀ s nonce, s.phase = .up → s.fuses.lifecycle = .provisioned ∨ s.fuses.lifecycle = .owned →
    ∃ t sig, exec (.challenge 0 nonce) s = .next t ∧ sig.length = 96 ∧
      t = { s with outs := .spdm 0x03 (sha384 certChain ++ leBytes 32 nonce ++ sig) :: s.outs, free := t.free }) ∧
  (∀ s i nonce, s.phase = .up → s.fuses.lifecycle = .provisioned ∨ s.fuses.lifecycle = .owned → 1 ≤ i → i ≤ 9 →
    ∃ t sig, exec (.getMeasurements i nonce) s = .next t ∧ sig.length = 96 ∧
      t = { s with outs := .spdm 0x60 (beBytes 48 (s.sec.mrs.getD (i - 1) 0) ++ (leBytes 32 nonce ++ sig)) :: s.outs
                   free := t.free }) ∧
  (∀ s nonce slot o n, s.phase = .up → s.fuses.lifecycle ≠ .provisioned → s.fuses.lifecycle ≠ .owned →
    exec (.challenge slot nonce) s = .next (s.emit (.spdm 0x7F [7, 0x83])) ∧
    exec (.getMeasurements slot nonce) s = .next (s.emit (.spdm 0x7F [7, 0xE0])) ∧
    exec (.getCertificate slot o n) s = .next (s.emit (.spdm 0x7F [7, 0x82]))) ∧
  (∀ s code, s.phase = .up → exec (.spdmUnsupportedRequest code) s = .next (s.emit (.spdm 0x7F [7, BitVec.ofNat 8 code])))

/-! ### Memory -/

/-- A corrected error counts in its unit's bucket and leaves memory alone; an uncorrectable one poisons exactly its
location; tag errors are slice errors or a DEVICE fault. (R365, R366, R558, R559, R646, R647) -/
def Obligations.MemoryErrorsPoisonAndCount : Prop :=
  (∀ s e, s.memoryOn = true → siteOk e = true → e.inCache = true →
    exec (.eccCorrected e) s = .next (s.unitErr (wayUnit e.slice e.way) 1 (s.recPart e.addr) (s.wayRec 0x2001 0 e 0))) ∧
  (∀ s e, s.memoryOn = true → siteOk e = true → e.inCache = true → s.unit (wayUnit e.slice e.way) = .inService →
    ∃ t, exec (.eccCorrected e) s = .next t ∧
      t.bucketCount (wayUnit e.slice e.way) = s.bucketCount (wayUnit e.slice e.way) + 1 ∧ t.mem = s.mem) ∧
  (∀ s e, s.memoryOn = true → siteOk e = true → e.inCache = false → ∃ t, exec (.eccCorrected e) s = .next t ∧
    t.mem = s.mem ∧ t.bricks = s.bricks) ∧
  (∀ s e, s.memoryOn = true → siteOk e = true → e.inCache = false ∨ e.dirty = true ∨ e.pinned = true →
    ∃ t, exec (.eccUncorrectable e false) s = .next t ∧ t.mem = s.mem.poisonAt (e.addr / 64) ∧ t.bricks = s.bricks) ∧
  (∀ s e ok, s.memoryOn = true → siteOk e = true →
    ok = true ∨ (e.inCache = true ∧ e.dirty = false ∧ e.pinned = false) →
    ∃ t, exec (.eccUncorrectable e ok) s = .next t ∧ t.mem = s.mem ∧ t.bricks = s.bricks) ∧
  (∀ s slice, s.memoryOn = true → slice < 8 →
    exec (.tagCopyError slice true) s = .next (s.raise1 0x2038 4 (sliceUnit slice) 0)) ∧
  (∀ s slice, s.memoryOn = true → slice < 8 → ∃ r, r.code = 0x2035 ∧ r.severity = 0 ∧
    exec (.tagCopyError slice false) s = .next (s.unitErr (sliceUnit slice) 16 0 r)) ∧
  (∀ s b am a, s.memoryOn = true → b < 16 → (s.brick b).powered = true → a < (if am = true then Config.amBytes else Config.obBytes) →
    (∃ r, r.code = 0x2050 ∧ r.severity = 0 ∧ exec (.obAmEccError b am true a) s =
      .next (s.unitErr (brickUnit b) 1 ((s.brickOwner b).getD 0) r)) ∧
    ∃ t, exec (.obAmEccError b am false a) s = .next t ∧ t.mem = s.mem ∧
      (b < s.bricks.length → (t.brick b).ob = (if am = true then (s.brick b).ob else (s.brick b).ob.poisonAt (a / 64)) ∧
        (t.brick b).am = (if am = true then (s.brick b).am.poisonAt (a / 64) else (s.brick b).am))) ∧
  (∀ s e, s.memoryOn = false → exec (.eccCorrected e) s = .next s ∧ ∀ ok, exec (.eccUncorrectable e ok) s = .next s)

/-- An engine error that recomputes counts; one that does not ends its list with 0x1060; the scrubber passes every
location in turn. A chunk copied out takes its reserve slot, the last one retires the pseudo-channel; a chunk copied
back leaves its slot; a moved node belongs to its recipient; none changes a byte of memory. (R229, R367, R369, R370,
R372, R396, R553, R559) -/
def Obligations.RepairAndScrubbing : Prop :=
  (∀ s b l e, s.memoryOn = true → b < 16 → l.brick = b → s.env l = some e →
    (∃ r, r.code = 0x1060 ∧ r.severity = 0 ∧ exec (.engineError b true l) s =
      .next (s.unitErr (brickUnit b) 4 ((s.brickOwner b).getD 0) r)) ∧
    (∃ r, r.code = 0x1060 ∧ r.severity = 2 ∧ exec (.engineError b false l) s =
      .next ((s.endList e.l.owner (Ending.faulted 0x1060 0 s.now)).raiseW (brickUnit b) 16 ((s.brickOwner b).getD 0) r
        (.desc (e.l.owner / 32) (e.l.owner % 32))))) ∧
  (∀ s, s.awake = true → exec (.patrolScrub .clean) s =
    .next { s with mortar := { s.mortar with scrubAt := (s.mortar.scrubAt + 1) % 6442450944 } }) ∧
  (∀ s row sy, s.awake = true → ∃ t, exec (.patrolScrub (.corrected row sy)) s = .next t ∧ t.mem = s.mem ∧
    t.mortar.scrubAt = (s.mortar.scrubAt + 1) % 6442450944) ∧
  (∀ s row sy pc d, s.awake = true → s.scrubLoc = (pc, some d) → ∃ t,
    exec (.patrolScrub (.uncorrectable false row sy)) s = .next t ∧ t.mem = s.mem.poisonAt (d / 64)) ∧
  (∀ s st m ms j js k, s.memoryOn = true → s.migrOf st = m :: ms → m.back = false → s.chunksLeft st m = j :: js →
    s.freeReserve st = some k → j ≠ 31 → ∃ t, exec (.chunkCopyDone st) s = .next t ∧
      t.mortar.remap = s.mortar.remap ++ [{ stack := st, slot := k, src := m.pc, chunk := j }] ∧ t.mem = s.mem) ∧
  (∀ s st m ms, s.memoryOn = true → s.migrOf st = m :: ms → m.back = false → s.chunksLeft st m = [] →
    ∃ t, exec (.chunkCopyDone st) s = .next t ∧ t.unit (pcUnit (st * 64 + m.pc)) = .retired ∧
      t.mortar.remap = s.mortar.remap ∧ t.mem = s.mem) ∧
  (∀ s st m ms j js, s.memoryOn = true → s.migrOf st = m :: ms → m.back = true → m.chunks = j :: js →
    ∃ t, exec (.copyBackChunkDone st) s = .next t ∧ t.mem = s.mem ∧ t.mortar.remap =
      s.mortar.remap.filter fun r => ! (r.stack == st && r.src == m.pc && r.chunk == j)) ∧
  (∀ s m ms n rest r, s.memoryOn = true → s.mortar.moves = m :: ms → m.back = false → m.nodes = n :: rest →
    s.nextSlice m.turn = some r → n < s.mortar.nodes.length → ∃ t, exec (.nodeMove []) s = .next t ∧ t.mem = s.mem ∧
      (t.mortar.nodes[n]?.map (·.current)) = some r ∧ ∀ k, k ≠ n → t.mortar.nodes[k]? = s.mortar.nodes[k]?)

/-- Each regulator of the Mortar die whose partition is allocated gains 20 or 16 times RATE bytes, never above BURST
times 1,024; nothing else changes. (R402) -/
def Obligations.RegulatorsRefill : Prop :=
  ∀ s m, s.memoryOn = true → ∃ t, exec (.bucketRefill m) s = .next t ∧ t = { s with mortar := t.mortar } ∧
    (∀ (i : Nat) (r : Regulator), s.mortar.regs[i]? = some r → i / 16 = m → (s.part (i % 16)).allocated = true →
      t.mortar.regs[i]? = some { r with
        tokens := min (bits (s.part (i % 16)).bwr 12 0 * 1024)
          (r.tokens + (if s.boot.rate64 = true then 16 else 20) * bits (s.part (i % 16)).bwr 24 16) }) ∧
    ∀ (i : Nat), i / 16 ≠ m → t.mortar.regs[i]? = s.mortar.regs[i]?

/-! ### Errors, repair and deadlines -/

/-- The error in hand is recorded, its severity acted on, and the next taken in hand; a DEVICE error ends all work
with FATAL_N; a handler without progress for 10 ms does the same; leaked weights leave their bucket. (R552, R557,
R562, R566, R567, R572) -/
def Obligations.ErrorsAreHandledInOrder : Prop :=
  (∀ s, s.phase = .up → s.repair.inHand = none → exec .errorHandle s = .next s) ∧
  (∀ s e, s.phase = .up → s.repair.inHand = some e → e.rec0.severity ≠ 4 →
    exec .errorHandle s = .next (((s.deliver { e.rec0 with queued := min 255 s.repair.queue.length } e.scope).nextError).consequence e)) ∧
  (∀ s e, s.phase = .up → s.repair.inHand = some e → e.rec0.severity ≤ 1 → e.rec0.permanent = false →
    e.rec0.escalated = false → ∃ t, exec .errorHandle s = .next t ∧ t.repair.inHand = s.repair.queue.head? ∧
      t.repair.queue = s.repair.queue.tail ∧ t.repair.units = s.repair.units ∧ t.lists = s.lists ∧ t.parts = s.parts ∧
      t.mem = s.mem) ∧
  (∀ s e, s.phase = .up → s.repair.inHand = some e → e.rec0.severity = 4 → ∃ t, exec .errorHandle s = .next t ∧
    t.phase = .stopped ∧ t.pins.fatalN = false ∧ t.lists = [] ∧ t.ctxs = [] ∧ t.chains = [] ∧ t.slots = [] ∧
    t.repair.inHand = none ∧ t.repair.queue = []) ∧
  (∀ s e, s.phase = .up → s.repair.inHand = some e → s.repair.handledAt + 10000000 ≤ s.now →
    ∃ t, exec .handlerTimeout s = .next t ∧ t.phase = .stopped ∧ t.pins.fatalN = false ∧ t.lists = [] ∧
      t.repair.inHand = none ∧ (t.wdn.gasp.head?.map (·.cause)) = some 6) ∧
  (∀ s, s.repair.inHand = none → exec .handlerTimeout s = .next s) ∧
  (∀ s u row, u.kind ≠ 4 → exec (.bucketLeak u row) s = .next { s with
    repair := { s.repair with buckets := setBucket s.repair.buckets (unitNum u) (s.bucketCount u) s.now } }) ∧
  (∀ s u row, u.kind = 4 → exec (.bucketLeak u row) s = .next { s with
    repair := { s.repair with
      rowBuckets := setRow s.repair.rowBuckets (u.index, row) (s.rowCount u.index row) s.now } })

/-- A readmission goes from self-test to probation to hand-over, and back to RETIRED where it fails; deadlines are
tested at each multiple of 1,000 ns, and nothing misses that is not late. (R578, R587, R588, R590) -/
def Obligations.ReadmissionsAndDeadlines : Prop :=
  (∀ s u, s.phase = .up → s.repair.readmit = some { unit := u, step := .selfTest } → u.kind ≠ 1 → u.kind ≠ 6 →
    exec (.selfTestDone true) s = .next { s with repair := { s.repair with
      readmit := some { unit := u, step := .probation (s.now + probationNs u.kind) } } }) ∧
  (∀ s u, s.phase = .up → s.repair.readmit = some { unit := u, step := .selfTest } → u.kind = 1 →
    ∃ t, exec (.selfTestDone true) s = .next t ∧ (u.index < s.bricks.length → t.brick u.index = BrickS.reset) ∧
      t.repair.readmit = some { unit := u, step := .probation (s.now + 10000000000) }) ∧
  (∀ s u, s.phase = .up → s.repair.readmit = some { unit := u, step := .selfTest } →
    exec (.selfTestDone false) s = .next (s.readmitFails u)) ∧
  (∀ s u k, s.phase = .up → s.repair.readmit = some { unit := u, step := .probation k } → k ≤ s.now → u.kind ≠ 6 →
    exec (.probationEnd true) s = .next { s with repair := { s.repair with
      readmit := some { unit := u, step := .handOver (s.lists.map (·.owner)) } } }) ∧
  (∀ s u k, s.phase = .up → s.repair.readmit = some { unit := u, step := .probation k } → s.now < k →
    exec (.probationEnd true) s = .next s) ∧
  (∀ s u k, s.phase = .up → s.repair.readmit = some { unit := u, step := .probation k } →
    exec (.probationEnd false) s = .next (s.readmitFails u)) ∧
  (∀ (s : State) u, (s.readmitFails u).unit u = .retired ∧ (s.readmitFails u).repair.readmit = none) ∧
  (∀ s u, s.phase = .up → s.repair.readmit = some { unit := u, step := .handOver [] } →
    ∃ t, exec .handOver s = .next t ∧ t.unit u = .inService ∧ t.repair.readmit = none ∧
      (u.kind = 1 → t.repair.buckets = mapDel (unitNum u) s.repair.buckets)) ∧
  (∀ s u l ls, s.phase = .up → s.repair.readmit = some { unit := u, step := .handOver (l :: ls) } →
    exec .handOver s = .next s) ∧
  (∀ s, s.phase = .up → s.now % 1000 = 0 → exec .deadlineTest s = .next (s.deadlineTests 256)) ∧
  (∀ s, s.now % 1000 ≠ 0 → exec .deadlineTest s = .next s) ∧
  (∀ s, s.phase = .up → s.now % 1000 = 0 →
    (∀ x ∈ s.slots, x.2.armed.isSome = true → x.2.missed = false → s.now ≤ x.2.deadline) →
    exec .deadlineTest s = .next s)

/-! ### Ingest -/

/-- A packet that fails a check is counted under the first reason; one that a rule takes stores its strip in its
frame's extent; one that no rule takes is dropped; links come and go with their port, and ARP is answered for the own
address only. (R408, R409, R410, R418, R421, R427, R461) -/
def Obligations.PacketsAndLinks : Prop :=
  (∀ s p r, s.awake = true → p.port < 4 → p.addressed = true → s.ingestUp p.port = true → p.fecBad = false →
    s.unit (ingUnit p.port) = .inService → pktReason p = some r →
    exec (.ingestPacket p) s = .next (s.modIport p.port fun q => { q with
      drops := q.drops.modify r fun k => min (k + 1) (2 ^ 64 - 1) })) ∧
  (∀ p, (p.fcsOk = false → pktReason p = some 0) ∧
    (p.fcsOk = true → p.fecBad = false → p.bufferFull = true → pktReason p = some 9) ∧
    (p.fcsOk = true → p.fecBad = false → p.bufferFull = false → p.udp = false → pktReason p = some 1) ∧
    (p.fcsOk = true → p.fecBad = false → p.bufferFull = false → p.udp = true → p.fragment = true → pktReason p = some 2) ∧
    (p.fcsOk = true → p.fecBad = false → p.bufferFull = false → p.udp = true → p.fragment = false →
      p.checksumOk = false → pktReason p = some 3)) ∧
  (∀ s p, s.awake = true → p.port < 4 → p.addressed = true → s.ingestUp p.port = true → p.fecBad = false →
    s.unit (ingUnit p.port) = .inService → pktReason p = none →
    (∀ n, n < 128 → s.ruleLive n = true → (s.rule n).fits p (parseStrip p.payload).srcByte = false) →
    exec (.ingestPacket p) s = .next (s.dropPkt p.port 5)) ∧
  (∀ s p w n e f, s.awake = true → p.port < 4 → p.addressed = true → s.ingestUp p.port = true → p.fecBad = false →
    s.unit (ingUnit p.port) = .inService → pktReason p = none →
    (List.range 128).filter (fun n => s.ruleLive n && (s.rule n).fits p (parseStrip p.payload).srcByte) = [w] →
    (s.rule w).drop = false → (s.rule w).stream = n → (s.rule w).role = false → s.strOn n = true →
    (s.istream n).halted = false → (parseStrip p.payload).agrees (s.srcCfg (parseStrip p.payload).srcByte) = true →
    s.epoch? n (parseStrip p.payload).exposure = some e → e.state = .gathering →
    e.frames.find? (fun f => f.source == (parseStrip p.payload).srcByte) = some f → f.ts = (parseStrip p.payload).ts →
    (parseStrip p.payload).index ∉ f.strips → (s.iport p.port).handOver = none → s.tabLost = false →
    ∃ t, exec (.ingestPacket p) s = .next t ∧ t.mem = (s.stores ((parseStrip p.payload).stores
      (s.srcCfg (parseStrip p.payload).srcByte) f (p.payload.drop 32) s.mem)).mem ∧ t.regs = s.regs) ∧
  (∀ s p, s.phase = .up → s.boot.ready = true → p.port < 4 → p.addressed = true → s.ingestUp p.port = true →
    s.wdn.st = .doze → p.fcsOk = true → p.fecBad = false →
    exec (.ingestPacket p) s = .next (s.dropPkt p.port 11).wakeUp) ∧
  (∀ s p, s.phase = .up → s.boot.ready = true → p.port < 4 → p.addressed = false → exec (.ingestPacket p) s = .next s) ∧
  (∀ s q, s.online = true → q < 4 → bit (s.regN (0x400100 + 0x100 * q)) 0 = true → s.unit (ingUnit q) = .inService →
    RefClk.ing ∉ s.pins.lostClks →
    exec (.ingestLinkUp q) s = .next (s.modIport q fun p => { p with linkUp := true })) ∧
  (∀ s q, s.online = true → q < 4 → s.ingestUp q = true → exec (.ingestLinkLost q) s =
    .next ((s.modIport q fun p => { p with linkUp := false }).iportErr q 0x4031 2 16)) ∧
  (∀ s q, s.ingestUp q = false → exec (.ingestLinkLost q) s = .next s) ∧
  (∀ s r, s.awake = true → r.port < 4 → s.ingestUp r.port = true → s.unit (ingUnit r.port) = .inService →
    r.ipv6 = false → r.target = s.regN (0x400110 + 0x100 * r.port) →
    exec (.arpRequest r) s = .next (s.emit (.eth r.port false))) ∧
  (∀ s r, r.ipv6 = false → r.target ≠ s.regN (0x400110 + 0x100 * r.port) → exec (.arpRequest r) s = .next s)

/-- An epoch closes at its limit, is fused in order with its planes stored, halts its stream at D4, and is free once
its record is written. (R429, R432, R433, R454, R455) -/
def Obligations.EpochsCloseFuseAndAreWritten : Prop :=
  (∀ s n x e, s.awake = true → s.epoch? n x = some e → e.state = .gathering → e.tOpen + s.strW n 0x10 * 1000 ≤ s.now →
    ∃ t, exec (.gatherLimit n x) s = .next t ∧
      t.epoch? n x = some { e with state := .closing, tClose := s.now, reason := 1 } ∧ t.mem = s.mem) ∧
  (∀ s n x e, s.epoch? n x = some e → s.now < e.tOpen + s.strW n 0x10 * 1000 → exec (.gatherLimit n x) s = .next s) ∧
  (∀ s n x e, s.awake = true → s.epoch? n x = some e → s.nextToFuse n x = true →
    (∀ w ∈ (s.fuse n e).stores, s.keylessAt (s.strPart n) w.addr w.bytes.length = false) →
    ∃ t, exec (.fusionStart n x) s = .next t ∧
      t.epoch? n x = some { e with state := .fusing, out := some (s.fuse n e).out } ∧
      t.mem = (s.stores (s.fuse n e).stores).mem ∧
      ((s.fuse n e).out.level = 4 → (t.istream n).halted = true ∧ (t.istream n).epochs.all (fun d => d.exposure == x) = true)) ∧
  (∀ s n x, s.nextToFuse n x = false → exec (.fusionStart n x) s = .next s) ∧
  (∀ s n x e o, s.awake = true → s.epoch? n x = some e → e.out = some o → s.keylessAt (s.strPart n) (s.slotAt n x) 1 = false →
    ∃ t, exec (.epochWritten n x) s = .next t ∧ t.epoch? n x = none ∧
      t.mem = s.mem.put 64 (s.slotAt n x) (s.epochRecord n e o) ∧ t.wdn.idleSince = s.now)

/-! ### Hawser -/

/-- A trained port awaits its binding; the right partner brings it UP and announces it, a wrong one or none within 35
s holds it; a lost link starts over with 0x3001. (R472) -/
def Obligations.PortsComeUpBound : Prop :=
  (∀ s p, s.online = true → (s.port p).state = .training → RefClk.link ∉ s.pins.lostClks →
    exec (.linkTrained p) s = .next (s.modPort p fun q => { q with state := .binding, bindAt := s.now, replayCount := 0 })) ∧
  (∀ s p, s.online = true → (s.port p).state = .binding ∨ (s.port p).state = .held ∨ (s.port p).state = .up ∨
    (s.port p).state = .probation → exec (.lldpSend p) s = .next (s.emit (.lldp p))) ∧
  (∀ s p mac partner retry, s.online = true → (s.port p).state = .binding ∨ (s.port p).state = .held →
    (s.binding p).mac = mac → (s.binding p).partnerPort = partner → s.haw.secrets ≠ [] → s.repair.readmit = none →
    exec (.lldpReceived p mac partner retry) s = .next
      (((s.modPort p fun q => { q with retry := retry, bindAt := s.now }).modPort p fun q => { q with state := .up }).tellUp p)) ∧
  (∀ s p mac partner retry, s.online = true → (s.port p).state = .binding → s.unit (hawUnit p) ≠ .readmitting →
    (s.binding p).mac ≠ mac ∨ (s.binding p).partnerPort ≠ partner →
    ∃ t, exec (.lldpReceived p mac partner retry) s = .next t ∧ (p < s.haw.ports.length → (t.port p).state = .held) ∧
      t.mem = s.mem ∧ t.repair.units = s.repair.units) ∧
  (∀ s p, s.online = true → (s.port p).state = .binding → s.unit (hawUnit p) ≠ .readmitting →
    (s.port p).bindAt + 35000000000 ≤ s.now → ∃ t, exec (.bindingTimeout p) s = .next t ∧
      (p < s.haw.ports.length → (t.port p).state = .held) ∧ t.mem = s.mem) ∧
  (∀ s p, s.now < (s.port p).bindAt + 35000000000 → exec (.bindingTimeout p) s = .next s) ∧
  (∀ s p, s.online = true → (s.port p).state = .up → exec (.hawserLinkLost p) s =
    .next ((s.portOut p .training false).portErr p 0x3001 2 16 0 0 0 0)) ∧
  (∀ s p, (s.port p).state = .down ∨ (s.port p).state = .training → exec (.hawserLinkLost p) s = .next s)

/-- Each of the nine frame commands, given a frame that does not authenticate, counts it and raises 0x3006; given a
frame on a port that takes none, changes nothing. (R479, R615) -/
def Obligations.UnauthenticFramesAreDropped : Prop :=
  ∀ s h i, i ∈ [Instr.write h, .readReq h, .readResp h, .collData h, .collCtrl h, .ack h, .nak h, .probe h, .portState h] →
    (s.online = true → s.takes h.port = true → s.authentic h = false → exec i s = .next
      ((s.modPort h.port fun p => { p with authFail := min (p.authFail + 1) (2 ^ 32 - 1) }).portErr h.port 0x3006 0 1
        h.src h.lane 0 0)) ∧
    (s.online = false ∨ s.takes h.port = false → exec i s = .next s)

/-- A frame with the expected PSN is served: a WRITE stores exactly its bytes where the job's windows allow, a
READ_REQ queues the bytes asked for, data goes to the command that waits; any other PSN is answered with a NAK. (R474,
R476, R480, R482, R483, R493) -/
def Obligations.SequencedFramesAreServed : Prop :=
  (∀ s h n, Hears s h → let u := (s.acked h).wakeUp
    h.psn = (u.conn h.src h.lane).rxNext → (u.took h).jobPart h.job = some n →
    (u.took h).denies n (beNat (sliceB h.op 0 8)) h.data.length = false →
    ∃ t, exec (.write h) s = .next t ∧ t.mem = u.mem.put 64 (beNat (sliceB h.op 0 8)) h.data ∧
      (t.conn h.src h.lane).rxNext = (h.psn + 1) % 2 ^ 32) ∧
  (∀ s h, Hears s h → let u := (s.acked h).wakeUp
    h.psn = (u.conn h.src h.lane).rxNext → (u.took h).jobPart h.job = none →
    ∃ t, exec (.write h) s = .next t ∧ t.mem = u.mem) ∧
  (∀ s h, Hears s h → let u := (s.acked h).wakeUp
    h.psn ≠ (u.conn h.src h.lane).rxNext →
    let out := u.sendCtrl h.src h.lane 7 0 (nakOp 0 0 (u.conn h.src h.lane).rxNext) []
    exec (.write h) s = .next out ∧ exec (.readReq h) s = .next out ∧ exec (.collData h) s = .next out) ∧
  (∀ s h n, Hears s h → let u := (s.acked h).wakeUp
    let off := beNat (sliceB h.op 0 8)
    let len := min 8192 (beNat (sliceB h.op 12 4))
    h.psn = (u.conn h.src h.lane).rxNext → (u.took h).jobPart h.job = some n → (u.took h).denies n off len = false →
    u.mem.poisoned off len = false → (u.planeFor h.src h.lane).isSome = true →
    ∃ t f, exec (.readReq h) s = .next t ∧ t.mem = u.mem ∧ f ∈ (t.conn h.src h.lane).unacked ∧ f.type = 3 ∧
      f.data = u.mem.read off len ∧ f.op = opHead off (beNat (sliceB h.op 8 4)) len) ∧
  (∀ s h, Hears s h → h.psn = ((s.acked h).conn h.src h.lane).rxNext → exec (.readResp h) s = .next
    ((((s.acked h).took h).answered (beNat (sliceB h.op 8 4)) h.data).ackAt32 h)) ∧
  (∀ s h c, Hears s h → let u := (s.acked h).wakeUp
    let key := frameKey h.op (bits (beNat (sliceB h.op 8 4)) 31 24)
    h.psn = (u.conn h.src h.lane).rxNext → (u.took h).coll? key = some c → exec (.collData h) s = .next
      ((((u.took h).modColl key fun c => { c with nodes := c.nodes ++ [frameNode h], progress := u.now }).pump key).ackAt32 h))

/-- Acknowledgements, aborts, refusals, probes and announcements take their effect; a frame of a reserved type is
dropped and counted. (R474, R475, R476, R482, R490, R492, R497) -/
def Obligations.ControlFramesAct : Prop :=
  (∀ s h, Hears s h → exec (.ack h) s = .next (s.acked h)) ∧
  (∀ s h c, Hears s h → beNat (sliceB h.op 0 1) = 1 →
    (s.acked h).wakeUp.coll? (frameKey (h.op.drop 4) (beNat (sliceB h.op 12 4))) = some c →
    exec (.collCtrl h) s = .next ((s.acked h).wakeUp.collAborted c (beNat (sliceB h.op 2 2)))) ∧
  (∀ s h, Hears s h → 4 ≤ beNat (sliceB h.op 0 1) → exec (.collCtrl h) s = .next (s.acked h).wakeUp) ∧
  (∀ s h, Hears s h → (∀ c ∈ s.haw.conns, ∀ f ∈ c.unacked, f.psn < 2 ^ 32) → beNat (sliceB h.op 0 1) = 1 →
    exec (.nak h) s = .next ((s.remoteFault (beNat (sliceB h.op 4 4))
      (if beNat (sliceB h.op 2 2) = 0x2003 then 0x2003 else 0x3020)).acked h)) ∧
  (∀ s h, Hears s h → beNat (sliceB h.op 0 1) = 0 → exec (.probe h) s = .next
    ((s.acked h).xmit h.port h.src h.lane 8 0 0 (1 :: List.replicate 15 0) [])) ∧
  (∀ s h, Hears s h → beNat (sliceB h.op 0 1) = 1 → exec (.probe h) s = .next
    ((s.acked h).modPort h.port fun p => { p with probed := setIns h.src p.probed })) ∧
  (∀ s h, Hears s h → beNat (sliceB h.op 1 1) = 1 → ∃ t, exec (.portState h) s = .next t ∧
    (beNat (sliceB h.op 0 1)) ∈ t.planesOf h.src ∧ t = { s.acked h with haw := t.haw }) ∧
  (∀ s p type, s.online = true → s.takes p = true → type = 0 ∨ (10 ≤ type ∧ type ≤ 15) →
    exec (.hawserReservedFrame p type) s = .next { s with haw := { s.haw with reserved := s.haw.reserved + 1 } })

/-- A pause holds its priority; a due acknowledgement is sent; a frame is replayed or resent up to eight attempts,
after which the link retrains or the connection is reset. (R471, R475, R476, R477, R558) -/
def Obligations.LinkTimersRetryAndReset : Prop :=
  (∀ s p prio, s.online = true → exec (.pfcPause p prio true) s =
    .next (s.modPort p fun q => { q with paused := setIns prio q.paused })) ∧
  (∀ s p prio, s.online = true → exec (.pfcPause p prio false) s =
    .next ((s.modPort p fun q => { q with paused := setDel prio q.paused }).unpause p prio)) ∧
  (∀ s chip lane, s.online = true → 0 < (s.conn chip lane).rxOwed → ∃ t, exec (.ackTimer chip lane) s = .next t ∧
    (t.conn chip lane).rxOwed = 0 ∧ t.mem = s.mem) ∧
  (∀ s chip lane, (s.conn chip lane).rxOwed = 0 → exec (.ackTimer chip lane) s = .next s) ∧
  (∀ s p, s.online = true → s.takes p = true → (s.port p).retry = true → (s.port p).replayCount < 8 →
    exec (.replayTimer p) s = .next (s.modPort p fun q => { q with
      replayCount := q.replayCount + 1, replays := min (q.replays + 1) (2 ^ 64 - 1) })) ∧
  (∀ s p, s.online = true → s.takes p = true → (s.port p).retry = true → 8 ≤ (s.port p).replayCount →
    exec (.replayTimer p) s = .next ((s.portOut p .training false).portErr p 0x3004 0 4 0 0 0 8)) ∧
  (∀ s p, (s.port p).retry = false → exec (.replayTimer p) s = .next s) ∧
  (∀ s chip lane f fs, s.online = true → (s.conn chip lane).unacked = f :: fs → 1 ≤ f.attempts → f.attempts < 8 →
    exec (.retransmitTimer chip lane) s = .next (s.resend chip lane 1)) ∧
  (∀ s chip lane f fs, s.online = true → (s.conn chip lane).unacked = f :: fs → 8 ≤ f.attempts →
    exec (.retransmitTimer chip lane) s = .next (forAll (f :: fs) State.lostFrame
      (s.setConn { s.conn chip lane with txPsn := 0, unacked := [] }))) ∧
  (∀ s p, s.online = true → s.takes p = true → (s.port p).retry = false →
    exec (.hawserFcsFailure p false) s = .next s) ∧
  (∀ s p, s.online = true → s.takes p = true → (s.port p).retry = false →
    ∃ r, r.code = 0x3005 ∧ r.severity = 0 ∧ exec (.hawserFcsFailure p true) s = .next (s.unitErr (hawUnit p) 1 0 r)) ∧
  (∀ s p, s.online = true → s.takes p = true → (s.port p).retry = true →
    exec (.hawserFcsFailure p false) s = .next (s.xmit p 0 0 7 0 0 (nakOp 2 0 0) []))

/-! ### The warden -/

/-- A power loss out of reset writes a last-gasp record, loses memory and keeps fuses and flash; a thermal trip holds
every island stopped. (R55, R60, R574, R582) -/
def Obligations.PowerAndTemperatureStops : Prop :=
  (∀ s, s.phase = .up → ∃ t, exec .powerLoss s = .next t ∧ t.phase = .held ∧ t.pins.pwrGood = false ∧ t.mem = Mem.empty ∧
    t.wdn.gaspSeq = s.wdn.gaspSeq + 1 ∧ (t.wdn.gasp.head?.map (·.cause)) = some 5 ∧ t.fuses = s.fuses ∧ t.flash = s.flash) ∧
  (∀ s, s.phase = .held → exec .powerLoss s = .next { s with pins := { s.pins with pwrGood := false } }) ∧
  (∀ s die, s.phase ≠ .held → die < 40 → exec (.thermTrip die) s =
    .next { s with pins := { s.pins with thermTripN := false }, phase := .dark }) ∧
  (∀ s die, s.phase = .held → exec (.thermTrip die) s = .next s)

/-- A sample in range enters the filter: the latest value until five valid samples exist, then y + ((m - y) >> k) with
m the median of the last five; one out of range is counted, and the fifth in a row fails the sensor. (R522, R523) -/
def Obligations.SamplesAreFiltered : Prop :=
  (∀ s i raw v, s.wardenOn = true → i < 96 → (s.sensor i).failed = false → sampleOf i raw = some v →
    exec (.sensorSample i raw) s = .next (s.modSensor i fun x => x.take (sensorShift i) v)) ∧
  (∀ s i raw, s.wardenOn = true → i < 96 → (s.sensor i).failed = false → sampleOf i raw = none → (s.sensor i).invalid < 4 →
    exec (.sensorSample i raw) s = .next (s.modSensor i fun x => { x with invalid := x.invalid + 1 })) ∧
  (∀ s i raw, s.wardenOn = true → i < 96 → (s.sensor i).failed = false → sampleOf i raw = none → (s.sensor i).invalid = 4 →
    i < s.wdn.sensors.length → ∃ t, exec (.sensorSample i raw) s = .next t ∧ (t.sensor i).failed = true ∧
      t.pins.alertN = false) ∧
  (∀ s i raw v, s.wardenOn = true → 96 ≤ i → i < 144 → s.fuses.solitary = false → (s.sensor i).failed = false →
    sampleOf i raw = some v →
    exec (.sensorSample i raw) s = .next ((s.modSensor i fun x => x.take (sensorShift i) v).checkVolt (i - 96))) ∧
  (∀ s i raw, (s.sensor i).failed = true → exec (.sensorSample i raw) s = .next s) ∧
  (∀ (x : Sensor) k v, x.samples.length < 4 → (x.take k v).y = v) ∧
  (∀ (x : Sensor) k v, 4 ≤ x.samples.length →
    (x.take k v).y = x.y + (median5 ((v :: x.samples).take 5) - x.y) / 2 ^ k) ∧
  (∀ (x : Sensor) k v, (x.take k v).samples = (v :: x.samples).take 5 ∧ (x.take k v).invalid = 0) ∧
  (∀ i raw, i < 96 → (sampleOf i raw = none ↔ sext 16 raw < -320 ∨ 1200 < sext 16 raw)) ∧
  (∀ i raw, i < 96 → ∀ v, sampleOf i raw = some v → v = sext 16 raw) ∧
  (∀ i raw, 96 ≤ i → (sampleOf i raw = none ↔ raw % 65536 = 0)) ∧
  (∀ i raw, 96 ≤ i → ∀ v, sampleOf i raw = some v → v = (raw % 65536 : Nat)) ∧
  (∀ a b c d e : Int, a ≤ b → b ≤ c → c ≤ d → d ≤ e → ∀ l, l.Perm [a, b, c, d, e] → median5 l = c)

/-- Level changes take effect when their voltage is ready; an AVSBus transaction completes, is retried three times or
raises 0x5020; estimates sum V x I; a restart of the warden abandons rises. (R519, R531, R537, R538, R549, R550) -/
def Obligations.TheWardenDecides : Prop :=
  (∀ s, s.wardenOn = false → exec .decisionPeriod s = .next s) ∧
  (∀ s, s.wardenOn = true → exec .decisionPeriod s = .next (decisionPeriod s)) ∧
  (∀ s b n, s.phase = .up → (s.bp b).next = some n → (s.bp b).level < n →
    exec (.levelChange b) s = .next (s.modBp b fun p => { p with level := n, next := none }).lowerRails) ∧
  (∀ s b n, s.phase = .up → (s.bp b).next = some n → n ≤ (s.bp b).level →
    levelVolt s.fuses.solitary n < s.wdn.course.getD (b / 4) 0 ∨ s.voltReady b n = true →
    exec (.levelChange b) s = .next (s.modBp b fun p => { p with level := n, next := none }).lowerRails) ∧
  (∀ s b, (s.bp b).next = none → exec (.levelChange b) s = .next s) ∧
  (∀ s rail mv k, s.wardenOn = true → s.wdn.avs = some (rail, mv, k) → exec (.avsResponse true) s = .next { s with
    wdn := { s.wdn with avs := none, course := s.wdn.course.modify rail fun _ => mv } }) ∧
  (∀ s rail mv k, s.wardenOn = true → s.wdn.avs = some (rail, mv, k) → k < 4 → exec (.avsResponse false) s = .next
    ({ s with wdn := { s.wdn with avs := some (rail, mv, k + 1) } }.emit (.avs rail mv))) ∧
  (∀ s rail mv k, s.wardenOn = true → s.wdn.avs = some (rail, mv, k) → 4 ≤ k → ∃ t, exec (.avsResponse false) s = .next t ∧
    t.wdn.avs = none ∧ t.wdn.course = s.wdn.course ∧ t.pins.alertN = false) ∧
  (∀ s rails rest, s.wardenOn = true → rails.length = 7 → (∀ r ∈ rails, r.ok = true) →
    ¬ (2800000 ≤ (rails.map fun r => r.mv * r.ma).sum / 1000 + rest ∧ 2800000 ≤ s.wdn.power.headD 0) →
    ∃ t, exec (.powerEstimate rails rest) s = .next t ∧
      t.wdn.power = (((rails.map fun r => r.mv * r.ma).sum / 1000 + rest) :: s.wdn.power).take 1000 ∧
      t.wdn.lastMa = rails.map (·.ma) ∧ t = { s with wdn := t.wdn }) ∧
  (∀ s, s.wardenOn = true → ∃ t, exec .wardenWatchdog s = .next t ∧ t.pins.alertN = false ∧ t.mem = s.mem ∧
    ∀ b n, b < 16 → (t.bp b).next = some n → (t.bp b).level ≤ n)

/-- The device falls to IDLE, DOZE and WARDEN when its timers run out and nothing keeps it up, never where a timer is
0, and wakes on a request of the host or at its wake time. (R540, R541, R543, R544) -/
def Obligations.PowerStatesFollowTheirTimers : Prop :=
  (∀ s, s.phase = .up → s.boot.ready = true → s.wdn.st = .run → s.wdn.busy = false → s.quiet = true →
    s.wdn.idleSince + bits (s.regN 0x600824) 13 0 * 1000 ≤ s.now → exec .idleTimeout s = .next (s.setPwr .idle)) ∧
  (∀ s, s.phase = .up → s.wdn.st = .idle → s.wdn.busy = false → bits (s.regN 0x600828) 15 0 ≠ 0 → s.epochsFree = true →
    s.settledUnits = true → s.wdn.idleSince + bits (s.regN 0x600828) 15 0 * 1000000 ≤ s.now →
    (∃ b ∈ s.bricks, b.powered = true) → ∃ t, exec .dozeTimeout s = .next t ∧ t.wdn.busy = true ∧ t.wdn.st = .idle ∧
      (∀ b ∈ t.bricks, b.powered = true → b.drain = some .doze) ∧ t.mem = s.mem) ∧
  (∀ s, s.phase = .up → s.wdn.st = .doze → bits (s.regN 0x60082C) 15 0 ≠ 0 →
    s.wdn.dozeSince + bits (s.regN 0x60082C) 15 0 * 1000000000 ≤ s.now →
    ∃ t, exec .wardenTimeout s = .next t ∧ t.wdn.st = .warden ∧ t.wdn.railReq = 0x380 ∧ t.mem = Mem.empty) ∧
  (∀ s, bits (s.regN 0x60082C) 15 0 = 0 → exec .wardenTimeout s = .next s) ∧
  (∀ s, bits (s.regN 0x600828) 15 0 = 0 → exec .dozeTimeout s = .next s) ∧
  (∀ s port memory, s.phase = .up → s.wdn.st = .doze → ∃ t, exec (.hostWakeRequest port memory) s = .next t ∧
    t.wdn.st = .run ∧ t.mem = s.mem) ∧
  (∀ s, s.phase = .up → s.wdn.st = .warden → s.wdn.waking = false → ∃ t, exec (.hostWakeRequest 0 true) s = .next t ∧
    t.wdn.waking = true ∧ t.wdn.busy = true ∧ t.wdn.st = .warden ∧
    t.wdn.railReq = (if s.fuses.solitary = true then 0x3BF else 0x3FF)) ∧
  (∀ s, s.phase = .up → s.wdn.st = .warden → exec (.hostWakeRequest 1 true) s = .next s) ∧
  (∀ s, s.phase = .up → s.wdn.st = .doze → s.reg64 0x600830 ≠ 0 → s.wdn.dozeSince ≤ s.reg64 0x600830 →
    s.reg64 0x600830 ≤ s.now → ∃ t, exec .wakeTime s = .next t ∧ t.wdn.st = .run ∧ t.mem = s.mem) ∧
  (∀ s, s.now < s.reg64 0x600830 → exec .wakeTime s = .next s)

/-- The return from WARDEN trains, tests and starts empty bricks; a drained brick is reset or powered down; a drain
that times out poisons exactly the locations of the stores left, or calls DOZE off. (R543, R547, R548, R582) -/
def Obligations.WakesAndDrainsFinish : Prop :=
  (∀ s i f u v, s.phase = .up → s.wdn.st = .warden → s.wdn.waking = true → s.train i = some u →
    ({ u with mem := Mem.empty }).selfTests f = some v → ∃ t, exec (.railsInRegulation i f) s = .next t ∧ t.wdn.st = .run ∧
      t.wdn.waking = false ∧ t.wdn.busy = false ∧
      t.bricks = (List.range 16).map fun b => { BrickS.reset with powered := v.unit (brickUnit b) == UnitState.inService }) ∧
  (∀ s i f, s.phase = .up → s.wdn.st = .warden → s.wdn.waking = true → s.train i = none →
    exec (.railsInRegulation i f) s = .next s.bootFails) ∧
  (∀ s i f, s.wdn.waking = false → exec (.railsInRegulation i f) s = .next s) ∧
  (∀ s b n, s.phase = .up → (s.brick b).drain = some (.reset n) → b < s.bricks.length →
    ∃ t, exec (.storeDrain b) s = .next t ∧ t.brick b = BrickS.reset ∧ t.mem = s.mem ∧
      ((s.part n).resetting = true → (∀ k, k ≠ b → (s.brick k).drain ≠ some (.reset n)) → n < s.parts.length →
        (t.part n).resetting = false)) ∧
  (∀ s b, s.phase = .up → (s.brick b).drain = some .doze → b < s.bricks.length → s.wdn.busy = true → s.wdn.st = .idle →
    s.wdn.waking = false → (∀ k, k ≠ b → (s.brick k).drain ≠ some .doze) →
    ∃ t, exec (.storeDrain b) s = .next t ∧ t.wdn.st = .doze ∧ t.wdn.busy = false ∧ (t.brick b).powered = false) ∧
  (∀ s b, (s.brick b).drain = none → exec (.storeDrain b) s = .next s ∧ ∀ l, exec (.drainTimeout b l) s = .next s) ∧
  (∀ s b l, s.phase = .up → (s.brick b).drain = some .doze → ∃ t, exec (.drainTimeout b l) s = .next t ∧
    t.mem = s.mem ∧ t.wdn.busy = false ∧ t.wdn.st = (if s.wdn.waking = true then .run else .idle)) ∧
  (∀ s b l n, s.phase = .up → (s.brick b).drain = some (.reset n) → b < s.bricks.length → (∀ x ∈ l, x < 6241124352) →
    ∃ t, exec (.drainTimeout b l) s = .next t ∧ t.mem = l.foldl Mem.poisonAt s.mem ∧ t.brick b = BrickS.reset)
end

