-- ==== Sys2Proof/Laws/State.lean ====
section
/-! SUPPORT. What the plain updates of the state leave: one lemma for each update and each field it does not write, so that
no later proof unfolds a record update. -/

namespace Sys2Proof.Machine

/-! ### emit -/

@[simp] theorem State.emit_pending (s : State) (o : Out) :
    (s.emit o).pending = s.pending := rfl
@[simp] theorem State.emit_free (s : State) (o : Out) :
    (s.emit o).free = s.free := rfl
@[simp] theorem State.emit_phase (s : State) (o : Out) :
    (s.emit o).phase = s.phase := rfl
@[simp] theorem State.emit_fuses (s : State) (o : Out) :
    (s.emit o).fuses = s.fuses := rfl
@[simp] theorem State.emit_pins (s : State) (o : Out) :
    (s.emit o).pins = s.pins := rfl
@[simp] theorem State.emit_time (s : State) (o : Out) :
    (s.emit o).time = s.time := rfl
@[simp] theorem State.emit_ptp (s : State) (o : Out) :
    (s.emit o).ptp = s.ptp := rfl
@[simp] theorem State.emit_boot (s : State) (o : Out) :
    (s.emit o).boot = s.boot := rfl
@[simp] theorem State.emit_flash (s : State) (o : Out) :
    (s.emit o).flash = s.flash := rfl
@[simp] theorem State.emit_regs (s : State) (o : Out) :
    (s.emit o).regs = s.regs := rfl
@[simp] theorem State.emit_lowWords (s : State) (o : Out) :
    (s.emit o).lowWords = s.lowWords := rfl
@[simp] theorem State.emit_latches (s : State) (o : Out) :
    (s.emit o).latches = s.latches := rfl
@[simp] theorem State.emit_locked (s : State) (o : Out) :
    (s.emit o).locked = s.locked := rfl
@[simp] theorem State.emit_wrIgnored (s : State) (o : Out) :
    (s.emit o).wrIgnored = s.wrIgnored := rfl
@[simp] theorem State.emit_wrLast (s : State) (o : Out) :
    (s.emit o).wrLast = s.wrLast := rfl
@[simp] theorem State.emit_parts (s : State) (o : Out) :
    (s.emit o).parts = s.parts := rfl
@[simp] theorem State.emit_pages (s : State) (o : Out) :
    (s.emit o).pages = s.pages := rfl
@[simp] theorem State.emit_hio1Down (s : State) (o : Out) :
    (s.emit o).hio1Down = s.hio1Down := rfl
@[simp] theorem State.emit_hio0Up (s : State) (o : Out) :
    (s.emit o).hio0Up = s.hio0Up := rfl
@[simp] theorem State.emit_vfEnable (s : State) (o : Out) :
    (s.emit o).vfEnable = s.vfEnable := rfl
@[simp] theorem State.emit_chains (s : State) (o : Out) :
    (s.emit o).chains = s.chains := rfl
@[simp] theorem State.emit_slots (s : State) (o : Out) :
    (s.emit o).slots = s.slots := rfl
@[simp] theorem State.emit_lists (s : State) (o : Out) :
    (s.emit o).lists = s.lists := rfl
@[simp] theorem State.emit_ctxs (s : State) (o : Out) :
    (s.emit o).ctxs = s.ctxs := rfl
@[simp] theorem State.emit_bricks (s : State) (o : Out) :
    (s.emit o).bricks = s.bricks := rfl
@[simp] theorem State.emit_mem (s : State) (o : Out) :
    (s.emit o).mem = s.mem := rfl
@[simp] theorem State.emit_windows (s : State) (o : Out) :
    (s.emit o).windows = s.windows := rfl
@[simp] theorem State.emit_resvStatus (s : State) (o : Out) :
    (s.emit o).resvStatus = s.resvStatus := rfl
@[simp] theorem State.emit_mortar (s : State) (o : Out) :
    (s.emit o).mortar = s.mortar := rfl
@[simp] theorem State.emit_repair (s : State) (o : Out) :
    (s.emit o).repair = s.repair := rfl
@[simp] theorem State.emit_ing (s : State) (o : Out) :
    (s.emit o).ing = s.ing := rfl
@[simp] theorem State.emit_haw (s : State) (o : Out) :
    (s.emit o).haw = s.haw := rfl
@[simp] theorem State.emit_wdn (s : State) (o : Out) :
    (s.emit o).wdn = s.wdn := rfl
@[simp] theorem State.emit_sec (s : State) (o : Out) :
    (s.emit o).sec = s.sec := rfl
@[simp] theorem State.emit_dbg (s : State) (o : Out) :
    (s.emit o).dbg = s.dbg := rfl

/-! ### drew -/

@[simp] theorem State.drew_pending (s : State) (n : Nat) :
    (s.drew n).pending = s.pending := rfl
@[simp] theorem State.drew_outs (s : State) (n : Nat) :
    (s.drew n).outs = s.outs := rfl
@[simp] theorem State.drew_phase (s : State) (n : Nat) :
    (s.drew n).phase = s.phase := rfl
@[simp] theorem State.drew_fuses (s : State) (n : Nat) :
    (s.drew n).fuses = s.fuses := rfl
@[simp] theorem State.drew_pins (s : State) (n : Nat) :
    (s.drew n).pins = s.pins := rfl
@[simp] theorem State.drew_time (s : State) (n : Nat) :
    (s.drew n).time = s.time := rfl
@[simp] theorem State.drew_ptp (s : State) (n : Nat) :
    (s.drew n).ptp = s.ptp := rfl
@[simp] theorem State.drew_boot (s : State) (n : Nat) :
    (s.drew n).boot = s.boot := rfl
@[simp] theorem State.drew_flash (s : State) (n : Nat) :
    (s.drew n).flash = s.flash := rfl
@[simp] theorem State.drew_regs (s : State) (n : Nat) :
    (s.drew n).regs = s.regs := rfl
@[simp] theorem State.drew_lowWords (s : State) (n : Nat) :
    (s.drew n).lowWords = s.lowWords := rfl
@[simp] theorem State.drew_latches (s : State) (n : Nat) :
    (s.drew n).latches = s.latches := rfl
@[simp] theorem State.drew_locked (s : State) (n : Nat) :
    (s.drew n).locked = s.locked := rfl
@[simp] theorem State.drew_wrIgnored (s : State) (n : Nat) :
    (s.drew n).wrIgnored = s.wrIgnored := rfl
@[simp] theorem State.drew_wrLast (s : State) (n : Nat) :
    (s.drew n).wrLast = s.wrLast := rfl
@[simp] theorem State.drew_parts (s : State) (n : Nat) :
    (s.drew n).parts = s.parts := rfl
@[simp] theorem State.drew_pages (s : State) (n : Nat) :
    (s.drew n).pages = s.pages := rfl
@[simp] theorem State.drew_hio1Down (s : State) (n : Nat) :
    (s.drew n).hio1Down = s.hio1Down := rfl
@[simp] theorem State.drew_hio0Up (s : State) (n : Nat) :
    (s.drew n).hio0Up = s.hio0Up := rfl
@[simp] theorem State.drew_vfEnable (s : State) (n : Nat) :
    (s.drew n).vfEnable = s.vfEnable := rfl
@[simp] theorem State.drew_chains (s : State) (n : Nat) :
    (s.drew n).chains = s.chains := rfl
@[simp] theorem State.drew_slots (s : State) (n : Nat) :
    (s.drew n).slots = s.slots := rfl
@[simp] theorem State.drew_lists (s : State) (n : Nat) :
    (s.drew n).lists = s.lists := rfl
@[simp] theorem State.drew_ctxs (s : State) (n : Nat) :
    (s.drew n).ctxs = s.ctxs := rfl
@[simp] theorem State.drew_bricks (s : State) (n : Nat) :
    (s.drew n).bricks = s.bricks := rfl
@[simp] theorem State.drew_mem (s : State) (n : Nat) :
    (s.drew n).mem = s.mem := rfl
@[simp] theorem State.drew_windows (s : State) (n : Nat) :
    (s.drew n).windows = s.windows := rfl
@[simp] theorem State.drew_resvStatus (s : State) (n : Nat) :
    (s.drew n).resvStatus = s.resvStatus := rfl
@[simp] theorem State.drew_mortar (s : State) (n : Nat) :
    (s.drew n).mortar = s.mortar := rfl
@[simp] theorem State.drew_repair (s : State) (n : Nat) :
    (s.drew n).repair = s.repair := rfl
@[simp] theorem State.drew_ing (s : State) (n : Nat) :
    (s.drew n).ing = s.ing := rfl
@[simp] theorem State.drew_haw (s : State) (n : Nat) :
    (s.drew n).haw = s.haw := rfl
@[simp] theorem State.drew_wdn (s : State) (n : Nat) :
    (s.drew n).wdn = s.wdn := rfl
@[simp] theorem State.drew_sec (s : State) (n : Nat) :
    (s.drew n).sec = s.sec := rfl
@[simp] theorem State.drew_dbg (s : State) (n : Nat) :
    (s.drew n).dbg = s.dbg := rfl

/-! ### modPage -/

@[simp] theorem State.modPage_pending (s : State) (f : Nat) (g : Page → Page) :
    (s.modPage f g).pending = s.pending := rfl
@[simp] theorem State.modPage_outs (s : State) (f : Nat) (g : Page → Page) :
    (s.modPage f g).outs = s.outs := rfl
@[simp] theorem State.modPage_free (s : State) (f : Nat) (g : Page → Page) :
    (s.modPage f g).free = s.free := rfl
@[simp] theorem State.modPage_phase (s : State) (f : Nat) (g : Page → Page) :
    (s.modPage f g).phase = s.phase := rfl
@[simp] theorem State.modPage_fuses (s : State) (f : Nat) (g : Page → Page) :
    (s.modPage f g).fuses = s.fuses := rfl
@[simp] theorem State.modPage_pins (s : State) (f : Nat) (g : Page → Page) :
    (s.modPage f g).pins = s.pins := rfl
@[simp] theorem State.modPage_time (s : State) (f : Nat) (g : Page → Page) :
    (s.modPage f g).time = s.time := rfl
@[simp] theorem State.modPage_ptp (s : State) (f : Nat) (g : Page → Page) :
    (s.modPage f g).ptp = s.ptp := rfl
@[simp] theorem State.modPage_boot (s : State) (f : Nat) (g : Page → Page) :
    (s.modPage f g).boot = s.boot := rfl
@[simp] theorem State.modPage_flash (s : State) (f : Nat) (g : Page → Page) :
    (s.modPage f g).flash = s.flash := rfl
@[simp] theorem State.modPage_regs (s : State) (f : Nat) (g : Page → Page) :
    (s.modPage f g).regs = s.regs := rfl
@[simp] theorem State.modPage_lowWords (s : State) (f : Nat) (g : Page → Page) :
    (s.modPage f g).lowWords = s.lowWords := rfl
@[simp] theorem State.modPage_latches (s : State) (f : Nat) (g : Page → Page) :
    (s.modPage f g).latches = s.latches := rfl
@[simp] theorem State.modPage_locked (s : State) (f : Nat) (g : Page → Page) :
    (s.modPage f g).locked = s.locked := rfl
@[simp] theorem State.modPage_wrIgnored (s : State) (f : Nat) (g : Page → Page) :
    (s.modPage f g).wrIgnored = s.wrIgnored := rfl
@[simp] theorem State.modPage_wrLast (s : State) (f : Nat) (g : Page → Page) :
    (s.modPage f g).wrLast = s.wrLast := rfl
@[simp] theorem State.modPage_parts (s : State) (f : Nat) (g : Page → Page) :
    (s.modPage f g).parts = s.parts := rfl
@[simp] theorem State.modPage_hio1Down (s : State) (f : Nat) (g : Page → Page) :
    (s.modPage f g).hio1Down = s.hio1Down := rfl
@[simp] theorem State.modPage_hio0Up (s : State) (f : Nat) (g : Page → Page) :
    (s.modPage f g).hio0Up = s.hio0Up := rfl
@[simp] theorem State.modPage_vfEnable (s : State) (f : Nat) (g : Page → Page) :
    (s.modPage f g).vfEnable = s.vfEnable := rfl
@[simp] theorem State.modPage_chains (s : State) (f : Nat) (g : Page → Page) :
    (s.modPage f g).chains = s.chains := rfl
@[simp] theorem State.modPage_slots (s : State) (f : Nat) (g : Page → Page) :
    (s.modPage f g).slots = s.slots := rfl
@[simp] theorem State.modPage_lists (s : State) (f : Nat) (g : Page → Page) :
    (s.modPage f g).lists = s.lists := rfl
@[simp] theorem State.modPage_ctxs (s : State) (f : Nat) (g : Page → Page) :
    (s.modPage f g).ctxs = s.ctxs := rfl
@[simp] theorem State.modPage_bricks (s : State) (f : Nat) (g : Page → Page) :
    (s.modPage f g).bricks = s.bricks := rfl
@[simp] theorem State.modPage_mem (s : State) (f : Nat) (g : Page → Page) :
    (s.modPage f g).mem = s.mem := rfl
@[simp] theorem State.modPage_windows (s : State) (f : Nat) (g : Page → Page) :
    (s.modPage f g).windows = s.windows := rfl
@[simp] theorem State.modPage_resvStatus (s : State) (f : Nat) (g : Page → Page) :
    (s.modPage f g).resvStatus = s.resvStatus := rfl
@[simp] theorem State.modPage_mortar (s : State) (f : Nat) (g : Page → Page) :
    (s.modPage f g).mortar = s.mortar := rfl
@[simp] theorem State.modPage_repair (s : State) (f : Nat) (g : Page → Page) :
    (s.modPage f g).repair = s.repair := rfl
@[simp] theorem State.modPage_ing (s : State) (f : Nat) (g : Page → Page) :
    (s.modPage f g).ing = s.ing := rfl
@[simp] theorem State.modPage_haw (s : State) (f : Nat) (g : Page → Page) :
    (s.modPage f g).haw = s.haw := rfl
@[simp] theorem State.modPage_wdn (s : State) (f : Nat) (g : Page → Page) :
    (s.modPage f g).wdn = s.wdn := rfl
@[simp] theorem State.modPage_sec (s : State) (f : Nat) (g : Page → Page) :
    (s.modPage f g).sec = s.sec := rfl
@[simp] theorem State.modPage_dbg (s : State) (f : Nat) (g : Page → Page) :
    (s.modPage f g).dbg = s.dbg := rfl

/-! ### modSq -/

@[simp] theorem State.modSq_pending (s : State) (f n : Nat) (g : Sq → Sq) :
    (s.modSq f n g).pending = s.pending := rfl
@[simp] theorem State.modSq_outs (s : State) (f n : Nat) (g : Sq → Sq) :
    (s.modSq f n g).outs = s.outs := rfl
@[simp] theorem State.modSq_free (s : State) (f n : Nat) (g : Sq → Sq) :
    (s.modSq f n g).free = s.free := rfl
@[simp] theorem State.modSq_phase (s : State) (f n : Nat) (g : Sq → Sq) :
    (s.modSq f n g).phase = s.phase := rfl
@[simp] theorem State.modSq_fuses (s : State) (f n : Nat) (g : Sq → Sq) :
    (s.modSq f n g).fuses = s.fuses := rfl
@[simp] theorem State.modSq_pins (s : State) (f n : Nat) (g : Sq → Sq) :
    (s.modSq f n g).pins = s.pins := rfl
@[simp] theorem State.modSq_time (s : State) (f n : Nat) (g : Sq → Sq) :
    (s.modSq f n g).time = s.time := rfl
@[simp] theorem State.modSq_ptp (s : State) (f n : Nat) (g : Sq → Sq) :
    (s.modSq f n g).ptp = s.ptp := rfl
@[simp] theorem State.modSq_boot (s : State) (f n : Nat) (g : Sq → Sq) :
    (s.modSq f n g).boot = s.boot := rfl
@[simp] theorem State.modSq_flash (s : State) (f n : Nat) (g : Sq → Sq) :
    (s.modSq f n g).flash = s.flash := rfl
@[simp] theorem State.modSq_regs (s : State) (f n : Nat) (g : Sq → Sq) :
    (s.modSq f n g).regs = s.regs := rfl
@[simp] theorem State.modSq_lowWords (s : State) (f n : Nat) (g : Sq → Sq) :
    (s.modSq f n g).lowWords = s.lowWords := rfl
@[simp] theorem State.modSq_latches (s : State) (f n : Nat) (g : Sq → Sq) :
    (s.modSq f n g).latches = s.latches := rfl
@[simp] theorem State.modSq_locked (s : State) (f n : Nat) (g : Sq → Sq) :
    (s.modSq f n g).locked = s.locked := rfl
@[simp] theorem State.modSq_wrIgnored (s : State) (f n : Nat) (g : Sq → Sq) :
    (s.modSq f n g).wrIgnored = s.wrIgnored := rfl
@[simp] theorem State.modSq_wrLast (s : State) (f n : Nat) (g : Sq → Sq) :
    (s.modSq f n g).wrLast = s.wrLast := rfl
@[simp] theorem State.modSq_parts (s : State) (f n : Nat) (g : Sq → Sq) :
    (s.modSq f n g).parts = s.parts := rfl
@[simp] theorem State.modSq_hio1Down (s : State) (f n : Nat) (g : Sq → Sq) :
    (s.modSq f n g).hio1Down = s.hio1Down := rfl
@[simp] theorem State.modSq_hio0Up (s : State) (f n : Nat) (g : Sq → Sq) :
    (s.modSq f n g).hio0Up = s.hio0Up := rfl
@[simp] theorem State.modSq_vfEnable (s : State) (f n : Nat) (g : Sq → Sq) :
    (s.modSq f n g).vfEnable = s.vfEnable := rfl
@[simp] theorem State.modSq_chains (s : State) (f n : Nat) (g : Sq → Sq) :
    (s.modSq f n g).chains = s.chains := rfl
@[simp] theorem State.modSq_slots (s : State) (f n : Nat) (g : Sq → Sq) :
    (s.modSq f n g).slots = s.slots := rfl
@[simp] theorem State.modSq_lists (s : State) (f n : Nat) (g : Sq → Sq) :
    (s.modSq f n g).lists = s.lists := rfl
@[simp] theorem State.modSq_ctxs (s : State) (f n : Nat) (g : Sq → Sq) :
    (s.modSq f n g).ctxs = s.ctxs := rfl
@[simp] theorem State.modSq_bricks (s : State) (f n : Nat) (g : Sq → Sq) :
    (s.modSq f n g).bricks = s.bricks := rfl
@[simp] theorem State.modSq_mem (s : State) (f n : Nat) (g : Sq → Sq) :
    (s.modSq f n g).mem = s.mem := rfl
@[simp] theorem State.modSq_windows (s : State) (f n : Nat) (g : Sq → Sq) :
    (s.modSq f n g).windows = s.windows := rfl
@[simp] theorem State.modSq_resvStatus (s : State) (f n : Nat) (g : Sq → Sq) :
    (s.modSq f n g).resvStatus = s.resvStatus := rfl
@[simp] theorem State.modSq_mortar (s : State) (f n : Nat) (g : Sq → Sq) :
    (s.modSq f n g).mortar = s.mortar := rfl
@[simp] theorem State.modSq_repair (s : State) (f n : Nat) (g : Sq → Sq) :
    (s.modSq f n g).repair = s.repair := rfl
@[simp] theorem State.modSq_ing (s : State) (f n : Nat) (g : Sq → Sq) :
    (s.modSq f n g).ing = s.ing := rfl
@[simp] theorem State.modSq_haw (s : State) (f n : Nat) (g : Sq → Sq) :
    (s.modSq f n g).haw = s.haw := rfl
@[simp] theorem State.modSq_wdn (s : State) (f n : Nat) (g : Sq → Sq) :
    (s.modSq f n g).wdn = s.wdn := rfl
@[simp] theorem State.modSq_sec (s : State) (f n : Nat) (g : Sq → Sq) :
    (s.modSq f n g).sec = s.sec := rfl
@[simp] theorem State.modSq_dbg (s : State) (f n : Nat) (g : Sq → Sq) :
    (s.modSq f n g).dbg = s.dbg := rfl

/-! ### modPart -/

@[simp] theorem State.modPart_pending (s : State) (n : Nat) (g : Partition → Partition) :
    (s.modPart n g).pending = s.pending := rfl
@[simp] theorem State.modPart_outs (s : State) (n : Nat) (g : Partition → Partition) :
    (s.modPart n g).outs = s.outs := rfl
@[simp] theorem State.modPart_free (s : State) (n : Nat) (g : Partition → Partition) :
    (s.modPart n g).free = s.free := rfl
@[simp] theorem State.modPart_phase (s : State) (n : Nat) (g : Partition → Partition) :
    (s.modPart n g).phase = s.phase := rfl
@[simp] theorem State.modPart_fuses (s : State) (n : Nat) (g : Partition → Partition) :
    (s.modPart n g).fuses = s.fuses := rfl
@[simp] theorem State.modPart_pins (s : State) (n : Nat) (g : Partition → Partition) :
    (s.modPart n g).pins = s.pins := rfl
@[simp] theorem State.modPart_time (s : State) (n : Nat) (g : Partition → Partition) :
    (s.modPart n g).time = s.time := rfl
@[simp] theorem State.modPart_ptp (s : State) (n : Nat) (g : Partition → Partition) :
    (s.modPart n g).ptp = s.ptp := rfl
@[simp] theorem State.modPart_boot (s : State) (n : Nat) (g : Partition → Partition) :
    (s.modPart n g).boot = s.boot := rfl
@[simp] theorem State.modPart_flash (s : State) (n : Nat) (g : Partition → Partition) :
    (s.modPart n g).flash = s.flash := rfl
@[simp] theorem State.modPart_regs (s : State) (n : Nat) (g : Partition → Partition) :
    (s.modPart n g).regs = s.regs := rfl
@[simp] theorem State.modPart_lowWords (s : State) (n : Nat) (g : Partition → Partition) :
    (s.modPart n g).lowWords = s.lowWords := rfl
@[simp] theorem State.modPart_latches (s : State) (n : Nat) (g : Partition → Partition) :
    (s.modPart n g).latches = s.latches := rfl
@[simp] theorem State.modPart_locked (s : State) (n : Nat) (g : Partition → Partition) :
    (s.modPart n g).locked = s.locked := rfl
@[simp] theorem State.modPart_wrIgnored (s : State) (n : Nat) (g : Partition → Partition) :
    (s.modPart n g).wrIgnored = s.wrIgnored := rfl
@[simp] theorem State.modPart_wrLast (s : State) (n : Nat) (g : Partition → Partition) :
    (s.modPart n g).wrLast = s.wrLast := rfl
@[simp] theorem State.modPart_pages (s : State) (n : Nat) (g : Partition → Partition) :
    (s.modPart n g).pages = s.pages := rfl
@[simp] theorem State.modPart_hio1Down (s : State) (n : Nat) (g : Partition → Partition) :
    (s.modPart n g).hio1Down = s.hio1Down := rfl
@[simp] theorem State.modPart_hio0Up (s : State) (n : Nat) (g : Partition → Partition) :
    (s.modPart n g).hio0Up = s.hio0Up := rfl
@[simp] theorem State.modPart_vfEnable (s : State) (n : Nat) (g : Partition → Partition) :
    (s.modPart n g).vfEnable = s.vfEnable := rfl
@[simp] theorem State.modPart_chains (s : State) (n : Nat) (g : Partition → Partition) :
    (s.modPart n g).chains = s.chains := rfl
@[simp] theorem State.modPart_slots (s : State) (n : Nat) (g : Partition → Partition) :
    (s.modPart n g).slots = s.slots := rfl
@[simp] theorem State.modPart_lists (s : State) (n : Nat) (g : Partition → Partition) :
    (s.modPart n g).lists = s.lists := rfl
@[simp] theorem State.modPart_ctxs (s : State) (n : Nat) (g : Partition → Partition) :
    (s.modPart n g).ctxs = s.ctxs := rfl
@[simp] theorem State.modPart_bricks (s : State) (n : Nat) (g : Partition → Partition) :
    (s.modPart n g).bricks = s.bricks := rfl
@[simp] theorem State.modPart_mem (s : State) (n : Nat) (g : Partition → Partition) :
    (s.modPart n g).mem = s.mem := rfl
@[simp] theorem State.modPart_windows (s : State) (n : Nat) (g : Partition → Partition) :
    (s.modPart n g).windows = s.windows := rfl
@[simp] theorem State.modPart_resvStatus (s : State) (n : Nat) (g : Partition → Partition) :
    (s.modPart n g).resvStatus = s.resvStatus := rfl
@[simp] theorem State.modPart_mortar (s : State) (n : Nat) (g : Partition → Partition) :
    (s.modPart n g).mortar = s.mortar := rfl
@[simp] theorem State.modPart_repair (s : State) (n : Nat) (g : Partition → Partition) :
    (s.modPart n g).repair = s.repair := rfl
@[simp] theorem State.modPart_ing (s : State) (n : Nat) (g : Partition → Partition) :
    (s.modPart n g).ing = s.ing := rfl
@[simp] theorem State.modPart_haw (s : State) (n : Nat) (g : Partition → Partition) :
    (s.modPart n g).haw = s.haw := rfl
@[simp] theorem State.modPart_wdn (s : State) (n : Nat) (g : Partition → Partition) :
    (s.modPart n g).wdn = s.wdn := rfl
@[simp] theorem State.modPart_sec (s : State) (n : Nat) (g : Partition → Partition) :
    (s.modPart n g).sec = s.sec := rfl
@[simp] theorem State.modPart_dbg (s : State) (n : Nat) (g : Partition → Partition) :
    (s.modPart n g).dbg = s.dbg := rfl

/-! ### modBrick -/

@[simp] theorem State.modBrick_pending (s : State) (b : Nat) (g : BrickS → BrickS) :
    (s.modBrick b g).pending = s.pending := rfl
@[simp] theorem State.modBrick_outs (s : State) (b : Nat) (g : BrickS → BrickS) :
    (s.modBrick b g).outs = s.outs := rfl
@[simp] theorem State.modBrick_free (s : State) (b : Nat) (g : BrickS → BrickS) :
    (s.modBrick b g).free = s.free := rfl
@[simp] theorem State.modBrick_phase (s : State) (b : Nat) (g : BrickS → BrickS) :
    (s.modBrick b g).phase = s.phase := rfl
@[simp] theorem State.modBrick_fuses (s : State) (b : Nat) (g : BrickS → BrickS) :
    (s.modBrick b g).fuses = s.fuses := rfl
@[simp] theorem State.modBrick_pins (s : State) (b : Nat) (g : BrickS → BrickS) :
    (s.modBrick b g).pins = s.pins := rfl
@[simp] theorem State.modBrick_time (s : State) (b : Nat) (g : BrickS → BrickS) :
    (s.modBrick b g).time = s.time := rfl
@[simp] theorem State.modBrick_ptp (s : State) (b : Nat) (g : BrickS → BrickS) :
    (s.modBrick b g).ptp = s.ptp := rfl
@[simp] theorem State.modBrick_boot (s : State) (b : Nat) (g : BrickS → BrickS) :
    (s.modBrick b g).boot = s.boot := rfl
@[simp] theorem State.modBrick_flash (s : State) (b : Nat) (g : BrickS → BrickS) :
    (s.modBrick b g).flash = s.flash := rfl
@[simp] theorem State.modBrick_regs (s : State) (b : Nat) (g : BrickS → BrickS) :
    (s.modBrick b g).regs = s.regs := rfl
@[simp] theorem State.modBrick_lowWords (s : State) (b : Nat) (g : BrickS → BrickS) :
    (s.modBrick b g).lowWords = s.lowWords := rfl
@[simp] theorem State.modBrick_latches (s : State) (b : Nat) (g : BrickS → BrickS) :
    (s.modBrick b g).latches = s.latches := rfl
@[simp] theorem State.modBrick_locked (s : State) (b : Nat) (g : BrickS → BrickS) :
    (s.modBrick b g).locked = s.locked := rfl
@[simp] theorem State.modBrick_wrIgnored (s : State) (b : Nat) (g : BrickS → BrickS) :
    (s.modBrick b g).wrIgnored = s.wrIgnored := rfl
@[simp] theorem State.modBrick_wrLast (s : State) (b : Nat) (g : BrickS → BrickS) :
    (s.modBrick b g).wrLast = s.wrLast := rfl
@[simp] theorem State.modBrick_parts (s : State) (b : Nat) (g : BrickS → BrickS) :
    (s.modBrick b g).parts = s.parts := rfl
@[simp] theorem State.modBrick_pages (s : State) (b : Nat) (g : BrickS → BrickS) :
    (s.modBrick b g).pages = s.pages := rfl
@[simp] theorem State.modBrick_hio1Down (s : State) (b : Nat) (g : BrickS → BrickS) :
    (s.modBrick b g).hio1Down = s.hio1Down := rfl
@[simp] theorem State.modBrick_hio0Up (s : State) (b : Nat) (g : BrickS → BrickS) :
    (s.modBrick b g).hio0Up = s.hio0Up := rfl
@[simp] theorem State.modBrick_vfEnable (s : State) (b : Nat) (g : BrickS → BrickS) :
    (s.modBrick b g).vfEnable = s.vfEnable := rfl
@[simp] theorem State.modBrick_chains (s : State) (b : Nat) (g : BrickS → BrickS) :
    (s.modBrick b g).chains = s.chains := rfl
@[simp] theorem State.modBrick_slots (s : State) (b : Nat) (g : BrickS → BrickS) :
    (s.modBrick b g).slots = s.slots := rfl
@[simp] theorem State.modBrick_lists (s : State) (b : Nat) (g : BrickS → BrickS) :
    (s.modBrick b g).lists = s.lists := rfl
@[simp] theorem State.modBrick_ctxs (s : State) (b : Nat) (g : BrickS → BrickS) :
    (s.modBrick b g).ctxs = s.ctxs := rfl
@[simp] theorem State.modBrick_mem (s : State) (b : Nat) (g : BrickS → BrickS) :
    (s.modBrick b g).mem = s.mem := rfl
@[simp] theorem State.modBrick_windows (s : State) (b : Nat) (g : BrickS → BrickS) :
    (s.modBrick b g).windows = s.windows := rfl
@[simp] theorem State.modBrick_resvStatus (s : State) (b : Nat) (g : BrickS → BrickS) :
    (s.modBrick b g).resvStatus = s.resvStatus := rfl
@[simp] theorem State.modBrick_mortar (s : State) (b : Nat) (g : BrickS → BrickS) :
    (s.modBrick b g).mortar = s.mortar := rfl
@[simp] theorem State.modBrick_repair (s : State) (b : Nat) (g : BrickS → BrickS) :
    (s.modBrick b g).repair = s.repair := rfl
@[simp] theorem State.modBrick_ing (s : State) (b : Nat) (g : BrickS → BrickS) :
    (s.modBrick b g).ing = s.ing := rfl
@[simp] theorem State.modBrick_haw (s : State) (b : Nat) (g : BrickS → BrickS) :
    (s.modBrick b g).haw = s.haw := rfl
@[simp] theorem State.modBrick_wdn (s : State) (b : Nat) (g : BrickS → BrickS) :
    (s.modBrick b g).wdn = s.wdn := rfl
@[simp] theorem State.modBrick_sec (s : State) (b : Nat) (g : BrickS → BrickS) :
    (s.modBrick b g).sec = s.sec := rfl
@[simp] theorem State.modBrick_dbg (s : State) (b : Nat) (g : BrickS → BrickS) :
    (s.modBrick b g).dbg = s.dbg := rfl

/-! ### modList -/

@[simp] theorem State.modList_pending (s : State) (o : Nat) (g : RunningList → RunningList) :
    (s.modList o g).pending = s.pending := rfl
@[simp] theorem State.modList_outs (s : State) (o : Nat) (g : RunningList → RunningList) :
    (s.modList o g).outs = s.outs := rfl
@[simp] theorem State.modList_free (s : State) (o : Nat) (g : RunningList → RunningList) :
    (s.modList o g).free = s.free := rfl
@[simp] theorem State.modList_phase (s : State) (o : Nat) (g : RunningList → RunningList) :
    (s.modList o g).phase = s.phase := rfl
@[simp] theorem State.modList_fuses (s : State) (o : Nat) (g : RunningList → RunningList) :
    (s.modList o g).fuses = s.fuses := rfl
@[simp] theorem State.modList_pins (s : State) (o : Nat) (g : RunningList → RunningList) :
    (s.modList o g).pins = s.pins := rfl
@[simp] theorem State.modList_time (s : State) (o : Nat) (g : RunningList → RunningList) :
    (s.modList o g).time = s.time := rfl
@[simp] theorem State.modList_ptp (s : State) (o : Nat) (g : RunningList → RunningList) :
    (s.modList o g).ptp = s.ptp := rfl
@[simp] theorem State.modList_boot (s : State) (o : Nat) (g : RunningList → RunningList) :
    (s.modList o g).boot = s.boot := rfl
@[simp] theorem State.modList_flash (s : State) (o : Nat) (g : RunningList → RunningList) :
    (s.modList o g).flash = s.flash := rfl
@[simp] theorem State.modList_regs (s : State) (o : Nat) (g : RunningList → RunningList) :
    (s.modList o g).regs = s.regs := rfl
@[simp] theorem State.modList_lowWords (s : State) (o : Nat) (g : RunningList → RunningList) :
    (s.modList o g).lowWords = s.lowWords := rfl
@[simp] theorem State.modList_latches (s : State) (o : Nat) (g : RunningList → RunningList) :
    (s.modList o g).latches = s.latches := rfl
@[simp] theorem State.modList_locked (s : State) (o : Nat) (g : RunningList → RunningList) :
    (s.modList o g).locked = s.locked := rfl
@[simp] theorem State.modList_wrIgnored (s : State) (o : Nat) (g : RunningList → RunningList) :
    (s.modList o g).wrIgnored = s.wrIgnored := rfl
@[simp] theorem State.modList_wrLast (s : State) (o : Nat) (g : RunningList → RunningList) :
    (s.modList o g).wrLast = s.wrLast := rfl
@[simp] theorem State.modList_parts (s : State) (o : Nat) (g : RunningList → RunningList) :
    (s.modList o g).parts = s.parts := rfl
@[simp] theorem State.modList_pages (s : State) (o : Nat) (g : RunningList → RunningList) :
    (s.modList o g).pages = s.pages := rfl
@[simp] theorem State.modList_hio1Down (s : State) (o : Nat) (g : RunningList → RunningList) :
    (s.modList o g).hio1Down = s.hio1Down := rfl
@[simp] theorem State.modList_hio0Up (s : State) (o : Nat) (g : RunningList → RunningList) :
    (s.modList o g).hio0Up = s.hio0Up := rfl
@[simp] theorem State.modList_vfEnable (s : State) (o : Nat) (g : RunningList → RunningList) :
    (s.modList o g).vfEnable = s.vfEnable := rfl
@[simp] theorem State.modList_chains (s : State) (o : Nat) (g : RunningList → RunningList) :
    (s.modList o g).chains = s.chains := rfl
@[simp] theorem State.modList_slots (s : State) (o : Nat) (g : RunningList → RunningList) :
    (s.modList o g).slots = s.slots := rfl
@[simp] theorem State.modList_ctxs (s : State) (o : Nat) (g : RunningList → RunningList) :
    (s.modList o g).ctxs = s.ctxs := rfl
@[simp] theorem State.modList_bricks (s : State) (o : Nat) (g : RunningList → RunningList) :
    (s.modList o g).bricks = s.bricks := rfl
@[simp] theorem State.modList_mem (s : State) (o : Nat) (g : RunningList → RunningList) :
    (s.modList o g).mem = s.mem := rfl
@[simp] theorem State.modList_windows (s : State) (o : Nat) (g : RunningList → RunningList) :
    (s.modList o g).windows = s.windows := rfl
@[simp] theorem State.modList_resvStatus (s : State) (o : Nat) (g : RunningList → RunningList) :
    (s.modList o g).resvStatus = s.resvStatus := rfl
@[simp] theorem State.modList_mortar (s : State) (o : Nat) (g : RunningList → RunningList) :
    (s.modList o g).mortar = s.mortar := rfl
@[simp] theorem State.modList_repair (s : State) (o : Nat) (g : RunningList → RunningList) :
    (s.modList o g).repair = s.repair := rfl
@[simp] theorem State.modList_ing (s : State) (o : Nat) (g : RunningList → RunningList) :
    (s.modList o g).ing = s.ing := rfl
@[simp] theorem State.modList_haw (s : State) (o : Nat) (g : RunningList → RunningList) :
    (s.modList o g).haw = s.haw := rfl
@[simp] theorem State.modList_wdn (s : State) (o : Nat) (g : RunningList → RunningList) :
    (s.modList o g).wdn = s.wdn := rfl
@[simp] theorem State.modList_sec (s : State) (o : Nat) (g : RunningList → RunningList) :
    (s.modList o g).sec = s.sec := rfl
@[simp] theorem State.modList_dbg (s : State) (o : Nat) (g : RunningList → RunningList) :
    (s.modList o g).dbg = s.dbg := rfl

/-! ### setReg -/

@[simp] theorem State.setReg_pending (s : State) (o : Nat) (v : Word) :
    (s.setReg o v).pending = s.pending := rfl
@[simp] theorem State.setReg_outs (s : State) (o : Nat) (v : Word) :
    (s.setReg o v).outs = s.outs := rfl
@[simp] theorem State.setReg_free (s : State) (o : Nat) (v : Word) :
    (s.setReg o v).free = s.free := rfl
@[simp] theorem State.setReg_phase (s : State) (o : Nat) (v : Word) :
    (s.setReg o v).phase = s.phase := rfl
@[simp] theorem State.setReg_fuses (s : State) (o : Nat) (v : Word) :
    (s.setReg o v).fuses = s.fuses := rfl
@[simp] theorem State.setReg_pins (s : State) (o : Nat) (v : Word) :
    (s.setReg o v).pins = s.pins := rfl
@[simp] theorem State.setReg_time (s : State) (o : Nat) (v : Word) :
    (s.setReg o v).time = s.time := rfl
@[simp] theorem State.setReg_ptp (s : State) (o : Nat) (v : Word) :
    (s.setReg o v).ptp = s.ptp := rfl
@[simp] theorem State.setReg_boot (s : State) (o : Nat) (v : Word) :
    (s.setReg o v).boot = s.boot := rfl
@[simp] theorem State.setReg_flash (s : State) (o : Nat) (v : Word) :
    (s.setReg o v).flash = s.flash := rfl
@[simp] theorem State.setReg_lowWords (s : State) (o : Nat) (v : Word) :
    (s.setReg o v).lowWords = s.lowWords := rfl
@[simp] theorem State.setReg_latches (s : State) (o : Nat) (v : Word) :
    (s.setReg o v).latches = s.latches := rfl
@[simp] theorem State.setReg_locked (s : State) (o : Nat) (v : Word) :
    (s.setReg o v).locked = s.locked := rfl
@[simp] theorem State.setReg_wrIgnored (s : State) (o : Nat) (v : Word) :
    (s.setReg o v).wrIgnored = s.wrIgnored := rfl
@[simp] theorem State.setReg_wrLast (s : State) (o : Nat) (v : Word) :
    (s.setReg o v).wrLast = s.wrLast := rfl
@[simp] theorem State.setReg_parts (s : State) (o : Nat) (v : Word) :
    (s.setReg o v).parts = s.parts := rfl
@[simp] theorem State.setReg_pages (s : State) (o : Nat) (v : Word) :
    (s.setReg o v).pages = s.pages := rfl
@[simp] theorem State.setReg_hio1Down (s : State) (o : Nat) (v : Word) :
    (s.setReg o v).hio1Down = s.hio1Down := rfl
@[simp] theorem State.setReg_hio0Up (s : State) (o : Nat) (v : Word) :
    (s.setReg o v).hio0Up = s.hio0Up := rfl
@[simp] theorem State.setReg_vfEnable (s : State) (o : Nat) (v : Word) :
    (s.setReg o v).vfEnable = s.vfEnable := rfl
@[simp] theorem State.setReg_chains (s : State) (o : Nat) (v : Word) :
    (s.setReg o v).chains = s.chains := rfl
@[simp] theorem State.setReg_slots (s : State) (o : Nat) (v : Word) :
    (s.setReg o v).slots = s.slots := rfl
@[simp] theorem State.setReg_lists (s : State) (o : Nat) (v : Word) :
    (s.setReg o v).lists = s.lists := rfl
@[simp] theorem State.setReg_ctxs (s : State) (o : Nat) (v : Word) :
    (s.setReg o v).ctxs = s.ctxs := rfl
@[simp] theorem State.setReg_bricks (s : State) (o : Nat) (v : Word) :
    (s.setReg o v).bricks = s.bricks := rfl
@[simp] theorem State.setReg_mem (s : State) (o : Nat) (v : Word) :
    (s.setReg o v).mem = s.mem := rfl
@[simp] theorem State.setReg_windows (s : State) (o : Nat) (v : Word) :
    (s.setReg o v).windows = s.windows := rfl
@[simp] theorem State.setReg_resvStatus (s : State) (o : Nat) (v : Word) :
    (s.setReg o v).resvStatus = s.resvStatus := rfl
@[simp] theorem State.setReg_mortar (s : State) (o : Nat) (v : Word) :
    (s.setReg o v).mortar = s.mortar := rfl
@[simp] theorem State.setReg_repair (s : State) (o : Nat) (v : Word) :
    (s.setReg o v).repair = s.repair := rfl
@[simp] theorem State.setReg_ing (s : State) (o : Nat) (v : Word) :
    (s.setReg o v).ing = s.ing := rfl
@[simp] theorem State.setReg_haw (s : State) (o : Nat) (v : Word) :
    (s.setReg o v).haw = s.haw := rfl
@[simp] theorem State.setReg_wdn (s : State) (o : Nat) (v : Word) :
    (s.setReg o v).wdn = s.wdn := rfl
@[simp] theorem State.setReg_sec (s : State) (o : Nat) (v : Word) :
    (s.setReg o v).sec = s.sec := rfl
@[simp] theorem State.setReg_dbg (s : State) (o : Nat) (v : Word) :
    (s.setReg o v).dbg = s.dbg := rfl

/-! ### setUnit -/

@[simp] theorem State.setUnit_pending (s : State) (u : UnitKey) (v : UnitState) :
    (s.setUnit u v).pending = s.pending := rfl
@[simp] theorem State.setUnit_outs (s : State) (u : UnitKey) (v : UnitState) :
    (s.setUnit u v).outs = s.outs := rfl
@[simp] theorem State.setUnit_free (s : State) (u : UnitKey) (v : UnitState) :
    (s.setUnit u v).free = s.free := rfl
@[simp] theorem State.setUnit_phase (s : State) (u : UnitKey) (v : UnitState) :
    (s.setUnit u v).phase = s.phase := rfl
@[simp] theorem State.setUnit_fuses (s : State) (u : UnitKey) (v : UnitState) :
    (s.setUnit u v).fuses = s.fuses := rfl
@[simp] theorem State.setUnit_pins (s : State) (u : UnitKey) (v : UnitState) :
    (s.setUnit u v).pins = s.pins := rfl
@[simp] theorem State.setUnit_time (s : State) (u : UnitKey) (v : UnitState) :
    (s.setUnit u v).time = s.time := rfl
@[simp] theorem State.setUnit_ptp (s : State) (u : UnitKey) (v : UnitState) :
    (s.setUnit u v).ptp = s.ptp := rfl
@[simp] theorem State.setUnit_boot (s : State) (u : UnitKey) (v : UnitState) :
    (s.setUnit u v).boot = s.boot := rfl
@[simp] theorem State.setUnit_flash (s : State) (u : UnitKey) (v : UnitState) :
    (s.setUnit u v).flash = s.flash := rfl
@[simp] theorem State.setUnit_regs (s : State) (u : UnitKey) (v : UnitState) :
    (s.setUnit u v).regs = s.regs := rfl
@[simp] theorem State.setUnit_lowWords (s : State) (u : UnitKey) (v : UnitState) :
    (s.setUnit u v).lowWords = s.lowWords := rfl
@[simp] theorem State.setUnit_latches (s : State) (u : UnitKey) (v : UnitState) :
    (s.setUnit u v).latches = s.latches := rfl
@[simp] theorem State.setUnit_locked (s : State) (u : UnitKey) (v : UnitState) :
    (s.setUnit u v).locked = s.locked := rfl
@[simp] theorem State.setUnit_wrIgnored (s : State) (u : UnitKey) (v : UnitState) :
    (s.setUnit u v).wrIgnored = s.wrIgnored := rfl
@[simp] theorem State.setUnit_wrLast (s : State) (u : UnitKey) (v : UnitState) :
    (s.setUnit u v).wrLast = s.wrLast := rfl
@[simp] theorem State.setUnit_parts (s : State) (u : UnitKey) (v : UnitState) :
    (s.setUnit u v).parts = s.parts := rfl
@[simp] theorem State.setUnit_pages (s : State) (u : UnitKey) (v : UnitState) :
    (s.setUnit u v).pages = s.pages := rfl
@[simp] theorem State.setUnit_hio1Down (s : State) (u : UnitKey) (v : UnitState) :
    (s.setUnit u v).hio1Down = s.hio1Down := rfl
@[simp] theorem State.setUnit_hio0Up (s : State) (u : UnitKey) (v : UnitState) :
    (s.setUnit u v).hio0Up = s.hio0Up := rfl
@[simp] theorem State.setUnit_vfEnable (s : State) (u : UnitKey) (v : UnitState) :
    (s.setUnit u v).vfEnable = s.vfEnable := rfl
@[simp] theorem State.setUnit_chains (s : State) (u : UnitKey) (v : UnitState) :
    (s.setUnit u v).chains = s.chains := rfl
@[simp] theorem State.setUnit_slots (s : State) (u : UnitKey) (v : UnitState) :
    (s.setUnit u v).slots = s.slots := rfl
@[simp] theorem State.setUnit_lists (s : State) (u : UnitKey) (v : UnitState) :
    (s.setUnit u v).lists = s.lists := rfl
@[simp] theorem State.setUnit_ctxs (s : State) (u : UnitKey) (v : UnitState) :
    (s.setUnit u v).ctxs = s.ctxs := rfl
@[simp] theorem State.setUnit_bricks (s : State) (u : UnitKey) (v : UnitState) :
    (s.setUnit u v).bricks = s.bricks := rfl
@[simp] theorem State.setUnit_mem (s : State) (u : UnitKey) (v : UnitState) :
    (s.setUnit u v).mem = s.mem := rfl
@[simp] theorem State.setUnit_windows (s : State) (u : UnitKey) (v : UnitState) :
    (s.setUnit u v).windows = s.windows := rfl
@[simp] theorem State.setUnit_resvStatus (s : State) (u : UnitKey) (v : UnitState) :
    (s.setUnit u v).resvStatus = s.resvStatus := rfl
@[simp] theorem State.setUnit_mortar (s : State) (u : UnitKey) (v : UnitState) :
    (s.setUnit u v).mortar = s.mortar := rfl
@[simp] theorem State.setUnit_ing (s : State) (u : UnitKey) (v : UnitState) :
    (s.setUnit u v).ing = s.ing := rfl
@[simp] theorem State.setUnit_haw (s : State) (u : UnitKey) (v : UnitState) :
    (s.setUnit u v).haw = s.haw := rfl
@[simp] theorem State.setUnit_wdn (s : State) (u : UnitKey) (v : UnitState) :
    (s.setUnit u v).wdn = s.wdn := rfl
@[simp] theorem State.setUnit_sec (s : State) (u : UnitKey) (v : UnitState) :
    (s.setUnit u v).sec = s.sec := rfl
@[simp] theorem State.setUnit_dbg (s : State) (u : UnitKey) (v : UnitState) :
    (s.setUnit u v).dbg = s.dbg := rfl

/-! ### modCtx -/

@[simp] theorem State.modCtx_pending (s : State) (k : Nat) (g : Ctx → Ctx) :
    (s.modCtx k g).pending = s.pending := by unfold State.modCtx; split <;> rfl
@[simp] theorem State.modCtx_outs (s : State) (k : Nat) (g : Ctx → Ctx) :
    (s.modCtx k g).outs = s.outs := by unfold State.modCtx; split <;> rfl
@[simp] theorem State.modCtx_free (s : State) (k : Nat) (g : Ctx → Ctx) :
    (s.modCtx k g).free = s.free := by unfold State.modCtx; split <;> rfl
@[simp] theorem State.modCtx_phase (s : State) (k : Nat) (g : Ctx → Ctx) :
    (s.modCtx k g).phase = s.phase := by unfold State.modCtx; split <;> rfl
@[simp] theorem State.modCtx_fuses (s : State) (k : Nat) (g : Ctx → Ctx) :
    (s.modCtx k g).fuses = s.fuses := by unfold State.modCtx; split <;> rfl
@[simp] theorem State.modCtx_pins (s : State) (k : Nat) (g : Ctx → Ctx) :
    (s.modCtx k g).pins = s.pins := by unfold State.modCtx; split <;> rfl
@[simp] theorem State.modCtx_time (s : State) (k : Nat) (g : Ctx → Ctx) :
    (s.modCtx k g).time = s.time := by unfold State.modCtx; split <;> rfl
@[simp] theorem State.modCtx_ptp (s : State) (k : Nat) (g : Ctx → Ctx) :
    (s.modCtx k g).ptp = s.ptp := by unfold State.modCtx; split <;> rfl
@[simp] theorem State.modCtx_boot (s : State) (k : Nat) (g : Ctx → Ctx) :
    (s.modCtx k g).boot = s.boot := by unfold State.modCtx; split <;> rfl
@[simp] theorem State.modCtx_flash (s : State) (k : Nat) (g : Ctx → Ctx) :
    (s.modCtx k g).flash = s.flash := by unfold State.modCtx; split <;> rfl
@[simp] theorem State.modCtx_regs (s : State) (k : Nat) (g : Ctx → Ctx) :
    (s.modCtx k g).regs = s.regs := by unfold State.modCtx; split <;> rfl
@[simp] theorem State.modCtx_lowWords (s : State) (k : Nat) (g : Ctx → Ctx) :
    (s.modCtx k g).lowWords = s.lowWords := by unfold State.modCtx; split <;> rfl
@[simp] theorem State.modCtx_latches (s : State) (k : Nat) (g : Ctx → Ctx) :
    (s.modCtx k g).latches = s.latches := by unfold State.modCtx; split <;> rfl
@[simp] theorem State.modCtx_locked (s : State) (k : Nat) (g : Ctx → Ctx) :
    (s.modCtx k g).locked = s.locked := by unfold State.modCtx; split <;> rfl
@[simp] theorem State.modCtx_wrIgnored (s : State) (k : Nat) (g : Ctx → Ctx) :
    (s.modCtx k g).wrIgnored = s.wrIgnored := by unfold State.modCtx; split <;> rfl
@[simp] theorem State.modCtx_wrLast (s : State) (k : Nat) (g : Ctx → Ctx) :
    (s.modCtx k g).wrLast = s.wrLast := by unfold State.modCtx; split <;> rfl
@[simp] theorem State.modCtx_parts (s : State) (k : Nat) (g : Ctx → Ctx) :
    (s.modCtx k g).parts = s.parts := by unfold State.modCtx; split <;> rfl
@[simp] theorem State.modCtx_pages (s : State) (k : Nat) (g : Ctx → Ctx) :
    (s.modCtx k g).pages = s.pages := by unfold State.modCtx; split <;> rfl
@[simp] theorem State.modCtx_hio1Down (s : State) (k : Nat) (g : Ctx → Ctx) :
    (s.modCtx k g).hio1Down = s.hio1Down := by unfold State.modCtx; split <;> rfl
@[simp] theorem State.modCtx_hio0Up (s : State) (k : Nat) (g : Ctx → Ctx) :
    (s.modCtx k g).hio0Up = s.hio0Up := by unfold State.modCtx; split <;> rfl
@[simp] theorem State.modCtx_vfEnable (s : State) (k : Nat) (g : Ctx → Ctx) :
    (s.modCtx k g).vfEnable = s.vfEnable := by unfold State.modCtx; split <;> rfl
@[simp] theorem State.modCtx_chains (s : State) (k : Nat) (g : Ctx → Ctx) :
    (s.modCtx k g).chains = s.chains := by unfold State.modCtx; split <;> rfl
@[simp] theorem State.modCtx_slots (s : State) (k : Nat) (g : Ctx → Ctx) :
    (s.modCtx k g).slots = s.slots := by unfold State.modCtx; split <;> rfl
@[simp] theorem State.modCtx_lists (s : State) (k : Nat) (g : Ctx → Ctx) :
    (s.modCtx k g).lists = s.lists := by unfold State.modCtx; split <;> rfl
@[simp] theorem State.modCtx_bricks (s : State) (k : Nat) (g : Ctx → Ctx) :
    (s.modCtx k g).bricks = s.bricks := by unfold State.modCtx; split <;> rfl
@[simp] theorem State.modCtx_mem (s : State) (k : Nat) (g : Ctx → Ctx) :
    (s.modCtx k g).mem = s.mem := by unfold State.modCtx; split <;> rfl
@[simp] theorem State.modCtx_windows (s : State) (k : Nat) (g : Ctx → Ctx) :
    (s.modCtx k g).windows = s.windows := by unfold State.modCtx; split <;> rfl
@[simp] theorem State.modCtx_resvStatus (s : State) (k : Nat) (g : Ctx → Ctx) :
    (s.modCtx k g).resvStatus = s.resvStatus := by unfold State.modCtx; split <;> rfl
@[simp] theorem State.modCtx_mortar (s : State) (k : Nat) (g : Ctx → Ctx) :
    (s.modCtx k g).mortar = s.mortar := by unfold State.modCtx; split <;> rfl
@[simp] theorem State.modCtx_repair (s : State) (k : Nat) (g : Ctx → Ctx) :
    (s.modCtx k g).repair = s.repair := by unfold State.modCtx; split <;> rfl
@[simp] theorem State.modCtx_ing (s : State) (k : Nat) (g : Ctx → Ctx) :
    (s.modCtx k g).ing = s.ing := by unfold State.modCtx; split <;> rfl
@[simp] theorem State.modCtx_haw (s : State) (k : Nat) (g : Ctx → Ctx) :
    (s.modCtx k g).haw = s.haw := by unfold State.modCtx; split <;> rfl
@[simp] theorem State.modCtx_wdn (s : State) (k : Nat) (g : Ctx → Ctx) :
    (s.modCtx k g).wdn = s.wdn := by unfold State.modCtx; split <;> rfl
@[simp] theorem State.modCtx_sec (s : State) (k : Nat) (g : Ctx → Ctx) :
    (s.modCtx k g).sec = s.sec := by unfold State.modCtx; split <;> rfl
@[simp] theorem State.modCtx_dbg (s : State) (k : Nat) (g : Ctx → Ctx) :
    (s.modCtx k g).dbg = s.dbg := by unfold State.modCtx; split <;> rfl

end Sys2Proof.Machine
end

