-- ==== Sys2Proof/Laws/Engine.lean ====
section
/-! SUPPORT. What the passage of an engine command comes to, once for all of them: a command that runs is its body settled,
reads and stores of this chip go through at once. -/

namespace Sys2Proof.Machine

@[simp] theorem Env.after_key (e : Env) (c : Cmd) : (e.after c).key = e.key := rfl
@[simp] theorem Env.after_l (e : Env) (c : Cmd) : (e.after c).l = e.l := rfl
@[simp] theorem Env.after_stream (e : Env) (c : Cmd) : (e.after c).stream = e.stream := rfl
@[simp] theorem Env.after_brick (e : Env) (c : Cmd) : (e.after c).brick = e.brick := rfl

/-- Consuming a wait changes no field of a context but its flags. -/
theorem Ctx.consume_frame (x : Ctx) (w : Wait) : x.consume w = { x with flags := (x.consume w).flags } := by
  unfold Ctx.consume
  split <;> rfl

@[simp] theorem Ctx.consume_part (x : Ctx) (w : Wait) : (x.consume w).part = x.part := by
  rw [x.consume_frame w]

@[simp] theorem Env.after_part (e : Env) (c : Cmd) : (e.after c).c.part = e.c.part := by
  simp [Env.after]

/-- A command that runs is its C5b and C6, settled (R184). -/
theorem command_runs {s : State} {c : Cmd} {e : Env} {fits eng : Bool} {own : List (Nat × Bool)} {regs : List Nat}
    {pass : Ctx → Ctx} {body : State → Env → Ran} {engf : Nat → Bool} {ownf : Env → List (Nat × Bool)}
    (h : Runs s c e fits eng own) (h1 : engf (engineOf c.loc.stream) = eng) (h2 : ownf e = own) :
    s.command c fits engf ownf regs pass body = (body (s.issued e c) (e.after c)).settle (e.after c) c regs c.last := by
  obtain ⟨⟨he, ha, hr, hk⟩, hc, w0, w1, hs⟩ := h
  subst h1 h2
  simp only [Env.after] at hs
  simp [State.command, he, ha, hr, hk, hc, w0, w1, hs, State.issued, Env.after]

/-- Reads of this chip that fault nowhere are charged, and the command goes on (R403). -/
theorem withReads_here {s : State} {e : Env} {c : Cmd} {i : Instr} {reads : List (Nat × Nat × Nat)} {k : State → Site → Ran}
    (h : ReadsHere (e.site s) reads) :
    withReads s e c i reads k = k (s.chargeReads e.c.part reads) (e.site (s.chargeReads e.c.part reads)) := by
  obtain ⟨h1, h2⟩ := h
  simp [withReads, h1, h2, State.chargeReads, ownBytes]
  rfl

@[simp] theorem State.charge_haw (s : State) (p n : Nat) : (s.charge p n).haw = s.haw := rfl
@[simp] theorem State.charge_windows (s : State) (p n : Nat) : (s.charge p n).windows = s.windows := rfl
@[simp] theorem State.chargeReads_haw (s : State) (p : Nat) (l) : (s.chargeReads p l).haw = s.haw := by
  unfold State.chargeReads; split <;> rfl
@[simp] theorem State.chargeReads_windows (s : State) (p : Nat) (l) : (s.chargeReads p l).windows = s.windows := by
  unfold State.chargeReads; split <;> rfl

@[simp] theorem State.store_haw (s : State) (t : Store) : (s.store t).haw = s.haw := by
  unfold State.store State.storeDev State.storeBrick
  split
  · split <;> rfl
  · rfl

@[simp] theorem State.stores_haw (ts : List Store) : ∀ s : State, (s.stores ts).haw = s.haw := by
  induction ts with
  | nil => intro s; rfl
  | cons t ts ih => intro s; simpa [State.stores] using ih (s.store t)

@[simp] theorem State.commit_haw (s : State) (p : Nat) (ss : List Store) : (s.commit p ss).haw = s.haw := by
  unfold State.commit
  split <;> simp

/-- What a store faults depends on the windows, the partition and nothing else of the state. -/
theorem writesFault_congr {x y : Site} (hw : x.s.windows = y.s.windows) (hp : x.c.part = y.c.part) (ss : List Store) :
    x.writesFault ss = y.writesFault ss := by
  have hh : ∀ a n, x.s.accessFault x.c.part a n = y.s.accessFault y.c.part a n := by
    intro a n
    simp [State.accessFault, State.twoWindows, State.inWindows, State.keylessAt, State.windowsAt, hw, hp]
  simp [Site.writesFault, hh]

/-- Stores of this chip that fault nowhere become visible, and the command is done (R181). -/
theorem withStores_here {s : State} {e : Env} {c : Cmd} {i : Instr} {ss : List Store}
    (h1 : (e.site s).writesFault ss = none) (h2 : ss.filter Store.isFar = []) (h3 : s.remoteAt c.loc = none) :
    withStores s e c i ss = .done (s.commit e.c.part ss) := by
  have h4 : s.sendStores e c i ss = s.commit e.c.part ss := by simp [State.sendStores, h2]
  have h5 : (s.commit e.c.part ss).remoteAt c.loc = none := by simpa [State.remoteAt] using h3
  simp [withStores, h1, h2, h4, h5, State.unreachable]

/-- The end of a command whose stores lie on this chip, from any state with the windows and the links of its issue. -/
theorem stores_settle {s s1 : State} {c : Cmd} {e : Env} {i : Instr} {ss : List Store} (regs : List Nat)
    (hs : StoresHere s c e ss) (hw : s1.windows = (s.issued e c).windows) (hh : s1.haw = (s.issued e c).haw) :
    (withStores s1 (e.after c) c i ss).settle (e.after c) c regs c.last =
      (s1.commit e.c.part ss).finish (e.after c) c 6 regs c.last := by
  obtain ⟨h1, h2, h3⟩ := hs
  have w1 : ((e.after c).site s1).writesFault ss = none := by
    rw [← h1]
    apply writesFault_congr <;> simp [siteOf, Env.site, hw]
  have w3 : s1.remoteAt c.loc = none := by
    simpa [State.remoteAt, hh] using h3
  rw [withStores_here w1 h2 w3]
  simp [Ran.settle]

/-- The whole of a command whose reads and stores lie on this chip. -/
theorem stores_done {s : State} {c : Cmd} {e : Env} {i : Instr} {reads : List (Nat × Nat × Nat)} {r : Rnd}
    {ss : List Store} (regs : List Nat) (hs : StoresHere s c e ss) :
    (withStores ((s.fetched c e reads).modCtx e.key (Ctx.withRnd r)) (e.after c) c i ss).settle (e.after c) c regs c.last =
      storesDone s c e reads r ss regs :=
  stores_settle regs hs (by simp [State.fetched]) (by simp [State.fetched])

end Sys2Proof.Machine
end

