-- ==== Sys2Proof/Laws/Mem.lean ====
section
/-! SUPPORT. The byte memories: every operation keeps the canonical form, a byte reads as what was last stored to it, and a
store leaves every other byte alone. -/

namespace Sys2Proof

theorem mapGet_eq_some {α : Type} {l : List (Nat × α)} (h : l.Pairwise fun a b => a.1 < b.1) (k : Nat) (v : α) :
    mapGet k l = some v ↔ (k, v) ∈ l := by
  induction l with
  | nil => simp [mapGet]
  | cons c r ih =>
    obtain ⟨j, w⟩ := c
    rw [List.pairwise_cons] at h
    by_cases hk : k = j
    · subst hk
      simp only [mapGet, if_true, Option.some.injEq, List.mem_cons, Prod.mk.injEq, true_and]
      constructor
      · rintro rfl; exact .inl rfl
      · rintro (rfl | hm)
        · rfl
        · exact absurd (h.1 _ hm) (lt_irrefl _)
    · simp [mapGet, hk, ih h.2]

theorem mapGet_eq_none {α : Type} {l : List (Nat × α)} {k : Nat} (h : ∀ v, (k, v) ∉ l) : mapGet k l = none := by
  induction l with
  | nil => rfl
  | cons c r ih =>
    obtain ⟨j, w⟩ := c
    have hk : k ≠ j := by rintro rfl; exact h w (by simp)
    simp only [mapGet, if_neg hk]
    exact ih fun v hv => h v (List.mem_cons_of_mem _ hv)

/-- Two sparse maps with the same entry at a key read the same there. -/
theorem mapGet_congr {α : Type} {l m : List (Nat × α)} {k : Nat} (hl : l.Pairwise fun a b => a.1 < b.1)
    (hm : m.Pairwise fun a b => a.1 < b.1) (h : ∀ v, (k, v) ∈ l ↔ (k, v) ∈ m) : mapGet k l = mapGet k m := by
  cases e : mapGet k l with
  | some v => exact ((mapGet_eq_some hm k v).2 ((h v).1 ((mapGet_eq_some hl k v).1 e))).symm
  | none =>
    refine (mapGet_eq_none fun v hv => ?_).symm
    rw [(mapGet_eq_some hl k v).2 ((h v).2 hv)] at e
    simp at e

end Sys2Proof

namespace Sys2Proof.Machine

theorem risesFst_iff {α : Type} : ∀ l : List (Nat × α), risesFst l = true ↔ l.Pairwise fun a b => a.1 < b.1
  | [] => by simp [risesFst]
  | [_] => by simp [risesFst]
  | a :: b :: r => by
    rw [risesFst, Bool.and_eq_true, risesFst_iff (b :: r), List.pairwise_cons (a := a)]
    simp only [decide_eq_true_eq]
    constructor
    · rintro ⟨hab, hr⟩
      refine ⟨fun c hc => ?_, hr⟩
      rcases List.mem_cons.1 hc with rfl | hc
      · exact hab
      · exact hab.trans ((List.pairwise_cons.1 hr).1 c hc)
    · rintro ⟨h, hr⟩
      exact ⟨h b (by simp), hr⟩

theorem rises_iff : ∀ l : List Nat, rises l = true ↔ l.Pairwise (· < ·)
  | [] => by simp [rises]
  | [_] => by simp [rises]
  | a :: b :: r => by
    rw [rises, Bool.and_eq_true, rises_iff (b :: r), List.pairwise_cons (a := a)]
    simp only [decide_eq_true_eq]
    constructor
    · rintro ⟨hab, hr⟩
      refine ⟨fun c hc => ?_, hr⟩
      rcases List.mem_cons.1 hc with rfl | hc
      · exact hab
      · exact hab.trans ((List.pairwise_cons.1 hr).1 c hc)
    · rintro ⟨h, hr⟩
      exact ⟨h b (by simp), hr⟩

/-- The canonical form in the terms of the library. -/
theorem Mem.wf_iff (m : Mem) : m.wf = true ↔
    m.cells.Pairwise (fun a b => a.1 < b.1) ∧ (∀ c ∈ m.cells, c.2 ≠ 0) ∧
    m.written.Pairwise (· < ·) ∧ m.poison.Pairwise (· < ·) := by
  simp [Mem.wf, risesFst_iff, rises_iff, and_assoc]

@[simp] theorem Mem.empty_wf : Mem.empty.wf = true := rfl

theorem mem_setIns {a x : Nat} : ∀ {l : List Nat}, x ∈ setIns a l ↔ x = a ∨ x ∈ l
  | [] => by simp [setIns]
  | b :: r => by
    unfold setIns
    split
    · simp
    · split
      · next h => subst h; simp
      · simp only [List.mem_cons, mem_setIns (l := r)]
        tauto

theorem setIns_rises {a : Nat} : ∀ {l : List Nat}, l.Pairwise (· < ·) → (setIns a l).Pairwise (· < ·)
  | [], _ => by simp [setIns]
  | b :: r, h => by
    have hb := List.pairwise_cons.1 h
    unfold setIns
    split
    · next hab =>
      refine List.pairwise_cons.2 ⟨fun c hc => ?_, h⟩
      rcases List.mem_cons.1 hc with rfl | hc
      · exact hab
      · exact hab.trans (hb.1 c hc)
    · split
      · exact h
      · refine List.pairwise_cons.2 ⟨fun c hc => ?_, setIns_rises hb.2⟩
        rcases mem_setIns.1 hc with rfl | hc
        · omega
        · exact hb.1 c hc

/-- Marking a location poisoned keeps the canonical form. -/
theorem Mem.poisonAt_wf {m : Mem} (h : m.wf = true) (loc : Nat) : (m.poisonAt loc).wf = true := by
  rw [Mem.wf_iff] at h ⊢
  exact ⟨h.1, h.2.1, h.2.2.1, setIns_rises h.2.2.2⟩

@[simp] theorem Mem.poisonAt_rd (m : Mem) (loc a : Nat) : (m.poisonAt loc).rd a = m.rd a := rfl

theorem mem_runCells {k : Nat} {v : Byte} : ∀ {a : Nat} {bs : List Byte},
    (k, v) ∈ runCells a bs ↔ v ≠ 0 ∧ a ≤ k ∧ bs[k - a]? = some v
  | a, [] => by simp [runCells]
  | a, b :: r => by
    have ih := mem_runCells (k := k) (v := v) (a := a + 1) (bs := r)
    by_cases hk : k = a
    · subst hk
      have hn : (k, v) ∉ runCells (k + 1) r := fun h => by have := (ih.1 h).2.1; omega
      unfold runCells
      split
      · next hb => subst hb; simp [hn]; tauto
      · next hb =>
        simp [hn]
        constructor
        · rintro rfl; exact ⟨hb, rfl⟩
        · rintro ⟨_, rfl⟩; rfl
    · have hs : (k, v) ∈ runCells a (b :: r) ↔ (k, v) ∈ runCells (a + 1) r := by
        rw [runCells]; split <;> simp [hk]
      rw [hs, ih]
      constructor
      · rintro ⟨h1, h2, h3⟩
        refine ⟨h1, by omega, ?_⟩
        have : k - a = (k - (a + 1)) + 1 := by omega
        rw [this]; simpa using h3
      · rintro ⟨h1, h2, h3⟩
        refine ⟨h1, by omega, ?_⟩
        have : k - a = (k - (a + 1)) + 1 := by omega
        rw [this] at h3; simpa using h3

theorem runCells_rises : ∀ (a : Nat) (bs : List Byte), (runCells a bs).Pairwise fun x y => x.1 < y.1
  | _, [] => by simp [runCells]
  | a, b :: r => by
    have ih := runCells_rises (a + 1) r
    unfold runCells
    split
    · exact ih
    · refine List.pairwise_cons.2 ⟨fun c hc => ?_, ih⟩
      have := (mem_runCells (k := c.1) (v := c.2).1 hc).2.1
      show a < c.1
      omega

theorem mem_cellSplice {lo hi : Nat} {new l : List Host.Cell} {c : Host.Cell} :
    c ∈ cellSplice lo hi new l ↔ (c ∈ l ∧ c.1 < lo) ∨ c ∈ new ∨ (c ∈ l ∧ hi ≤ c.1) := by
  simp [cellSplice]

theorem cellSplice_rises {lo hi : Nat} {new l : List Host.Cell} (hlo : lo ≤ hi)
    (hl : l.Pairwise fun x y => x.1 < y.1) (hn : new.Pairwise fun x y => x.1 < y.1)
    (hr : ∀ c ∈ new, lo ≤ c.1 ∧ c.1 < hi) : (cellSplice lo hi new l).Pairwise fun x y => x.1 < y.1 := by
  unfold cellSplice
  simp only [List.pairwise_append, List.mem_filter, List.mem_append, decide_eq_true_eq]
  refine ⟨⟨hl.filter _, hn, ?_⟩, hl.filter _, ?_⟩
  · rintro x ⟨_, hx⟩ y hy
    have := hr y hy; omega
  · rintro x (⟨_, hx⟩ | hx) y ⟨_, hy⟩
    · omega
    · have := hr x hx; omega

theorem setSplice_rises {lo hi : Nat} {new l : List Nat} (hlo : lo ≤ hi) (hl : l.Pairwise (· < ·))
    (hn : new.Pairwise (· < ·)) (hr : ∀ c ∈ new, lo ≤ c ∧ c < hi) : (setSplice lo hi new l).Pairwise (· < ·) := by
  unfold setSplice
  simp only [List.pairwise_append, List.mem_filter, List.mem_append, decide_eq_true_eq]
  refine ⟨⟨hl.filter _, hn, ?_⟩, hl.filter _, ?_⟩
  · rintro x ⟨_, hx⟩ y hy
    have := hr y hy; omega
  · rintro x (⟨_, hx⟩ | hx) y ⟨_, hy⟩
    · omega
    · have := hr x hx; omega

/-- A store keeps the canonical form. -/
theorem Mem.put_wf {m : Mem} (h : m.wf = true) (g a : Nat) (bs : List Byte) : (m.put g a bs).wf = true := by
  unfold Mem.put
  split
  · exact h
  · next hb =>
    rw [Mem.wf_iff] at h ⊢
    obtain ⟨h1, h2, h3, h4⟩ := h
    refine ⟨cellSplice_rises (by omega) h1 (runCells_rises a bs) ?_, ?_, setSplice_rises ?_ h3 ?_ ?_, h4.filter _⟩
    · rintro ⟨k, v⟩ hc
      obtain ⟨_, hk, hv⟩ := mem_runCells.1 hc
      have := (List.getElem?_eq_some_iff.1 hv).1
      dsimp only; omega
    · intro c hc
      rcases mem_cellSplice.1 hc with hc | hc | hc
      · exact h2 c hc.1
      · exact (mem_runCells (k := c.1) (v := c.2).1 hc).1
      · exact h2 c hc.1
    · have : a / g ≤ (a + bs.length - 1) / g := Nat.div_le_div_right (by omega)
      omega
    · exact List.pairwise_lt_range'
    · intro c hc
      have := List.mem_range'_1.1 hc
      have h5 : a / g ≤ (a + bs.length - 1) / g := Nat.div_le_div_right (by omega)
      omega

/-- A range put back to never written keeps the canonical form. -/
theorem Mem.wipe_wf {m : Mem} (h : m.wf = true) (g a n : Nat) : (m.wipe g a n).wf = true := by
  rw [Mem.wf_iff] at h ⊢
  obtain ⟨h1, h2, h3, h4⟩ := h
  refine ⟨cellSplice_rises (by omega) h1 (by simp) (by simp), ?_,
    setSplice_rises (Nat.div_le_div_right (by omega)) h3 (by simp) (by simp),
    setSplice_rises (Nat.div_le_div_right (by omega)) h4 (by simp) (by simp)⟩
  intro c hc
  rcases mem_cellSplice.1 hc with hc | hc | hc
  · exact h2 c hc.1
  · simp at hc
  · exact h2 c hc.1

/-- A byte outside a store reads as before. -/
theorem Mem.put_rd_outside {m : Mem} (h : m.wf = true) (g a : Nat) (bs : List Byte) {k : Nat}
    (hk : k < a ∨ a + bs.length ≤ k) : (m.put g a bs).rd k = m.rd k := by
  have h' := Mem.put_wf h g a bs
  rw [Mem.wf_iff] at h h'
  unfold Mem.rd mapRd
  rw [mapGet_congr h'.1 h.1]
  intro v
  unfold Mem.put
  split
  · rfl
  · simp only [mem_cellSplice]
    constructor
    · rintro (hc | hc | hc)
      · exact hc.1
      · obtain ⟨_, h1, h2⟩ := mem_runCells.1 hc
        have := (List.getElem?_eq_some_iff.1 h2).1
        omega
      · exact hc.1
    · intro hc
      rcases hk with hk | hk
      · exact .inl ⟨hc, hk⟩
      · exact .inr (.inr ⟨hc, hk⟩)

/-- A byte inside a store reads as the byte stored. -/
theorem Mem.put_rd_inside {m : Mem} (h : m.wf = true) (g a : Nat) (bs : List Byte) {i : Nat} (hi : i < bs.length) :
    (m.put g a bs).rd (a + i) = bs[i] := by
  have h' := (Mem.wf_iff _).1 (Mem.put_wf h g a bs)
  have hb : bs.length ≠ 0 := by omega
  have hm : ∀ v, (a + i, v) ∈ (m.put g a bs).cells ↔ v ≠ 0 ∧ bs[i]? = some v := by
    intro v
    simp only [Mem.put, hb, if_false, mem_cellSplice, mem_runCells]
    constructor
    · rintro (hc | ⟨h1, _, h2⟩ | hc)
      · exact absurd hc.2 (by omega)
      · exact ⟨h1, by simpa using h2⟩
      · exact absurd hc.2 (by omega)
    · rintro ⟨h1, h2⟩
      exact .inr (.inl ⟨h1, by omega, by simpa using h2⟩)
  unfold Mem.rd mapRd
  by_cases hz : bs[i] = 0
  · rw [mapGet_eq_none]
    · simp [hz]
    · intro v hv
      obtain ⟨h1, h2⟩ := (hm v).1 hv
      rw [List.getElem?_eq_getElem hi, hz] at h2
      exact h1 (Option.some.inj h2).symm
  · rw [(mapGet_eq_some h'.1 (a + i) bs[i]).2 ((hm _).2 ⟨hz, List.getElem?_eq_getElem hi⟩)]
    rfl

/-- A byte outside a wiped range reads as before, one inside it reads as zero. -/
theorem Mem.wipe_rd {m : Mem} (h : m.wf = true) (g a n k : Nat) :
    (m.wipe g a n).rd k = if a ≤ k ∧ k < a + n then 0 else m.rd k := by
  have h' := (Mem.wf_iff _).1 (Mem.wipe_wf h g a n)
  rw [Mem.wf_iff] at h
  unfold Mem.rd mapRd
  split
  · next hk =>
    rw [mapGet_eq_none]
    · rfl
    · intro v hv
      rcases mem_cellSplice.1 hv with hc | hc | hc
      · exact absurd hc.2 (by dsimp only; omega)
      · simp at hc
      · exact absurd hc.2 (by dsimp only; omega)
  · next hk =>
    rw [mapGet_congr h'.1 h.1]
    intro v
    simp only [Mem.wipe, mem_cellSplice]
    constructor
    · rintro (hc | hc | hc)
      · exact hc.1
      · simp at hc
      · exact hc.1
    · intro hc
      rcases Nat.lt_or_ge k a with h1 | h1
      · exact .inl ⟨hc, h1⟩
      · exact .inr (.inr ⟨hc, by omega⟩)

/-- Copying a page as stored keeps the canonical form (R316). -/
theorem Mem.copyPage_wf {m : Mem} (h : m.wf = true) (src dst n : Nat) : (m.copyPage src dst n).wf = true := by
  rw [Mem.wf_iff] at h ⊢
  obtain ⟨h1, h2, h3, h4⟩ := h
  have shift : ∀ (l : List Nat) (a b k : Nat), l.Pairwise (· < ·) →
      (((l.filter fun w => decide (a ≤ w) && decide (w < a + k)).map fun w => w - a + b).Pairwise (· < ·)) := by
    intro l a b k hl
    rw [List.pairwise_map]
    refine (hl.filter _).imp_of_mem fun {x y} hx hy hxy => ?_
    simp only [List.mem_filter, Bool.and_eq_true, decide_eq_true_eq] at hx hy
    omega
  have inside : ∀ (l : List Nat) (a b k : Nat),
      ∀ c ∈ ((l.filter fun w => decide (a ≤ w) && decide (w < a + k)).map fun w => w - a + b), b ≤ c ∧ c < b + k := by
    intro l a b k c hc
    simp only [List.mem_map, List.mem_filter, Bool.and_eq_true, decide_eq_true_eq] at hc
    omega
  refine ⟨cellSplice_rises (by omega) h1 ?_ ?_, ?_, setSplice_rises (by omega) h3 (shift _ _ _ _ h3) (inside _ _ _ _),
    setSplice_rises (by omega) h4 (shift _ _ _ _ h4) (inside _ _ _ _)⟩
  · rw [List.pairwise_map]
    refine (h1.filter _).imp_of_mem fun {x y} hx hy hxy => ?_
    simp only [List.mem_filter, Bool.and_eq_true, decide_eq_true_eq] at hx hy
    dsimp only; omega
  · intro c hc
    simp only [List.mem_map, List.mem_filter, Bool.and_eq_true, decide_eq_true_eq] at hc
    obtain ⟨d, hd, rfl⟩ := hc
    dsimp only; omega
  · intro c hc
    rcases mem_cellSplice.1 hc with hc | hc | hc
    · exact h2 c hc.1
    · simp only [List.mem_map, List.mem_filter] at hc
      obtain ⟨d, hd, rfl⟩ := hc
      exact h2 d hd.1
    · exact h2 c hc.1

end Sys2Proof.Machine
end

