-- ==== Sys2Proof/Laws/Ops.lean ====
section
/-! SUPPORT. What the shared operations on messages, errors, lists and rings can change, said once each. A frame names every
field an operation may change; where an operation runs over a list, it keeps a view of the state without those fields. -/

namespace Sys2Proof.Machine

theorem forAll_keeps {α β : Type} (p : State → β) {g : State → α → State} (h : ∀ s a, p (g s a) = p s) :
    ∀ (l : List α) (s : State), p (forAll l g s) = p s
  | [], _ => rfl
  | a :: l, s => (forAll_keeps p h l (g s a)).trans (h s a)

/-! ### Messages and errors -/

theorem State.msix_frame (s : State) (f v : Nat) :
    s.msix f v = { s with outs := (s.msix f v).outs, pages := (s.msix f v).pages } := by
  unfold State.msix; split <;> rfl

theorem State.wardenStop_frame (s : State) (p : Phase) (c a b d : Nat) (u : UnitKey) :
    s.wardenStop p c a b d u =
      { s with wdn := (s.lastGasp c a b d u).wdn, pins := { s.pins with fatalN := false }, phase := p } := rfl

/-- A detected error changes the error handler's state, and where the warden takes over its last-gasp records, FATAL_N and
the phase. -/
theorem State.raise_frame (s : State) (e : ErrEvt) :
    s.raise e = { s with repair := (s.raise e).repair, wdn := (s.raise e).wdn
                         pins := (s.raise e).pins, phase := (s.raise e).phase } := by
  unfold State.raise State.await State.overflow
  simp only
  repeat' split
  all_goals rfl

theorem State.raiseW_frame (s : State) (u : UnitKey) (w p : Nat) (r : ErrRec) (c : ErrScope) :
    s.raiseW u w p r c = { s with repair := (s.raiseW u w p r c).repair, wdn := (s.raiseW u w p r c).wdn
                                  pins := (s.raiseW u w p r c).pins, phase := (s.raiseW u w p r c).phase } := by
  unfold State.raiseW
  simp only
  split
  · rw [State.raise_frame]; rfl
  · rw [State.raise_frame]

/-! ### Descriptors and completions -/

theorem State.endDesc_frame (s : State) (f n : Nat) (e : Ending) :
    s.endDesc f n e = { s with pages := (s.endDesc f n e).pages } := rfl

theorem State.faultDesc_frame (s : State) (f n : Nat) (r : ErrRec) (v : Nat) :
    s.faultDesc f n r v = { s with pages := (s.faultDesc f n r v).pages, repair := (s.faultDesc f n r v).repair
                                   wdn := (s.faultDesc f n r v).wdn, pins := (s.faultDesc f n r v).pins
                                   phase := (s.faultDesc f n r v).phase } := by
  unfold State.faultDesc
  split
  · rfl
  · rw [State.raise_frame]; rfl

theorem State.putCompletion_frame (s : State) (f n : Nat) (d : Desc) (e : Ending) (m : Bool) :
    s.putCompletion f n d e m = { s with outs := (s.putCompletion f n d e m).outs
                                         pages := (s.putCompletion f n d e m).pages } := by
  unfold State.putCompletion State.signal
  simp only
  repeat' split
  all_goals first | rfl | (rw [State.msix_frame]; rfl)

/-! ### Frames to other chips -/

/-- The state without what sending a frame may change: the outputs, the links, the flash bound of the transmit counter, and
the error 0x6040 of its end. -/
def State.sansLink (s : State) : State :=
  { s with outs := [], haw := State.reset.haw, flash := State.reset.flash, repair := State.reset.repair
           wdn := State.reset.wdn, pins := State.reset.pins, phase := State.reset.phase }

@[simp] theorem State.raise_sansLink (s : State) (e : ErrEvt) : (s.raise e).sansLink = s.sansLink := by
  rw [State.raise_frame]; rfl

@[simp] theorem State.advanceTxc_sansLink (s : State) : s.advanceTxc.sansLink = s.sansLink := by
  unfold State.advanceTxc State.raise1
  simp only
  repeat' split
  · rfl
  · rfl
  · rw [State.raise_sansLink]; rfl

@[simp] theorem State.xmit_sansLink (s : State) (p c l t psn job : Nat) (op d : List Byte) :
    (s.xmit p c l t psn job op d).sansLink = s.sansLink := by
  unfold State.xmit State.xmit1
  simp only
  split
  · split
    · rfl
    · rfl
  · split
    · exact s.advanceTxc_sansLink
    · exact s.advanceTxc_sansLink

@[simp] theorem State.sendCtrl_sansLink (s : State) (c l t job : Nat) (op d : List Byte) :
    (s.sendCtrl c l t job op d).sansLink = s.sansLink := by
  unfold State.sendCtrl
  split
  · rfl
  · split
    · rfl
    · exact State.xmit_sansLink ..

@[simp] theorem State.sendAborts_sansLink (s : State) (c : Coll) (code : Nat) :
    (s.sendAborts c code).sansLink = s.sansLink :=
  forAll_keeps State.sansLink (fun _ _ => State.sendCtrl_sansLink ..) _ s

@[simp] theorem State.dropColl_sansLink (s : State) (k : CollKey) : (s.dropColl k).sansLink = s.sansLink := rfl

@[simp] theorem State.abortColls_sansLink (s : State) (ks : List Nat) : (s.abortColls ks).sansLink = s.sansLink :=
  forAll_keeps State.sansLink (g := fun s c => (s.sendAborts c 0x3025).dropColl c.key)
    (fun s c => (State.dropColl_sansLink _ c.key).trans (s.sendAborts_sansLink c 0x3025)) _ s

/-! ### Lists -/

/-- The state without what the end of a list may change besides: its contexts, slots and pins, and its descriptor. -/
def State.sansList (s : State) : State :=
  { s.sansLink with pages := [], lists := [], ctxs := [], slots := [], mem := Mem.empty, mortar := State.reset.mortar }

theorem State.sansList_of {s t : State} (h : s.sansLink = t.sansLink) : s.sansList = t.sansList := by
  unfold State.sansList; rw [h]

@[simp] theorem State.raise_sansList (s : State) (e : ErrEvt) : (s.raise e).sansList = s.sansList :=
  State.sansList_of (s.raise_sansLink e)

@[simp] theorem State.dropList_sansList (s : State) (l : RunningList) : (s.dropList l).sansList = s.sansList := rfl

@[simp] theorem State.emit_sansList (s : State) (o : Out) : (s.emit o).sansList = s.sansList := rfl

@[simp] theorem State.endDesc_sansList (s : State) (f n : Nat) (e : Ending) : (s.endDesc f n e).sansList = s.sansList := rfl

@[simp] theorem State.abortColls_sansList (s : State) (ks : List Nat) : (s.abortColls ks).sansList = s.sansList :=
  State.sansList_of (s.abortColls_sansLink ks)

/-- A list that ends leaves everything alone but the outputs, the links and what is named in `sansList`. -/
@[simp] theorem State.endList_sansList (s : State) (o : Nat) (e : Ending) : (s.endList o e).sansList = s.sansList := by
  unfold State.endList
  split
  · exact State.endDesc_sansList ..
  · simp only [State.endDesc_sansList]
    split <;> split <;>
      simp only [State.emit_sansList, State.dropList_sansList, State.abortColls_sansList]

@[simp] theorem State.faultList_sansList (s : State) (o : Nat) (r : ErrRec) : (s.faultList o r).sansList = s.sansList := by
  unfold State.faultList
  simp only [State.raise_sansList, State.endList_sansList]

@[simp] theorem State.faultCmd_sansList (s : State) (e : Env) (c : Cmd) (code st : Nat) (rs : List Nat) (a l : Nat) :
    (s.faultCmd e c code st rs a l).sansList = s.sansList := State.faultList_sansList ..

/-! A field that `sansList` keeps is the same in two states that agree there. -/

theorem State.sansList_regs {s t : State} (h : s.sansList = t.sansList) : s.regs = t.regs := by
  have k := congrArg State.regs h; exact k
theorem State.sansList_parts {s t : State} (h : s.sansList = t.sansList) : s.parts = t.parts := by
  have k := congrArg State.parts h; exact k
theorem State.sansList_windows {s t : State} (h : s.sansList = t.sansList) : s.windows = t.windows := by
  have k := congrArg State.windows h; exact k
theorem State.sansList_bricks {s t : State} (h : s.sansList = t.sansList) : s.bricks = t.bricks := by
  have k := congrArg State.bricks h; exact k
theorem State.sansList_sec {s t : State} (h : s.sansList = t.sansList) : s.sec = t.sec := by
  have k := congrArg State.sec h; exact k
theorem State.sansList_time {s t : State} (h : s.sansList = t.sansList) : s.time = t.time := by
  have k := congrArg State.time h; exact k
theorem State.sansList_fuses {s t : State} (h : s.sansList = t.sansList) : s.fuses = t.fuses := by
  have k := congrArg State.fuses h; exact k
theorem State.sansList_boot {s t : State} (h : s.sansList = t.sansList) : s.boot = t.boot := by
  have k := congrArg State.boot h; exact k
theorem State.sansList_locked {s t : State} (h : s.sansList = t.sansList) : s.locked = t.locked := by
  have k := congrArg State.locked h; exact k

end Sys2Proof.Machine
end

