-- ==== Sys2Proof/Laws/Registers.lean ====
section
/-! SUPPORT. When a register write is taken: one lemma for PF0 BAR0, one for a function page. -/

namespace Sys2Proof.Machine

/-- A device that is up hears its register writes. -/
theorem State.deaf_up {s : State} (h : s.phase = .up) : s.deaf = false := by
  simp [State.deaf, h]

/-- A write of a 32-bit register of PF0 BAR0 that nothing forbids is performed. -/
theorem writeTop_taken {s : State} {o v : Nat} (hd : s.deaf = false) (hw : topWide o = false)
    (hh : (decide (4 ≤ o) && topWide (o - 4)) = false) (hr : s.topReason o v true = 0) : writeTop o v s = topEffect o v s := by
  simp [writeTop, hd, hw, hh, hr]

/-- A write of a 32-bit register of PF0 BAR0 that something forbids is counted. -/
theorem writeTop_ignored {s : State} {o v r : Nat} (hd : s.deaf = false) (hw : topWide o = false)
    (hh : (decide (4 ≤ o) && topWide (o - 4)) = false) (hr : s.topReason o v true = r) (h0 : r ≠ 0) :
    writeTop o v s = s.ignoreTop r o := by
  cases r with
  | zero => exact absurd rfl h0
  | succ r => simp [writeTop, hd, hw, hh, hr]

/-- Nothing forbids a write of a lockable register of an open device. -/
theorem State.topReason_open {s : State} {o v : Nat} (h : OpenTop s) (ha : topAccess o = .rwl)
    (hs : isHaw o = true → s.fuses.solitary = false) (hf : s.topForbids o v = false) (hb : s.topBadNow o v = false) :
    s.topReason o v true = 0 := by
  obtain ⟨h1, h2, h3⟩ := h
  have h4 : (isHaw o && s.fuses.solitary) = false := by
    cases hi : isHaw o
    · rfl
    · simp [hs hi]
  simp [State.topReason, ha, h4, State.serves, h1, h2, hf, h3, hb]

/-- Nothing forbids a write of a command register of a device that is READY. -/
theorem State.topReason_wo {s : State} {o v : Nat} (h1 : s.phase = .up) (h2 : s.boot.ready = true)
    (ha : topAccess o = .wo) (hs : isHaw o = true → s.fuses.solitary = false) (hf : s.topForbids o v = false)
    (hb : s.topBadNow o v = false) : s.topReason o v true = 0 := by
  have h4 : (isHaw o && s.fuses.solitary) = false := by
    cases hi : isHaw o
    · rfl
    · simp [hs hi]
  simp [State.topReason, ha, h4, State.serves, h1, h2, hf, hb]

@[simp] theorem State.seen_page (s : State) (f g : Nat) : (s.seen f).page g = s.page g := by
  unfold State.seen; split <;> rfl
@[simp] theorem State.seen_pageReason (s : State) (f g o v : Nat) : (s.seen f).pageReason g o v = s.pageReason g o v := by
  unfold State.seen; split <;> rfl

/-- A write of a 32-bit register of a function page that nothing forbids is performed. -/
theorem writePage_taken {s : State} {f o v : Nat} (hd : s.deaf = false) (hf : f < 16) (hw : pageWide o = false)
    (hh : (decide (4 ≤ o) && pageWide (o - 4)) = false) (hr : s.pageReason f o v = 0) :
    writePage f o v s = pageEffect f o v (s.seen f) := by
  have h16 : ¬ 16 ≤ f := by omega
  have := s.seen_pageReason f f o v
  unfold State.seen at this ⊢
  simp only [writePage, hd, h16, decide_false, Bool.or_false, Bool.false_eq_true, if_false, this, hr, hw, hh]

/-- A write of a 32-bit register of a function page that something forbids is counted. -/
theorem writePage_ignored {s : State} {f o v r : Nat} (hd : s.deaf = false) (hf : f < 16)
    (hr : s.pageReason f o v = r) (h0 : r ≠ 0) : writePage f o v s = (s.seen f).ignorePage f r o := by
  have h16 : ¬ 16 ≤ f := by omega
  have := s.seen_pageReason f f o v
  cases r with
  | zero => exact absurd rfl h0
  | succ r =>
    unfold State.seen at this ⊢
    simp only [writePage, hd, h16, decide_false, Bool.or_false, Bool.false_eq_true, if_false, this, hr]

/-- Nothing forbids a write of a lockable register of an open page. -/
theorem State.pageReason_open {s : State} {f o v : Nat} (h : OpenPage s f) (ha : pageAccess f o = .rwl) (ho : o ≠ 0x10C)
    (hb : (s.page f).forbids o v = false) : s.pageReason f o v = 0 := by
  obtain ⟨_, h1, h2, h3⟩ := h
  simp [State.pageReason, ha, State.servesPage, h1, h2, hb, h3, ho]

end Sys2Proof.Machine
end

