-- ==== Sys2Proof/Tests/Slice0.lean ====
section
/-! SUPPORT. Tests: which terms are well formed, single steps against values worked out from the manual by hand, and for
every statement a concrete state and operands that meet all its hypotheses: there the statement is applied to them, so
that each `by decide` is one of its hypotheses. -/

namespace Sys2Proof.Tests
open Sys2Proof.Machine

set_option Elab.async false

/-! ### Small states -/

/-- The device up and READY. -/
def up : State :=
  { State.reset with phase := .up, boot := { BootS.reset with ready := true }, pins := { PinS.reset with coldResetN := true } }

def tile (mem base rows cols stride fmt : Nat) : TileDesc :=
  { base := base, rows := rows, cols := cols, rowStride := stride, batchStride := 0, loopStride := 0, mem := mem, fmt := fmt
    loopSel := 0, argSel := 0, scaleOff := 0 }

def stream0 : StreamS := { ended := false, busy := .idle, loops := [] }
def loop0 : LoopReg := { holder := none, idx := 0, count := 0 }

/-- A context of rank 0 with windows of 64 KiB in OB and AM. -/
def ctx0 (tiles : List (Nat × TileDesc)) : Ctx :=
  { owner := 0, part := 0, rank := 0, strict := false, obBase := 0, obSize := 65536, amBase := 0, amSize := 65536
    reuseCount := 0, tiles := tiles, flags := [], counters := List.replicate 16 0, loops := List.replicate 8 loop0
    preds := List.replicate 8 false, args := List.replicate 64 0, streams := List.replicate 20 stream0
    cxIn := List.replicate 4 [], seedState := { s0 := 1, s1 := 2 }, strands := [] }

def list0 : RunningList :=
  { owner := 0, part := 0, ctx := 0, bricks := [0], startTime := 0, statsAddr := 0, reusable := false, dlns := []
    lastActive := 0, eligible := 0, reused := 0, voids := 0 }

/-- A list on context 0 of brick 0, of partition 0, which has the first GiB of device memory. -/
def running (x : Ctx) (ob : List Byte) : State :=
  { up with
    lists := [list0], ctxs := [(0, x)]
    parts := List.replicate 16 { Partition.reset with allocated := true, bricks := 1, size := 1 }
    windows := { Window.reset with valid := true, limit := 1 } :: List.replicate 31 Window.reset
    bricks := { BrickS.reset with ob := Mem.empty.put obGranule 0 ob } :: List.replicate 15 BrickS.reset }

def noWait : Wait := { kind := 0, index := 0, base := 0, step := 0, stepLc := 0 }
def noSig : Sig := { kind := 0, index := 0, amount := 0, target := 0xFF }

/-- The first command of a stream of that context, which waits for nothing, signals nothing and is not the last. -/
def cmd (stream : Nat) : Cmd :=
  { loc := { brick := 0, ctx := 0, stream := stream }, decodes := true, index := 0, last := false, wait0 := noWait
    wait1 := noWait, sig0 := noSig, sig1 := noSig, sel := 0 }

/-- Where a command of that context stands, and an operand of it. -/
def env0 (x : Ctx) (stream : Nat) : Env := { l := list0, c := x, key := 0, stream := stream, brick := 0 }
def op (reg : Nat) (t : TileDesc) : Opnd := { reg := reg, base := t.base, desc := t }

/-- What a command that runs meets, tested. -/
def runsB (s : State) (c : Cmd) (e : Env) (fits eng : Bool) (own : List (Nat × Bool)) : Bool :=
  s.awake && e.c.ready c.loc.stream && ! e.c.skipping c.loc.stream && cmdC2 c e fits eng own == none &&
  e.c.waitOk e.stream c.wait0 && e.c.waitOk e.stream c.wait1 && (e.after c).c.runs c.sel

theorem runs {s : State} {c : Cmd} {e : Env} {fits eng : Bool} {own : List (Nat × Bool)} (he : s.env c.loc = some e)
    (h : runsB s c e fits eng own = true) : Runs s c e fits eng own := by
  unfold runsB at h
  simp only [Bool.and_eq_true, Bool.not_eq_true', beq_iff_eq] at h
  obtain ⟨⟨⟨⟨⟨⟨a, b⟩, c'⟩, d⟩, e⟩, f⟩, g⟩ := h
  exact ⟨⟨he, a, b, c'⟩, d, e, f, g⟩

/-! ### Engine commands -/

def cvt0 : Cvt := { round := 0, ovf := 0 }
def unit1 : Scale := { src := 0, val := 0x3F800000 }
/-- FP32 1.0, 2.0, 3.0, 4.0. -/
def floats : List Byte := [0x3F800000, 0x40000000, 0x40400000, 0x40800000].flatMap (leBytes 4)
def t0 : TileDesc := tile 0 0 1 4 64 0
def t2 : TileDesc := tile 2 0 1 4 64 0
/-- Scalars in AM. -/
def t4 : TileDesc := tile 1 512 1 1 64 0
def t5 : TileDesc := tile 1 576 1 1 64 0
/-- One stored tile descriptor. -/
def t6 : TileDesc := tile 0 0 1 8 64 0
/-- Planes: an input and an output. -/
def t7 : TileDesc := { t0 with batchStride := 64 }
def t8 : TileDesc := { tile 0 256 1 4 64 0 with batchStride := 64 }
/-- Rows of 32 values. -/
def t9 : TileDesc := tile 0 1024 1 32 128 0
def t10 : TileDesc := tile 1 1024 1 32 128 0
/-- A scale record with one history slot, in device memory. -/
def t11 : TileDesc := tile 2 0x20000 1 17 128 0
def x1 : Ctx :=
  ctx0 [(0, t0), (2, t2), (4, t4), (5, t5), (6, t6), (7, t7), (8, t8), (9, t9), (10, t10), (11, t11)]
def scaleRec : List Byte := leBytes 2 1 ++ leBytes 1 3 ++ leBytes 5 0 ++ leBytes 4 0x3F800000 ++ leBytes 4 0x3F800000
def w1 : State := { running x1 floats with mem := Mem.empty.put devGranule 0x20000 scaleRec }
def copy0 : CopyF := { src := 0, dst := 2, dstKind := 0, trFirst := 0, trCount := 0, batch := 1, cvt := cvt0 }
def copy1 : CopyF := { copy0 with src := 6, dstKind := 1, trFirst := 63, trCount := 1 }
def pool0 : PoolF :=
  { x := 7, y := 8, ch := 1, fh := 1, fw := 1, sh := 1, sw := 1, dh := 1, dw := 1, mode := 0, cvt := cvt0, batch := 1
    xIstr := 0, yIstr := 0 }
def resamp0 : ResampF :=
  { x := 7, y := 8, ch := 1, kernel := 0, rx := 0x3F800000, ry := 0x3F800000, ox := 0, oy := 0, cvt := cvt0, batch := 1
    xIstr := 0, yIstr := 0 }
def act0 : ActF := { x := 0, y := 2, act := 0, scale := unit1, cvt := cvt0, batch := 1 }
def norm0 : NormF := { x := 9, y := 10, mode := 0, eps := 0, gamma := none, beta := none, statT := none, cvt := cvt0 }
def soft0 : SoftF := { x := 10, y := 9, c := unit1, maskMode := 0, maskT := 0, statT := none, cvt := cvt0 }
def scale0 (mode : Nat) : ScaleF :=
  { mode := mode, x := 0, src := 4, src2 := 4, recT := 11, r := 5, acc := 0, out := none, maxnorm := 0x3F800000, batch := 1 }

theorem test_control_met (h : Obligations.ControlCommandsComplete) :
    (∃ t, exec (.loopBegin (cmd 0) 0 (.imm 0)) w1 = .next t) ∧ (∃ t, exec (.predSet (cmd 0) 7 (.const true)) w1 = .next t) ∧
    (∃ t, exec (.fence (cmd 0)) w1 = .next t) :=
  ⟨⟨_, h.1 w1 (cmd 0) (env0 x1 0) 0 (.imm 0) (runs rfl (by decide +kernel))⟩,
   ⟨_, h.2.2.1 w1 (cmd 0) (env0 x1 0) 7 (.const true) (runs rfl (by decide +kernel))⟩,
   ⟨_, h.2.2.2.1 w1 (cmd 0) (env0 x1 0) (runs rfl (by decide +kernel)) (by decide +kernel)⟩⟩

theorem test_copy_window_met (h : Obligations.CopyAndWindowCommandsComplete) :
    (∃ t, exec (.copy (cmd 12) copy0) w1 = .next t) ∧ (∃ t, exec (.copy (cmd 12) copy1) w1 = .next t) ∧
    (∃ t, exec (.pool2d (cmd 8) pool0) w1 = .next t) ∧ (∃ t, exec (.resample (cmd 8) resamp0) w1 = .next t) :=
  ⟨⟨_, h.1 w1 (cmd 12) (env0 x1 12) copy0 (op 0 t0) (op 2 t2) (runs rfl (by decide +kernel)) rfl rfl rfl
      (by decide +kernel) ⟨by decide +kernel, by decide +kernel⟩ ⟨by decide +kernel, by decide +kernel, by decide +kernel⟩⟩,
   ⟨_, h.2.1 w1 (cmd 12) (env0 x1 12) copy1 (op 6 t6) (runs rfl (by decide +kernel)) rfl rfl (by decide +kernel)
      ⟨by decide +kernel, by decide +kernel⟩⟩,
   ⟨_, h.2.2.1 w1 (cmd 8) (env0 x1 8) pool0 (op 7 t7) (op 8 t8) (runs rfl (by decide +kernel)) rfl rfl
      (by decide +kernel) ⟨by decide +kernel, by decide +kernel⟩ ⟨by decide +kernel, by decide +kernel, by decide +kernel⟩⟩,
   ⟨_, h.2.2.2 w1 (cmd 8) (env0 x1 8) resamp0 (op 7 t7) (op 8 t8) (runs rfl (by decide +kernel)) rfl rfl
      (by decide +kernel) ⟨by decide +kernel, by decide +kernel⟩ ⟨by decide +kernel, by decide +kernel, by decide +kernel⟩⟩⟩

theorem test_vector_met (h : Obligations.VectorRowCommandsComplete) :
    (∃ t, exec (.act (cmd 4) act0) w1 = .next t) ∧ (∃ t, exec (.normRow (cmd 4) norm0) w1 = .next t) ∧
    (∃ t, exec (.softmaxRow (cmd 4) soft0) w1 = .next t) :=
  ⟨⟨_, h.1 w1 (cmd 4) (env0 x1 4) act0 (op 0 t0) (op 2 t2) (runs rfl (by decide +kernel)) rfl rfl
      (by decide +kernel) ⟨by decide +kernel, by decide +kernel⟩ ⟨by decide +kernel, by decide +kernel, by decide +kernel⟩⟩,
   ⟨_, h.2.1 w1 (cmd 4) (env0 x1 4) norm0 (op 9 t9) (op 10 t10) (runs rfl (by decide +kernel)) rfl rfl
      (by decide +kernel) ⟨by decide +kernel, by decide +kernel⟩ ⟨by decide +kernel, by decide +kernel, by decide +kernel⟩⟩,
   ⟨_, h.2.2 w1 (cmd 4) (env0 x1 4) soft0 (op 10 t10) (op 9 t9) (runs rfl (by decide +kernel)) rfl rfl
      (by decide +kernel) ⟨by decide +kernel, by decide +kernel⟩ ⟨by decide +kernel, by decide +kernel, by decide +kernel⟩⟩⟩

def imm0 : RngSrc := { src := 0, arg := 0, imm := 0 }
def rng0 : RngF :=
  { y := 2, gen := 0, dist := 0, p0 := 0, p1 := 0, seed := imm0, tid := imm0, idx := imm0, idxRow := 0, idxBatch := 0
    idxLsel := 0, idxLstr := 0, batch := 1, cvt := cvt0 }
def vote0 : VoteF := { x := 0, pred := 7, acc := 0, batch := 1 }

theorem test_scale_met (h : Obligations.ScaleAndRngCommandsComplete) :
    (∃ t, exec (.amax (cmd 4) (scale0 4)) w1 = .next t) ∧ (∃ t, exec (.sumsq (cmd 4) (scale0 0)) w1 = .next t) ∧
    (∃ t, exec (.push (cmd 4) (scale0 0)) w1 = .next t) ∧ (∃ t, exec (.clip (cmd 4) (scale0 0)) w1 = .next t) ∧
    (∃ t, exec (.product (cmd 4) (scale0 0)) w1 = .next t) ∧ (∃ t, exec (.rngFill (cmd 4) rng0) w1 = .next t) ∧
    (∃ t, exec (.nonfiniteVote (cmd 4) vote0) w1 = .next t) :=
  ⟨⟨_, (h.1 w1 (cmd 4) (env0 x1 4) (scale0 4) (op 0 t0) (op 5 t5) (runs rfl (by decide +kernel)) (by decide +kernel) rfl rfl
      (by decide +kernel) ⟨by decide +kernel, by decide +kernel⟩).1 ⟨by decide +kernel, by decide +kernel, by decide +kernel⟩⟩,
   ⟨_, (h.1 w1 (cmd 4) (env0 x1 4) (scale0 0) (op 0 t0) (op 5 t5) (runs rfl (by decide +kernel)) (by decide +kernel) rfl rfl
      (by decide +kernel) ⟨by decide +kernel, by decide +kernel⟩).2 ⟨by decide +kernel, by decide +kernel, by decide +kernel⟩⟩,
   ⟨_, h.2.1 w1 (cmd 4) (env0 x1 4) (scale0 0) (op 4 t4) (op 11 t11) (runs rfl (by decide +kernel)) (by decide +kernel) rfl rfl
      (by decide +kernel) ⟨by decide +kernel, by decide +kernel⟩ (by decide +kernel) ⟨by decide +kernel, by decide +kernel, by decide +kernel⟩⟩,
   ⟨_, h.2.2.1 w1 (cmd 4) (env0 x1 4) (scale0 0) (op 4 t4) (op 5 t5) (runs rfl (by decide +kernel)) (by decide +kernel) rfl rfl
      (by decide +kernel) ⟨by decide +kernel, by decide +kernel⟩ ⟨by decide +kernel, by decide +kernel, by decide +kernel⟩⟩,
   ⟨_, h.2.2.2.1 w1 (cmd 4) (env0 x1 4) (scale0 0) (op 4 t4) (op 4 t4) (op 5 t5) (runs rfl (by decide +kernel)) (by decide +kernel) rfl rfl rfl
      (by decide +kernel) ⟨by decide +kernel, by decide +kernel⟩ ⟨by decide +kernel, by decide +kernel, by decide +kernel⟩⟩,
   ⟨_, h.2.2.2.2.1 w1 (cmd 4) (env0 x1 4) rng0 (op 2 t2) (runs rfl (by decide +kernel)) rfl (by decide +kernel)
      ⟨by decide +kernel, by decide +kernel, by decide +kernel⟩⟩,
   ⟨_, h.2.2.2.2.2 w1 (cmd 4) (env0 x1 4) vote0 (op 0 t0) (runs rfl (by decide +kernel)) rfl (by decide +kernel)
      ⟨by decide +kernel, by decide +kernel⟩⟩⟩

/-- A, B and C of a 32 x 32 product; X, F and Y of a convolution of 32 channels to 32, 1 x 32 to 1 x 32. -/
def ta : TileDesc := tile 0 0 32 32 128 0
def tb : TileDesc := tile 0 4096 32 32 128 0
def tc : TileDesc := tile 1 0 32 32 128 0
def tg : TileDesc := tile 1 8192 32 32 128 0
def tx : TileDesc := { tile 0 8192 1 32 128 0 with batchStride := 128 }
def ty : TileDesc := { tile 1 16384 1 32 128 0 with batchStride := 128 }
def x2 : Ctx := ctx0 [(0, ta), (1, tb), (2, tc), (3, tg), (4, tx), (5, ty)]
def w2 : State := running x2 []
def epi0 : EpiF :=
  { proFmt := 0xFF, proCvt := cvt0, proScale := unit1, bias := none, epiScale := unit1, split := 0, actL := 0, actH := 0
    red := 0, redT := 0, gateT := none, d := none, dCvt := cvt0, stream := 0, reuse := 0, reuseBound := 0
    reuseMaxAge := 0, reuseEpoch := 0, reuseT := 0 }
def mat0 : MatF := { a := 0, b := 1, c := 2, bLayout := 0, batch := 1, epi := epi0 }
def mat2 : MatF := { mat0 with epi := { epi0 with gateT := some 3 } }
def conv0 : ConvF :=
  { x := 4, f := 0, y := 5, cin := 32, fh := 1, fw := 1, sh := 1, sw := 1, dh := 1, dw := 1, acc := 0, batch := 1
    xIstr := 0, yIstr := 0, epi := epi0 }

theorem test_matrix_met (h : Obligations.MatrixCommandsComplete) :
    (∃ t, exec (.matmul (cmd 0) mat0) w2 = .next t) ∧ (∃ t, exec (.matmulAcc (cmd 0) mat0) w2 = .next t) ∧
    (∃ t, exec (.matmulGated (cmd 0) mat2) w2 = .next t) ∧ (∃ t, exec (.conv2d (cmd 0) conv0) w2 = .next t) :=
  ⟨⟨_, h.1 w2 (cmd 0) (env0 x2 0) mat0 0 (.matmul (cmd 0) mat0) (op 0 ta) (op 1 tb) (op 2 tc)
      (.inl ⟨rfl, rfl, runs rfl (by decide +kernel)⟩) rfl rfl rfl (by decide +kernel) (by decide +kernel) (by decide +kernel) (by decide +kernel) (by decide +kernel) (by decide +kernel)⟩,
   ⟨_, h.1 w2 (cmd 0) (env0 x2 0) mat0 1 (.matmulAcc (cmd 0) mat0) (op 0 ta) (op 1 tb) (op 2 tc)
      (.inr (.inl ⟨rfl, rfl, runs rfl (by decide +kernel)⟩)) rfl rfl rfl (by decide +kernel) (by decide +kernel) (by decide +kernel) (by decide +kernel) (by decide +kernel) (by decide +kernel)⟩,
   ⟨_, h.1 w2 (cmd 0) (env0 x2 0) mat2 2 (.matmulGated (cmd 0) mat2) (op 0 ta) (op 1 tb) (op 2 tc)
      (.inr (.inr ⟨rfl, rfl, runs rfl (by decide +kernel)⟩)) rfl rfl rfl (by decide +kernel) (by decide +kernel) (by decide +kernel) (by decide +kernel) (by decide +kernel) (by decide +kernel)⟩,
   ⟨_, h.2 w2 (cmd 0) (env0 x2 0) conv0 (op 4 tx) (op 0 ta) (op 5 ty) (runs rfl (by decide +kernel)) rfl rfl rfl
      (by decide +kernel) (by decide +kernel) (by decide +kernel) (by decide +kernel) (by decide +kernel) (by decide +kernel)⟩⟩

/-- A splice table at 0x10000: one LIVE page of 64 KiB at 0x100000, one head of dk = dv = 32, two sequences of one slot, of
which the first names the page. -/
def splice : List Byte :=
  leBytes 4 0x53504C43 ++ leBytes 4 16 ++ leBytes 8 0x100000 ++ leBytes 4 1 ++ leBytes 4 2 ++ leBytes 4 1 ++ leBytes 4 0xFFFFFFFF ++
  leBytes 16 0 ++ leBytes 4 0xFFFFFFFF ++ leBytes 8 0 ++ leBytes 2 1 ++ leBytes 2 32 ++ leBytes 2 32 ++ leBytes 1 1 ++
  List.replicate 189 0 ++ leBytes 2 1 ++ leBytes 2 0 ++ leBytes 4 1 ++ leBytes 4 5 ++ List.replicate 52 0 ++
  leBytes 4 0 ++ leBytes 4 5 ++ leBytes 4 0xFFFFFFFF ++ leBytes 4 0
def ts : TileDesc := tile 2 0x10000 1 16 64 0
/-- Q, K and V of 32 x 32, O in AM, a K row tile of one token. -/
def tq : TileDesc := tile 0 0 32 32 64 1
def tk : TileDesc := tile 0 4096 32 32 64 1
def tr : TileDesc := tile 0 8192 1 32 64 1
def x3 : Ctx := ctx0 [(0, tq), (1, tk), (2, tc), (3, ts), (4, tr), (5, t10), (6, { t10 with base := 0 })]
def w3 : State := { running x3 [] with mem := Mem.empty.put devGranule 0x10000 splice }
def attn0 : AttnF :=
  { q := 0, kvSrc := 0, k := 1, v := 1, splT := 3, seqSrc := 0, seq := 0, firstToken := 0, tokens := 32, dv := 32, c := unit1
    maskMode := 0, maskT := 0, oT := 2, stateT := none, stateIn := 0, final := 0, y := 0, yCvt := cvt0, batch := 1, group := 1 }
def pages0 : PagesF :=
  { form := 0, splT := 3, seqSrc := 0, seq := 0, firstToken := 255, tokens := 1, head0 := 0, heads := 1, kt := some 4
    vt := none, srcSeqSrc := 0, srcSeq := 0, firstSlot := 0, slots := 1 }
/-- The walk over the slots of a table ends. -/
def SplRes.dev : SplRes → Dev
  | .done d _ | .wait d _ _ | .fail d _ _ _ => d
def SplRes.pins : SplRes → List Nat
  | .done _ p | .wait _ _ p | .fail _ _ _ p => p

theorem walked {r : SplRes} (h : (match r with | .done _ _ => true | _ => false) = true) :
    r = .done (SplRes.dev r) (SplRes.pins r) := by
  cases r <;> simp_all [SplRes.dev, SplRes.pins]
def hdr3 : SplH := w3.dev.header 0x10000

theorem test_attention_met (h : Obligations.AttentionCompletes) :
    (∃ t, exec (.attnBlock (cmd 0) attn0) w3 = .next t) ∧
    (∃ t, exec (.attnBlock (cmd 0) { attn0 with kvSrc := 1 }) w3 = .next t) :=
  ⟨⟨_, h.1 w3 (cmd 0) (env0 x3 0) attn0 ⟨op 0 tq, some (op 1 tk), some (op 1 tk), none, op 2 tc, none, none, none⟩
      (runs rfl (by decide +kernel)) rfl rfl (by decide +kernel) (fun _ hk => nomatch hk)
      (fun _ hk => nomatch hk) (by decide +kernel) ⟨by decide +kernel, by decide +kernel, by decide +kernel⟩⟩,
   ⟨_, h.2 w3 (cmd 0) (env0 x3 0) { attn0 with kvSrc := 1 } ⟨op 0 tq, none, none, some (op 3 ts), op 2 tc, none, none, none⟩
      hdr3 _ _ (runs rfl (by decide +kernel)) rfl rfl rfl rfl (by decide +kernel) (by decide +kernel) (by decide +kernel)
      (walked (by decide +kernel)) (by decide +kernel) ⟨by decide +kernel, by decide +kernel, by decide +kernel⟩⟩⟩

theorem test_pages_met (h : Obligations.PageCommandsComplete) :
    (∃ t, exec (.gatherPages (cmd 12) pages0) w3 = .next t) ∧
    (∃ t, exec (.scatterFork (cmd 12) { pages0 with seq := 1, form := 1 }) w3 = .next t) ∧
    (∃ t, exec (.scatterFree (cmd 12) { pages0 with form := 2 }) w3 = .next t) :=
  ⟨⟨_, h.1 w3 (cmd 12) (env0 x3 12) pages0 hdr3 _ _ (runs rfl (by decide +kernel)) (by decide +kernel) (by decide +kernel) (by decide +kernel)
      (walked (by decide +kernel)) (by decide +kernel) ⟨by decide +kernel, by decide +kernel, by decide +kernel⟩⟩,
   ⟨_, (h.2.2.1 w3 (cmd 12) (env0 x3 12) { pages0 with seq := 1, form := 1 } hdr3 _ _ (runs rfl (by decide +kernel)) (by decide +kernel) (by decide +kernel) (by decide +kernel)).1
      (by decide +kernel) (walked (by decide +kernel))⟩,
   ⟨_, (h.2.2.1 w3 (cmd 12) (env0 x3 12) { pages0 with form := 2 } hdr3 _ _ (runs rfl (by decide +kernel)) (by decide +kernel) (by decide +kernel) (by decide +kernel)).2
      (by decide +kernel) (walked (by decide +kernel))⟩⟩

def coll0 : CollF :=
  { op := 0, redop := 0, groupSrc := 0, groupArg := 0, tagSrc := 0, tag := 0, src := 0, x := 5, y := 6, blocks := 0
    log2V := 0, leafSrc := 0, leaf := 0, leaves := 1, root := 0, predIn := 0, predOut := 7, cvt := cvt0 }

theorem test_collectives_met (h : Obligations.CollectivesJoinTheirInstance) :
    (∃ t, exec (.allReduce (cmd 16) coll0) w3 = .next t) ∧ (∃ t, exec (.reduceScatter (cmd 16) { coll0 with op := 1 }) w3 = .next t) ∧
    (∃ t, exec (.vetoOr (cmd 16) { coll0 with op := 2 }) w3 = .next t) ∧ (∃ t, exec (.allGather (cmd 16) coll0) w3 = .next t) ∧
    (∃ t, exec (.broadcast (cmd 16) { coll0 with op := 1 }) w3 = .next t) :=
  ⟨⟨_, h w3 (cmd 16) (env0 x3 16) coll0 .allReduce _ (.inl ⟨rfl, rfl⟩) (runs rfl (by decide +kernel)) (by decide +kernel) (by decide +kernel)⟩,
   ⟨_, h w3 (cmd 16) (env0 x3 16) { coll0 with op := 1 } .reduceScatter _ (.inr (.inl ⟨rfl, rfl⟩)) (runs rfl (by decide +kernel)) (by decide +kernel) (by decide +kernel)⟩,
   ⟨_, h w3 (cmd 16) (env0 x3 16) { coll0 with op := 2 } .vetoOr _ (.inr (.inr (.inl ⟨rfl, rfl⟩))) (runs rfl (by decide +kernel)) (by decide +kernel) (by decide +kernel)⟩,
   ⟨_, h w3 (cmd 16) (env0 x3 16) coll0 .allGather _ (.inr (.inr (.inr (.inl ⟨rfl, rfl⟩)))) (runs rfl (by decide +kernel)) (by decide +kernel) (by decide +kernel)⟩,
   ⟨_, h w3 (cmd 16) (env0 x3 16) { coll0 with op := 1 } .broadcast _ (.inr (.inr (.inr (.inr ⟨rfl, rfl⟩)))) (runs rfl (by decide +kernel)) (by decide +kernel) (by decide +kernel)⟩⟩

def Ran.st : Ran → State
  | .done s | .fault s _ _ _ _ | .held s _ => s
theorem ended {r : Ran} (h : (match r with | .done _ => true | _ => false) = true) : r = .done (Ran.st r) := by
  cases r <;> simp_all [Ran.st]

/-- A context whose stream `i` holds a command in its execution. -/
def holding (x : Ctx) (i : Nat) (h : HeldOp) : Ctx :=
  { x with streams := x.streams.modify i fun t => { t with busy := .exec (cmd i) [] h } }
def x4 : Ctx := holding x3 12 (.pinGather pages0 x3.tiles 0x10000 0 0 [])
def w4 : State := { w3 with ctxs := [(0, x4)] }
def x5 : Ctx := holding x3 12 (.fork { pages0 with seq := 1 } 0x10000 0)
def w5 : State := { w3 with ctxs := [(0, x5)] }

theorem test_pages_resume_met (h : Obligations.PageCommandsComplete) :
    (∃ t, exec (.scatterWrite (cmd 12) { pages0 with form := 0 }) w3 = .next t) ∧
    (∃ t, exec (.pinResume (cmd 12).loc) w4 = .next t) ∧ (∃ t, exec (.forkResume (cmd 12).loc) w5 = .next t) :=
  ⟨⟨_, h.2.1 w3 (cmd 12) (env0 x3 12) pages0 hdr3 _ (runs rfl (by decide +kernel)) (by decide +kernel) (by decide +kernel) (by decide +kernel)
      ⟨by decide +kernel, by decide +kernel⟩ (by decide +kernel) (ended (by decide +kernel))⟩,
   ⟨_, h.2.2.2.1 w4 (cmd 12).loc (env0 x4 12) (cmd 12) [] pages0 x3.tiles 0x10000 0 0 [] _ _ (by decide +kernel) rfl rfl
      (walked (by decide +kernel))⟩,
   ⟨_, h.2.2.2.2 w5 (cmd 12).loc (env0 x5 12) (cmd 12) [] { pages0 with seq := 1 } 0x10000 0 _ _ (by decide +kernel) rfl rfl
      (walked (by decide +kernel))⟩⟩

/-- A loop of two iterations that stream 0 is in; a stream that runs beside it. -/
def x6 : Ctx :=
  { x1 with
    streams := x1.streams.modify 0 fun t => { t with loops := [{ lc := 7, skip := false }] }
    loops := x1.loops.modify 7 fun _ => { holder := some 0, idx := 0, count := 2 } }
def x7 : Ctx := holding x1 19 (.coll 0 [])
def w6 (x : Ctx) : State := { w1 with ctxs := [(0, x)] }

theorem test_control_waits_met (h : Obligations.ControlCommandsComplete) :
    (∃ t, exec (.loopEnd (cmd 0) 7) (w6 x6) = .next t) ∧ (∃ t, exec (.fence (cmd 0)) (w6 x7) = .next t) :=
  ⟨⟨_, h.2.1 (w6 x6) (cmd 0) (env0 x6 0) 7 ⟨rfl, by decide +kernel, by decide +kernel, by decide +kernel⟩ (by decide +kernel) (by decide +kernel)
      (by decide +kernel)⟩,
   ⟨_, h.2.2.2.2 (w6 x7) (cmd 0) (env0 x7 0) (runs rfl (by decide +kernel)) (by decide +kernel)⟩⟩

theorem test_gates_met (h : Obligations.EngineCommandsPassTheirGates) :
    exec (.fence (cmd 0)) up = .next up ∧
    (∃ t, exec (.fence { cmd 0 with decodes := false }) w1 = .next t) ∧
    (∃ t, exec (.fence { cmd 0 with wait0 := { noWait with kind := 1, index := 63 } }) w1 = .next t) ∧
    (∃ t, exec (.fence { cmd 0 with sel := 15 }) w1 = .next t) :=
  ⟨(h (.fence (cmd 0)) _ rfl).1 up (.inl rfl),
   ⟨_, (h (.fence { cmd 0 with decodes := false }) _ rfl).2.1 w1 (env0 x1 0) 0x1010 ⟨rfl, by decide +kernel, by decide +kernel, by decide +kernel⟩
      (by decide +kernel)⟩,
   ⟨_, (h (.fence { cmd 0 with wait0 := { noWait with kind := 1, index := 63 } }) _ rfl).2.2.1 w1 (env0 x1 0)
      ⟨rfl, by decide +kernel, by decide +kernel, by decide +kernel⟩ (by decide +kernel) (by decide +kernel)⟩,
   ⟨_, (h (.fence { cmd 0 with sel := 15 }) _ rfl).2.2.2 w1 (env0 x1 0) ⟨rfl, by decide +kernel, by decide +kernel, by decide +kernel⟩
      (by decide +kernel) (by decide +kernel) (by decide +kernel)⟩⟩

/-- Where every stream is idle nothing waits on a fence. -/
theorem idle_quiet : Quiet w1 (env0 x1 0) (cmd 0) := by
  refine ⟨rfl, rfl, rfl, by decide +kernel, fun k x hk i d regs w => ?_⟩
  have hx : x = x1 := by
    have h2 : mapGet k [(0, x1)] = some x := hk
    simp only [mapGet] at h2
    split at h2 <;> simp_all
  have hi : ∀ i, (x1.stream i).busy = .idle := by
    intro i
    by_cases h : i < 20
    · revert i; decide +kernel
    · have : x1.streams.length ≤ i := by have : x1.streams.length = 20 := rfl; omega
      simp [Ctx.stream, StreamS.reset, List.getElem?_eq_none this]
  rw [hx, hi i]
  simp

theorem test_whole_met (h1 : Obligations.StepRunsTheFrontCommand) (h2 : Obligations.StepKeepsMemoryCanonical)
    (h3 : Obligations.EngineCommandsKeepTheSetUp) (h4 : Obligations.CompletedCommandsChangeNothingElse) :
    step up = .next up.tick ∧ up.tick.memOk = true ∧ w1.fuses = w1.fuses ∧
    SameOutside w1 (storesDone w1 (cmd 0) (env0 x1 0) [] ((env0 x1 0).rnd0 (cmd 0)) [] []) [] :=
  ⟨h1.2 up rfl, h2 up up.tick (by decide +kernel) (h1.2 up rfl),
   (h3 up (.fence (cmd 0)) _ up rfl rfl).2.2.1 ▸ rfl,
   (h4 w1 (cmd 0) (env0 x1 0) (fitsCmd (cmd 0)) true [] [] ((env0 x1 0).rnd0 (cmd 0)) [] [] (runs rfl (by decide +kernel)) idle_quiet
      rfl (by simp)).1⟩

def blk : CxBlock := { member := 0, brow := 0, bcol := 0, rows := 1, cols := 1, fmt := 0, data := [0] }
def bo : BlockOut := { index := 0, stores := [], cx := some blk, eligible := false, reused := false }
def x8 : Ctx := holding x1 0 (.e8 3 [bo] none)
/-- The stream's input is full. -/
def x9 : Ctx := { x8 with cxIn := [[], [], [], List.replicate 8 blk] }
def shake0 : CollShake :=
  { op := 0, redop := 0, log2V := 0, root := 0, rows := 1, cols := 1, fmt := 0, yRows := 1, yCols := 1, yFmt := 0, leaf := 0
    leaves := 1, ranks := 1, crc := 0 }
/-- An instance that waits for another chip, and the time. -/
def inst : Coll :=
  { key := { group := 1, tag := 0, rank := 0, list := 0 }, chips := [1, 2], rankwise := false
    members := [{ chip := 1, rank := 0, shake := shake0, pred := some false, cmd := some (cmd 16, coll0), src := none, dst := none,
                   given := false }]
    agreed := false, nodes := [], progress := 0 }
def at_ (t : Nat) (s : State) : State := { s with time := { s.time with now := t } }
def w7 : State := { w1 with haw := { HawS.reset with colls := [inst] } }
/-- Every stream is held at C3 since time 0. -/
def x10 : Ctx := { x1 with streams := x1.streams.map fun t => { t with busy := .c3 0 } }

theorem test_streams_met (h : Obligations.StreamsAndStuckLists) :
    (∃ t, exec (.epilogueStreamHandoff (cmd 16).loc) w1 = .next t) ∧
    (∃ t, exec (.epilogueStreamHandoff (cmd 0).loc) (w6 x8) = .next t) ∧
    exec (.epilogueStreamHandoff (cmd 0).loc) (w6 x9) = .next (w6 x9) ∧
    (∃ t, exec (.collTimeout (cmd 16).loc) (at_ 100000000 w7) = .next t) ∧
    exec (.collTimeout (cmd 16).loc) (at_ 99999999 w7) = .next (at_ 99999999 w7) ∧
    (∃ t, exec (.contextDeadlock 0 0) (at_ 10000 (w6 x10)) = .next t) :=
  ⟨⟨_, h.1 w1 (cmd 16).loc (by decide +kernel) rfl⟩,
   ⟨_, h.2.1 (w6 x8) (cmd 0).loc (env0 x8 0) (cmd 0) [] 3 bo blk x8 (by decide +kernel) (by decide +kernel) rfl rfl (by decide +kernel) rfl rfl
      (by decide +kernel) (by decide +kernel) (by decide +kernel)⟩,
   h.2.2.1 (w6 x9) (cmd 0).loc (env0 x9 0) (cmd 0) [] 3 [bo] none rfl rfl (by decide +kernel) (by decide +kernel),
   ⟨_, h.2.2.2.1 (at_ 100000000 w7) (cmd 16).loc inst (by decide +kernel) (by decide +kernel) (by decide +kernel)⟩,
   h.2.2.2.2.1 (at_ 99999999 w7) (cmd 16).loc inst (by decide +kernel) (by decide +kernel),
   ⟨_, h.2.2.2.2.2 (at_ 10000 (w6 x10)) 0 0 list0 (by decide +kernel) (by decide +kernel)
      (by
        intro k hk x hx
        have h0 : k = 0 := by simpa [RunningList.keys, list0] using hk
        subst h0
        have : x = x10 := by have h2 : some x10 = some x := hx; injection h2 with h2; exact h2.symm
        subst this
        decide +kernel)
      ⟨0, by decide, x10, rfl, by decide +kernel⟩⟩⟩

/-! ### Rings, registers, set-up -/

/-- A descriptor of a type, with one byte of its body set. -/
def desc (type : Nat) (body : List Byte) : Desc :=
  { index := 0, type := type, flags := 0, tag := 7, dlnMode := 0, chain := 0, deadline := 0
    body := body ++ List.replicate (48 - body.length) 0, fetchTime := 0, malformed := none, stopped := false, plain := false
    missed := false, aborted := none }
/-- Ring 31 of function 15 enabled with completion ring 0, `d` at its head; one more descriptor published. -/
def ringWith (d : Desc) : State :=
  let p := Page.reset.modSq 31 fun q => { q with state := .enabled, ctrl := 0x80000004, inUse := 0x80000004, producer := 2, fetched := 1, queue := [d] }
  let p := p.modCq 0 fun c => { c with enabled := true, ctrl := 0x80000004 }
  { w1 with pages := w1.pages.set 15 { p with errEnabled := true, errCtrl := 0x80000004, sweepAt := 0 }, lists := [], ctxs := []
            parts := w1.parts.set 15 { Partition.reset with allocated := true, base := 1, size := 1, bricks := 2 }
            windows := w1.windows.set 15 { Window.reset with valid := true, base := 1, limit := 2, owner := 15 } }
def dNop : Desc := desc 0 []
def dRun : Desc := desc 1 []
def dCopy : Desc := desc 2 (leBytes 8 4096 ++ leBytes 8 0x40000000 ++ leBytes 8 64)
def dCopyOut : Desc := desc 2 (leBytes 8 4096 ++ leBytes 8 0x40000000 ++ leBytes 8 64 ++ leBytes 1 1)
def dCopy1 : Desc := desc 2 (leBytes 8 4096 ++ leBytes 8 0x40000000 ++ leBytes 8 64 ++ leBytes 2 0x100)
def dWaitR : Desc := desc 3 [0]
def dWaitBad : Desc := desc 3 [32]
def dWaitE : Desc := desc 4 [7]
def dTime : Desc := desc 5 []
def rNop : State := ringWith dNop
def rRun : State := ringWith dRun
def rCopy : State := ringWith dCopy
def rCopyOut : State := ringWith dCopyOut
def rCopy1 : State := { ringWith dCopy1 with hio1Down := some 0x3032 }
def rWaitR : State := (ringWith dWaitR).modSq 15 0 fun q => { q with state := .enabled }
def rWaitBad : State := ringWith dWaitBad
def rWaitE : State := (ringWith dWaitE).setReg 0x404700 0x800F0000
def rTime : State := ringWith dTime
def rDue : State := at_ 500 rNop
/-- The ring with a settled descriptor in flight, and with its completion ring full. -/
def okEnd : Ending := Ending.mk0 0 0
def rEnd : State := rNop.modSq 15 31 fun q => { q with queue := [], cur := some { desc := dNop, out := some okEnd, missed := false } }
def rFull : State := rEnd.modPage 15 fun p => p.modCq 0 fun c => { c with produced := 16 }
def rOld : State := at_ 1023000 (rNop.modPage 15 fun p => p.modCq 0 fun c => { c with irq := 0x210003FF, unsignalled := 1 })
/-- A bundle without tables and with empty streams, and the descriptor that names it. -/
def bundle (obSize : Nat) : List Byte :=
  let h := leBytes 4 0x4F504241 ++ leBytes 4 0 ++ leBytes 4 416 ++ leBytes 4 0 ++ leBytes 4 256 ++ List.replicate 12 0 ++ leBytes 4 384 ++
    List.replicate 216 0
  h ++ leBytes 4 (crc32 h) ++ leBytes 4 0 ++ leBytes 4 obSize ++ List.replicate 152 0
def dList : Desc := desc 1 (leBytes 8 0 ++ leBytes 4 416 ++ leBytes 2 1)
def dBad : Desc := desc 1 (leBytes 8 0 ++ leBytes 4 415 ++ leBytes 2 1)
def starting (d : Desc) : State :=
  { w1 with lists := [], ctxs := [], mem := Mem.empty.put devGranule 0 (bundle 65536)
            pages := w1.pages.set 0 (Page.reset.modSq 0 fun q => { q with state := .enabled, cur := some { desc := d, out := none, missed := false } }) }
def sList : State := starting dList
def sBad : State := starting dBad
/-- Another context of the brick has the same OB. -/
def sTight : State := { sList with ctxs := [(1, x1)] }
def plan0 : Plan := (sList.plan 0 dList).toOption.getD
  { strict := false, res := parseResources [], tiles := [], preds := [], dlns := [], streams := [], args := [] }

def v0 : Word := 0
def v1 : Word := 1
def v5 : Word := 5
def vOn : Word := 0x80000000
def q0 : DWord := 0
/-- A reserved region of 1 GiB at 371, one over partition 0, one that covers nothing. -/
def vRes : Word := 0x80010173
def vResBad : Word := 0x80010000
def held0 : State := State.reset
def dark : State := { up with phase := .dark }
/-- PART words of partition 15 that pass the checks: brick 15, 1 GiB at 371. -/
def upPart : State :=
  ((((up.setReg 0x3F000 0x8000).setReg 0x3F008 371).setReg 0x3F00C 1).setReg 0x3F010 0x0000FFFF).setReg 0x3F014 0x00010004
def clearing : State := up.modPart 15 fun p => { p with clearing := true, base := 371, size := 1 }
def rErr : State := rNop.modSq 15 31 fun q => { q with state := .error }
def rErrOnly : State := { up with pages := up.pages.set 15 { Page.reset with errEnabled := true } }
/-- A page ready for its rings: doorbell block, error ring and completion ring 0 on. -/
def ready15 : State :=
  let p := Page.reset.modCq 0 fun c => { c with enabled := true, ctrl := 0x80000004 }
  let p := { p with errEnabled := true, errCtrl := 0x80000004, dbBase := 512, ifver := 0, ifverSet := true, cls := 2 }
  { ringWith dNop with pages := up.pages.set 15 p }
def v6 : Word := 6
/-- The same without its error ring. -/
def err15 : State := ready15.modPage 15 fun p => { p with errEnabled := false, errCtrl := 0 }
def vf : State := { rNop with vfEnable := true }
def resetting : State := rNop.modPart 15 fun p => { p with resetting := true }
def tabOn : State := up.setReg 0x400000 1
def tabFull : State := { up with windows := { Window.reset with valid := true, base := 370, limit := 372 } :: List.replicate 31 Window.reset }
def strOn7 : State := up.setReg 0x404700 0x80000000
def vStr : Word := 0x80000000
def halted : State := up.modStr 7 fun t => { t with halted := true }
def bind1 : Binding := { mac := 5, partnerPort := 6, vlan := 0, prioData := 0, prioCtrl := 0, used := 1, rsvZero := true }
def bound : State := { up with haw := { HawS.reset with bindings := List.replicate 16 bind1 } }
def solo : State := { up with fuses := { Fuses.reset with solitary := true } }
def job1 : State := up.setReg 0x500040 9
def v9 : Word := 9
def listed : State := { up with lists := [list0] }
def gone : State := (up.setUnit { kind := 1, index := 15 } .retired)
def vUnit : Word := 0x0001000F
def aReadmit : Readmit := { unit := { kind := 3, index := 0 }, step := .selfTest }
def busyRepair : State := { gone with repair := { gone.repair with readmit := some aReadmit } }

/-! ### Resets, links, time, security -/

def calm : WarmIn := { unhealthy := [], undrained := [], selfTestFail := [] }
def noBank : Bank := { crcOk := false, seq := 0, count := 0, slots := [], concord := { contentsOk := false, fw := [], drv := [] } }
def train0 : TrainIn :=
  { serials := [0, 1, 2, 3, 4, 5, 6, 7], rate8 := true, failedPcs := [], failedStacks := [], spareAll := 4, spareMin := 1 }
def boot0 : BootIn :=
  { bootBank := false, dirOk := true, mirrorOk := true, bankA := noBank, bankB := noBank, instRec := none, train := train0
    selfTestFail := [], wdnOk := true }
def unpowered : State := { held0 with pins := { PinS.reset with pwrGood := false, coldResetN := true } }
def seized : State := { up with phase := .seized }
def mbox (c : Option Nat) (f : Option Fuses) : State := { up with sec := { SecS.reset with mboxCmd := c, fused := f } }
def mboxNone : State := mbox (some 1) none
def mboxFused : State := mbox (some 1) (some Fuses.reset)
def hio1Flr : State := { up with hio1Down := some 0x3034 }
def perstLow : State := { up with pins := { up.pins with perstN := [false, false] } }
def lost : State := { up with pins := { up.pins with lostClks := [.ing] } }
/-- PTP on domain 1 through ingest port 3. -/
def master0 : PtpMaster := { priority1 := 1, clockClass := 0, accuracy := 0, variance := 0, priority2 := 0, identity := 9, steps := 0 }
def master1 : PtpMaster := { master0 with identity := 8 }
def ptp0 : State :=
  let s := (up.setReg 0x400008 0x00080001).setReg 0x400400 1
  { s with ing := { s.ing with ports := List.replicate 4 { IngPort.reset with linkUp := true } }
           time := { s.time with now := 1000 } }
def ptpM : State := { ptp0 with ptp := { master := some master0, delay := some 5, lastSync := 0 } }
def ptpSt (st : TimeSt) : State := { ptpM with time := { ptpM.time with st := st } }
def ptpFree : State := ptpSt .free
def ptpAcq : State := ptpSt .acquire
def ptpLock : State := ptpSt .locked
def ptpStep : State := ptpSt .stepPending
def syncLate : State := at_ 4000000000 up
def slot1 : Slot :=
  { part := 0, kind := 0, item := .desc 0 0, policy := 0, ring := 0, sqIndex := 0, bySq := 0, byIndex := 0, tag := 0
    chain := 0, offset := 0, stream := 0
    exposure := 0, armed := some 0, deadline := 999, missed := false }
def armed : State := { up with slots := [(255, slot1)] }
def slotX : Nat × Slot := (255, slot1)
def ppsOn : State := up.setReg 0x20014 1
def pulsed : State := { at_ 1000000 up with pins := { up.pins with ppsOut := true } }
def level (n : Nat) : State := { up with sec := { SecS.reset with level := n } }
def level1 : State := level 1
def level2 : State := level 2
/-- Trigger 15 fires from time 0 on: a seize at INVASIVE, a trace at OBSERVE. -/
def trig2 : State := ((level2.setReg 0x8002E0 2).setReg 0x8002E4 16)
def trig1 : State := ((level1.setReg 0x8002E0 2).setReg 0x8002E4 1)
def flashAt (a : Nat) (c : Option FlashCmd) : State := { up with flash := { FlashS.reset with addr := a, cmd := c } }
def flashA : State := flashAt 0x1FFFFFF none
def flashB : State := flashAt 0x2000000 none
def flashInst : Nat := 0x7FFFF
def flashRead0 : State := flashAt 0 (some (.read 0))
def flashErase0 : State := flashAt 0 (some (.erase flashInst))
def flashProg0 : State := flashAt 0 (some (.program 256 [0x55]))
def readC : FlashCmd := .read 0
def over0 : OverrideRec := { serial := 1, setHash := 0, pairs := [1, 2, 3, 4], signer := .owner 0 }
def overBad : OverrideRec := { over0 with signer := .debugKey }
def gold0 : GoldenRec := { setHash := 0, signer := .owner 0 }
def gold1 : State := { up with boot := { up.boot with concordFromA := true } }
def goldBad : GoldenRec := { gold0 with setHash := 1 }
/-- A lifecycle record of kind 4 and a link-secret record in the mailbox buffer. -/
def lcRec : State := { up with sec := { SecS.reset with mboxBuf := runCells 0 (leBytes 4 0x4C435952 ++ leBytes 4 4 ++ leBytes 8 1) } }
def lcFuses : Fuses := (lcRec.lifecycleFuses (lcRec.mboxBytes 224)).getD Fuses.reset
def linkRec : State := { up with sec := { SecS.reset with mboxBuf := runCells 0 (leBytes 4 0x4C4B5352 ++ leBytes 4 1 ++ leBytes 8 1) } }
def owner0 : Signer := .owner 0
def noOne : Signer := .nobody
def token2 : Token := { bytes := leBytes 4 0x4442544B ++ leBytes 4 2 ++ leBytes 8 1 ++ List.replicate 144 0, signer := .debugKey }
def withToken : State := { up with sec := { SecS.reset with jtagToken := some token2 }, fuses := { Fuses.reset with lifecycle := .provisioned } }
def blank : State := { up with fuses := { Fuses.reset with lifecycle := .blank } }
def v2 : Word := 2
def v3 : Word := 3

/-! ### Memory, errors, repair -/

/-- The last line of way 15 of slice 7, and the last backed location of HBM. -/
def siteC : EccSite := { inCache := true, addr := 372 * 2 ^ 30 - 1, row := 0, slice := 7, way := 15, pinned := false, dirty := false, symbols := 1 }
def siteH : EccSite := { siteC with inCache := false }
def endOB : Nat := Config.obBytes - 1
def endAM : Nat := Config.amBytes - 1
def loc0 : Loc := { brick := 0, ctx := 0, stream := 0 }
def env1 : Env := env0 x1 0
def mig0 : Migration := { pc := 0, back := false, chunks := [30] }
def migB : Migration := { pc := 0, back := true, chunks := [31] }
def migDone : Migration := { pc := 0, back := false, chunks := [] }
def migr (m : Migration) : State := { up with mortar := { up.mortar with migr := List.replicate 8 [m] } }
def migrate : State := migr mig0
def migrated : State := migr migDone
def migrBack : State := migr migB
def move0 : SliceMove := { slice := 0, back := false, nodes := [255], turn := 7 }
def moving : State := { up with mortar := { up.mortar with moves := [move0] } }
def errOf (sev : Nat) : ErrEvt := { rec0 := ErrRec.mk0 0 0x1060 sev 0 noUnit 0, unit := noUnit, row := 0, scope := .none }
def err1 : ErrEvt := errOf 1
def err4 : ErrEvt := errOf 4
def inHand (e : ErrEvt) : State := { up with repair := { up.repair with inHand := some e } }
def hand1 : State := inHand err1
def hand4 : State := inHand err4
def handLate : State := at_ 10000000 hand1
def uRow : UnitKey := { kind := 4, index := 511 }
def uBrick : UnitKey := { kind := 1, index := 15 }
def uSlice : UnitKey := { kind := 3, index := 7 }
def readm (u : UnitKey) (st : ReadmitStep) : State := at_ 5 { up with repair := { up.repair with readmit := some { unit := u, step := st } } }
def rSelf : State := readm uSlice .selfTest
def rSelfB : State := readm uBrick .selfTest
def rProb5 : State := readm uSlice (.probation 5)
def rProb6 : State := readm uSlice (.probation 6)
def rHand : State := readm uSlice (.handOver [])
def rHandL : State := readm uSlice (.handOver [0])
def tick1 : State := at_ 1001 up
def onTime : State := { armed with slots := [(255, { slot1 with deadline := 0 })] }

/-! ### Ingest and Hawser -/

def pay (exposure ts index : Nat) (px : List Byte) : List Byte :=
  beBytes 1 1 ++ beBytes 1 63 ++ beBytes 1 1 ++ beBytes 1 0 ++ beBytes 4 exposure ++ beBytes 8 ts ++ beBytes 4 index ++ beBytes 2 0 ++
    beBytes 2 2 ++ beBytes 2 0 ++ beBytes 2 2 ++ beBytes 4 0 ++ px
/-- One strip of source 63, two by two bytes, on port 3. -/
def pkt : Packet :=
  { port := 3, fcsOk := true, fecBad := false, addressed := true, udp := true, fragment := false, checksumOk := true
    bufferFull := false, vlan := none, ipv6 := false, dstIp := 0x0A000001, udpPort := 65535, payload := pay 5 9 0 [1, 2, 3, 4] }
def pktBad : Packet := { pkt with fcsOk := false }
def pktElse : Packet := { pkt with addressed := false }
def frame63 : Frame :=
  { source := 63, ts := 9, strips := [], badStrips := [], expected := 1, first := 0, last := 0, extent := 4096, size := 64 }
def epoch5 : Epoch :=
  { exposure := 5, state := .gathering, tOpen := 0, stamp := 9, tClose := 0, reason := 0, ref := some 63, frames := [frame63], out := none }
/-- Port 3 started and up, source 63 and stream 7 of partition 15 set up, and rule 127 from one to the other. -/
def ingUp : State :=
  let s := ((up.setReg 0x400400 1).setReg 0x400410 0x0A000001).setReg 0x404700 0x800F0000
  let s := ((s.setReg 0x401FC0 0x80000001).setReg 0x401FC4 0x00020002).setReg 0x401FC8 0x00020002
  let s := ((s.setReg 0x402FE0 0x80F00000).setReg 0x402FE4 0x0000FFFF).setReg 0x402FE8 0x003F0700
  let s := ((s.setReg 0x404710 10).setReg 0x404718 0x40000000).setReg 0x404720 0x00000101
  let s := { s with parts := List.replicate 16 { Partition.reset with allocated := true, bricks := 1, base := 1, size := 1 }
                    windows := List.replicate 1 { Window.reset with valid := true, base := 1, limit := 2, owner := 15 } }
  { s with ing := { s.ing with ports := List.replicate 4 { IngPort.reset with linkUp := true } } }
/-- The same with no rule. -/
def noRule : State := ingUp.setReg 0x402FE0 0
def gathering : State := ingUp.modStr 7 fun t => { t with epochs := [epoch5] }
def gatherEnd : State := at_ 10000 gathering
def epochC : Epoch := { epoch5 with state := .closing, tClose := 1, reason := 1 }
def closing : State := ingUp.modStr 7 fun t => { t with epochs := [epochC] }
def epochO : Epoch := { epochC with state := .fusing, out := some (closing.fuse 7 epochC).out }
def fused0 : FusionOut := (closing.fuse 7 epochC).out
def fusing : State := ingUp.modStr 7 fun t => { t with epochs := [epochO] }
def ingDoze : State := { ingUp with wdn := { ingUp.wdn with st := .doze } }
def arp0 : ArpReq := { port := 3, ipv6 := false, target := 0x0A000001 }
def arp1 : ArpReq := { arp0 with target := 1 }
def ingDown : State := { ingUp with ing := { ingUp.ing with ports := List.replicate 4 IngPort.reset } }

/-- Port 15 in a state, a secret of generation 0, plane 15 to chip 2, job 9 on partition 15. -/
def hawIn (st : PortSt) : State :=
  let s := (ingUp.setReg 0x50007C 9)
  { s with haw := { HawS.reset with
      ports := List.replicate 15 HawPort.reset ++ [{ HawPort.reset with state := st }]
      bindings := List.replicate 16 bind1, secrets := [{ gen := 0, secret := 0 }], planes := [(2, [15])], epochEnd := 65536 } }
def hUp : State := hawIn .up
def hDown : State := hawIn .down
def hTrain : State := hawIn .training
def hBind : State := hawIn .binding
def hLate : State := at_ 35000000000 hBind
def retryWith (n : Nat) : State := hUp.modPort 15 fun q => { q with retry := true, replayCount := n }
def hRetry : State := retryWith 7
def hRetry8 : State := retryWith 8
def txf (n : Nat) : TxFrame := { psn := 0, type := 2, owner := 0, tag := 0, job := 9, op := [], data := [], attempts := n }
def conn0 : Conn := { chip := 2, lane := 15, plane := 15, txPsn := 1, unacked := [], rxNext := 0, rxOwed := 0, rxSince := 0 }
def hConn (c : Conn) : State := { hUp with haw := { hUp.haw with conns := [c] } }
def hOwed : State := hConn { conn0 with rxOwed := 1 }
def tx1 : TxFrame := txf 1
def tx8 : TxFrame := txf 8
def hSent : State := hConn { conn0 with unacked := [tx1] }
def hLost : State := hConn { conn0 with unacked := [tx8] }
/-- A frame of job 9 from chip 2 on lane 15. -/
def fr (op data : List Byte) : HawFrame :=
  { port := 15, authOk := true, last := false, src := 2, job := 9, psn := 0, ackPsn := 0, lane := 15, keyId := 0, op := op, data := data }
def frWrite : HawFrame := fr (beBytes 8 0x40000000 ++ beBytes 8 0) [1, 2, 3, 4]
def frNoJob : HawFrame := { frWrite with job := 8 }
def frLate : HawFrame := { frWrite with psn := 1 }
def frRead : HawFrame := fr (beBytes 8 0x40000000 ++ beBytes 4 3 ++ beBytes 4 64) []
def frColl : HawFrame := fr (beBytes 4 7 ++ beBytes 4 3 ++ beBytes 8 0) [1, 2, 3, 4]
/-- A frame whose header is one byte after another. -/
def frOp (a b : Nat) : HawFrame := fr (beBytes 1 a ++ beBytes 1 b ++ beBytes 2 0x1150 ++ beBytes 4 7 ++ beBytes 4 3 ++ beBytes 4 0) []
def frBadAuth : HawFrame := { frWrite with authOk := false }
def op0 : HawFrame := frOp 0 0
def op1 : HawFrame := frOp 1 0
def op4 : HawFrame := frOp 4 0
def opOn : HawFrame := frOp 15 1
def coll7 : Coll :=
  { key := { group := 7, tag := 3, rank := 0, list := 0 }, chips := [0, 2], rankwise := false, members := [], agreed := true
    nodes := [], progress := 0 }
def hColl : State := { hUp with haw := { hUp.haw with colls := [coll7] } }

/-! ### The warden -/

def sens (i n : Nat) (bad : Bool) : State := up.modSensor i fun x => { x with invalid := n, failed := bad }
def sens4 : State := sens 95 4 false
def sensBad : State := sens 95 4 true
def sensor0 : Sensor := Sensor.reset
def sensor4 : Sensor := { sensor0 with samples := [1, 2, 3, 4] }
def levels (l n : Nat) : State := up.modBp 15 fun p => { p with level := l, next := some n }
def slower : State := levels 1 7
/-- A rise to P1: the rail stands there and the droop detector reads its 880 mV. -/
def faster : State := (levels 7 1).modSensor 111 fun x => { x with y := 3520 }
def avsOn (k : Nat) : State := { up with wdn := { up.wdn with avs := some (3, 3520, k) } }
def avs0 : State := avsOn 0
def avs3 : State := avsOn 3
def avs4 : State := avsOn 4
def rail0 : RailRead := { mv := 1000, ma := 1000, ok := true }
def rails7 : List RailRead := List.replicate 7 rail0
def pw (st : PwrSt) : State := { up with wdn := { WdnS.reset with st := st } }
def pIdle : State := pw .idle
def pDoze : State := pw .doze
def pWarden : State := pw .warden
/-- With each timer set to 1 and elapsed. -/
def tRun : State := at_ 1000 (up.setReg 0x600824 1)
def tIdle : State := at_ 1000000 (pIdle.setReg 0x600828 1)
def tDoze : State := at_ 1000000000 (pDoze.setReg 0x60082C 1)
def tNone : State := (up.setReg 0x600828 0).setReg 0x60082C 0
def tWake : State := at_ 9 (pDoze.setReg 0x600830 9)
def tEarly : State := up.setReg 0x600830 9
def waking : State := { up with wdn := { WdnS.reset with st := .warden, waking := true, busy := true } }
def trainBad : TrainIn := { train0 with failedStacks := [7] }
def trained : State := (waking.train train0).getD up
def tested : State := (({ trained with mem := Mem.empty }).selfTests []).getD up
def draining (why : DrainWhy) : State := up.modBrick 15 fun b => { b with drain := some why }
def drainR : State := draining (.reset 15)
def drainD : State := { draining .doze with wdn := { WdnS.reset with st := .idle, busy := true } }

/-! ### What every clause asks for

One theorem a statement: the hypotheses of each of its clauses, in order, at the state and operands named, which are
boundary values where the clause has a range. -/

/-- No other brick drains. -/
theorem drainD_only : ∀ k, k ≠ 15 → (drainD.brick k).drain ≠ some .doze := by
  intro k h
  by_cases hk : k < 16
  · exact (by decide +kernel : ∀ k < 16, k ≠ 15 → (drainD.brick k).drain ≠ some .doze) k hk h
  · have e : drainD.bricks.length = 16 := by decide +kernel
    have g : drainD.brick k = BrickS.reset := by
      simp only [State.brick]
      exact List.getD_eq_default _ _ (by omega)
    rw [g]
    decide

/-- The plan of `sList`, and which of the two states has room for it. -/
theorem plan0_ok : sList.plan 0 dList = .ok plan0 ∧ sList.roomFor dList.bricks plan0.res = true ∧
    sTight.roomFor dList.bricks plan0.res = false := by
  have h : (match sList.plan 0 dList with
    | .ok p => sList.roomFor dList.bricks p.res && ! sTight.roomFor dList.bricks p.res
    | .error _ => false) = true := by
    set_option maxRecDepth 20000 in decide +kernel
  unfold plan0
  revert h
  cases sList.plan 0 dList <;> simp [Except.toOption]

set_option maxRecDepth 20000 in
theorem sTight_plan : sTight.plan 0 dList = sList.plan 0 dList := rfl

theorem test_ListsStart_met :
    ((sList.sq 0 0).cur = some { desc := dList, out := none, missed := false } ∧ dList.type = 1 ∧ sList.ringsOn 0 =
      true ∧ sList.list? (ownerOf 0 0) = none ∧ sList.ctxFree dList.bricks (dList.f 0x1E 1) = true ∧ sList.plan 0
      dList = .ok plan0 ∧ sList.roomFor dList.bricks plan0.res = true) ∧
    ((sBad.sq 0 0).cur = some { desc := dBad, out := none, missed := false } ∧ dBad.type = 1 ∧ sBad.ringsOn 0 = true
      ∧ sBad.list? (ownerOf 0 0) = none ∧ sBad.ctxFree dBad.bricks (dBad.f 0x1E 1) = true ∧ sBad.plan 0 dBad = .error
      0x1001) ∧
    ((sTight.sq 0 0).cur = some { desc := dList, out := none, missed := false } ∧ dList.type = 1 ∧ sTight.plan 0
      dList = .ok plan0 ∧ sTight.roomFor dList.bricks plan0.res = false) :=
  ⟨⟨by decide +kernel, by decide +kernel, by decide +kernel, by decide +kernel, by decide +kernel, plan0_ok.1, plan0_ok.2.1⟩,
   set_option maxRecDepth 20000 in by decide +kernel,
   by decide +kernel, by decide +kernel, sTight_plan.trans plan0_ok.1, plan0_ok.2.2⟩

theorem test_DescriptorsRun_met :
    ((rNop.ringsOn 15 = true ∧ (rNop.sq 15 31).state = .enabled ∧ (rNop.sq 15 31).disabling = false ∧ rNop.head? 15
      31 = some dNop ∧ rNop.unrun 15 dNop = none) ∧ dNop.type = 0) ∧
    ((rRun.ringsOn 15 = true ∧ (rRun.sq 15 31).state = .enabled ∧ (rRun.sq 15 31).disabling = false ∧ rRun.head? 15
      31 = some dRun ∧ rRun.unrun 15 dRun = none) ∧ dRun.type = 1) ∧
    ((rWaitR.ringsOn 15 = true ∧ (rWaitR.sq 15 31).state = .enabled ∧ (rWaitR.sq 15 31).disabling = false ∧
      rWaitR.head? 15 31 = some dWaitR ∧ rWaitR.unrun 15 dWaitR = none) ∧ dWaitR.type = 3 ∧ (rWaitR.letRun 15 31
      dWaitR none).ringBad 15 31 dWaitR = false) ∧
    ((rWaitBad.ringsOn 15 = true ∧ (rWaitBad.sq 15 31).state = .enabled ∧ (rWaitBad.sq 15 31).disabling = false ∧
      rWaitBad.head? 15 31 = some dWaitBad ∧ rWaitBad.unrun 15 dWaitBad = none) ∧ dWaitBad.type = 3 ∧ (rWaitBad.letRun
      15 31 dWaitBad none).ringBad 15 31 dWaitBad = true) ∧
    ((rWaitE.ringsOn 15 = true ∧ (rWaitE.sq 15 31).state = .enabled ∧ (rWaitE.sq 15 31).disabling = false ∧
      rWaitE.head? 15 31 = some dWaitE ∧ rWaitE.unrun 15 dWaitE = none) ∧ dWaitE.type = 4 ∧ dWaitE.f 0x10 1 ≤ 7 ∧
      rWaitE.strOn (dWaitE.f 0x10 1) = true ∧ rWaitE.strPart (dWaitE.f 0x10 1) = 15) ∧
    ((rTime.ringsOn 15 = true ∧ (rTime.sq 15 31).state = .enabled ∧ (rTime.sq 15 31).disabling = false ∧ rTime.head?
      15 31 = some dTime ∧ rTime.unrun 15 dTime = none) ∧ dTime.type = 5) := by
  refine ⟨?_, ?_, ?_, ?_, ?_, ?_⟩ <;> decide +kernel

theorem test_HostCopiesMoveOrFail_met :
    ((rCopy.ringsOn 15 = true ∧ (rCopy.sq 15 31).state = .enabled ∧ (rCopy.sq 15 31).disabling = false ∧ rCopy.head?
      15 31 = some dCopy ∧ rCopy.unrun 15 dCopy = none) ∧ dCopy.type = 2 ∧ dCopy.dir = 0 ∧ dCopy.length ≠ 0 ∧
      (dCopy.port = 0 ∨ rCopy.hio1Down = none) ∧ rCopy.accessFault 15 dCopy.devAddr dCopy.length = none) ∧
    ((rCopyOut.ringsOn 15 = true ∧ (rCopyOut.sq 15 31).state = .enabled ∧ (rCopyOut.sq 15 31).disabling = false ∧
      rCopyOut.head? 15 31 = some dCopyOut ∧ rCopyOut.unrun 15 dCopyOut = none) ∧ dCopyOut.type = 2 ∧ dCopyOut.dir =
      1 ∧ dCopyOut.length ≠ 0 ∧ (dCopyOut.port = 0 ∨ rCopyOut.hio1Down = none) ∧ rCopyOut.accessFault 15
      dCopyOut.devAddr dCopyOut.length = none ∧ rCopyOut.mem.firstPoison dCopyOut.devAddr dCopyOut.length = none) ∧
    ((rCopy1.ringsOn 15 = true ∧ (rCopy1.sq 15 31).state = .enabled ∧ (rCopy1.sq 15 31).disabling = false ∧
      rCopy1.head? 15 31 = some dCopy1 ∧ rCopy1.unrun 15 dCopy1 = none) ∧ dCopy1.type = 2 ∧ dCopy1.port ≠ 0 ∧
      rCopy1.hio1Down = some 0x3032) ∧
    ((rCopy.ringsOn 15 = true ∧ (rCopy.sq 15 31).state = .enabled ∧ (rCopy.sq 15 31).disabling = false ∧ rCopy.head?
      15 31 = some dCopy ∧ rCopy.unrun 15 dCopy = none) ∧ dCopy.type = 2) ∧
    (rNop.ringsOn 15 = true ∧ (rNop.sq 15 31).state = .enabled ∧ (rNop.sq 15 31).disabling = false ∧ (rNop.sq 15
      31).ahead (rNop.sq 15 31).producer ≠ 0) ∧
    (15 < up.pages.length) := by
  refine ⟨?_, ?_, ?_, ?_, ?_, ?_⟩ <;> decide +kernel

theorem test_SweepsAndFetches_met :
    (rDue.ringsOn 15 = true ∧ (rDue.page 15).anyRing = true ∧ 15 < 16 ∧ 15 < rDue.pages.length ∧ (rDue.page
      15).sweepAt + (rDue.page 15).sweepInterval ≤ rDue.now) ∧
    (rNop.ringsOn 15 = true ∧ (rNop.sq 15 31).state = .enabled ∧ (rNop.sq 15 31).disabling = false ∧ (rNop.sq 15
      31).ahead (rNop.sq 15 31).producer ≠ 0 ∧ 15 < rNop.pages.length) ∧
    ((up.sq 0 0).state ≠ .enabled ∨ (up.sq 0 0).ahead (up.sq 0 0).producer = 0) := by
  refine ⟨?_, ?_, ?_⟩ <;> decide +kernel

theorem test_CompletionsAreWritten_met :
    (rEnd.ringsOn 15 = true ∧ (rEnd.sq 15 31).cur = some { desc := dNop, out := some okEnd, missed := false } ∧
      rEnd.canWrite 15 31 dNop okEnd = true ∧ lateFirst rEnd.now (rEnd.slots.filter fun x => x.2.endsWith 15 31 dNop)
      = none) ∧
    ((rFull.sq 15 31).cur = some { desc := dNop, out := some okEnd, missed := false } ∧ rFull.canWrite 15 31 dNop
      okEnd = false) ∧
    (rOld.ringsOn 15 = true ∧ ((rOld.page 15).cq 0).enabled = true ∧ ((rOld.page 15).cq 0).vec ≠ 0 ∧ ((rOld.page
      15).cq 0).unsignalled ≠ 0 ∧ ((rOld.page 15).cq 0).oldest + ((rOld.page 15).cq 0).time ≤ rOld.now) ∧
    (up.phase = .up ∧ 0 < 16 ∧ 33 < (if 0 = 0 then 34 else 33)) ∧
    (up.phase = .up ∧ 15 < 16 ∧ 32 < (if 15 = 0 then 34 else 33)) := by
  refine ⟨?_, ?_, ?_, ?_, ?_⟩ <;> decide +kernel

theorem test_RegisterAccesses_met :
    (up.deaf = false ∧ 0x20000 < 2 ^ 28 ∧ 0x20000 % 4 = 0 ∧ inPage 0x20000 = false ∧ up.topReason 0x20000 (q0.toNat %
      2 ^ 32) (! topWide 0x20000 && ! (decide (4 ≤ 0x20000) && topWide (0x20000 - 4))) ≠ 0) ∧
    (up.deaf = false ∧ 0xFFFFFFF < 2 ^ 28 ∧ inPage 0xFFFFFFF = false ∧ (2 ≠ 4 ∧ 2 ≠ 8) ∨ 0xFFFFFFF % 2 ≠ 0) ∧
    (up.phase = .up ∧ up.boot.ready = true ∧ up.locked = false ∧ 0x600818 ∈ [0x20014, 0x20024, 0x30000, 0x30008,
      0x3000C, 0x30010, 0x30014, 0x400008, 0x600818]) ∧
    (up.phase = .up ∧ up.boot.ready = true ∧ up.locked = false ∧ 0x600810 = 0x400108 ∨ 0x600810 = 0x600810) ∧
    (dark.deaf = true) ∧
    (up.deaf = false ∧ 8 ≠ 4) ∧
    (up.phase = .up ∧ up.boot.ready = true) ∧
    (dark.deaf = true) := by
  refine ⟨?_, ?_, ?_, ?_, ?_, ?_, ?_, ?_⟩ <;> decide +kernel

theorem test_LocksAndDriverClasses_met :
    ((up.phase = .up ∧ up.boot.ready = true ∧ up.locked = false) ∧ v1 = 1) ∧
    ((15 < 16 ∧ up.phase = .up ∧ up.boot.ready = true ∧ (up.page 15).locked = false) ∧ v1 = 1) ∧
    ((15 < 16 ∧ up.phase = .up ∧ up.boot.ready = true ∧ (up.page 15).locked = false) ∧ (up.page 15).anyRing = false) ∧
    (rNop.phase = .up ∧ rNop.boot.ready = true ∧ 15 < 16 ∧ (rNop.page 15).anyRing = true) := by
  refine ⟨?_, ?_, ?_, ?_⟩ <;> decide +kernel

theorem test_PartitionsAreAllocatedAndReleased_met :
    (upPart.phase = .up ∧ upPart.boot.ready = true ∧ 15 < 16 ∧ upPart.allocReason 15 = 0) ∧
    (up.phase = .up ∧ 15 < 16 ∧ up.allocReason 15 ≠ 0) ∧
    (clearing.phase = .up ∧ (clearing.part 15).clearing = true) ∧
    (rNop.phase = .up ∧ rNop.boot.ready = true ∧ 15 < 16 ∧ (rNop.page 15).anyRing = true) ∧
    (clearing.phase = .up ∧ clearing.boot.ready = true ∧ 15 < 16 ∧ (clearing.page 15).anyRing = false ∧ clearing.held
      15 = true) := by
  refine ⟨?_, ?_, ?_, ?_, ?_⟩ <;> decide +kernel

theorem test_PinsAndReservedRegions_met :
    ((up.phase = .up ∧ up.boot.ready = true ∧ up.locked = false) ∧ 15 < 16 ∧ 63 < 64) ∧
    ((up.phase = .up ∧ up.boot.ready = true ∧ up.locked = false) ∧ 1 ≤ 7 ∧ 7 ≤ 7 ∧ bit vRes.toNat 31 = true ∧
      up.windowFree (16 + 7) (bits vRes.toNat 8 0) (bits vRes.toNat 24 16) = true ∧ bits vRes.toNat 24 16 ≠ 0 ∧ bits
      vRes.toNat 8 0 + bits vRes.toNat 24 16 ≤ 372) ∧
    ((w1.phase = .up ∧ w1.boot.ready = true ∧ w1.locked = false) ∧ 1 ≤ 1 ∧ 1 ≤ 7 ∧ bit vResBad.toNat 31 = true ∧
      w1.windowFree (16 + 1) (bits vResBad.toNat 8 0) (bits vResBad.toNat 24 16) = false) ∧
    ((up.phase = .up ∧ up.boot.ready = true ∧ up.locked = false) ∧ 1 ≤ 7 ∧ 7 ≤ 7 ∧ bit v0.toNat 31 = false) := by
  refine ⟨?_, ?_, ?_, ?_⟩ <;> decide +kernel

theorem test_RingsAreEnabledAndDisabled_met :
    ((15 < 16 ∧ ready15.phase = .up ∧ ready15.boot.ready = true ∧ (ready15.page 15).locked = false) ∧ 31 < 32 ∧
      (ready15.sq 15 31).state = .disabled ∧ (ready15.seen 15).sqRefusal 15 31 (enOn v6 &&& 0x801F301F) = 0) ∧
    ((15 < 16 ∧ up.phase = .up ∧ up.boot.ready = true ∧ (up.page 15).locked = false) ∧ 31 < 32 ∧ (up.sq 15 31).state
      = .disabled ∧ (up.seen 15).sqRefusal 15 31 (enOn v0 &&& 0x801F301F) ≠ 0) ∧
    ((15 < 16 ∧ up.phase = .up ∧ up.boot.ready = true ∧ (up.page 15).locked = false) ∧ 31 < 32) ∧
    ((15 < 16 ∧ rErr.phase = .up ∧ rErr.boot.ready = true ∧ (rErr.page 15).locked = false) ∧ 31 < 32 ∧ (rErr.sq 15
      31).state = .error ∧ v1 = 1) ∧
    ((15 < 16 ∧ rNop.phase = .up ∧ rNop.boot.ready = true ∧ (rNop.page 15).locked = false) ∧ 31 < 32 ∧ (rNop.sq 15
      31).state ≠ .error ∧ v1 = 1) ∧
    ((15 < 16 ∧ up.phase = .up ∧ up.boot.ready = true ∧ (up.page 15).locked = false) ∧ 31 < 32 ∧ ((up.page 15).cq
      31).enabled = false) ∧
    ((15 < 16 ∧ up.phase = .up ∧ up.boot.ready = true ∧ (up.page 15).locked = false) ∧ 31 < 32 ∧ (up.page 15).feeds
      31 = false) ∧
    ((15 < 16 ∧ rNop.phase = .up ∧ rNop.boot.ready = true ∧ (rNop.page 15).locked = false) ∧ 0 < 32 ∧ ((rNop.page
      15).cq 0).enabled = true ∧ (rNop.page 15).feeds 0 = true) ∧
    ((15 < 16 ∧ err15.phase = .up ∧ err15.boot.ready = true ∧ (err15.page 15).locked = false) ∧ (err15.page
      15).errEnabled = false ∧ (err15.seen 15).errRefused 15 (enOn v6 &&& 0x8000001F) = false) ∧
    ((15 < 16 ∧ rErrOnly.phase = .up ∧ rErrOnly.boot.ready = true ∧ (rErrOnly.page 15).locked = false) ∧
      (rErrOnly.page 15).anySq = false) ∧
    ((15 < 16 ∧ rNop.phase = .up ∧ rNop.boot.ready = true ∧ (rNop.page 15).locked = false) ∧ (rNop.page
      15).errEnabled = true ∧ (rNop.page 15).anySq = true) := by
  refine ⟨?_, ?_, ?_, ?_, ?_, ?_, ?_, ?_, ?_, ?_, ?_⟩ <;> decide +kernel

theorem test_PartitionResetsEmptyTheirRings_met :
    (vf.warmable = true ∧ vf.vfEnable = true ∧ 1 ≤ 15 ∧ 15 ≤ 15 ∧ (vf.part 15).resetting = false) ∧
    (w1.phase = .up ∧ w1.boot.ready = true ∧ (15 : Word).toNat < 16 ∧ (w1.part (15 : Word).toNat).allocated = true ∧
      (w1.part (15 : Word).toNat).resetting = false) ∧
    (resetting.phase = .up ∧ resetting.boot.ready = true ∧ (15 : Word).toNat < 16 ∧ (resetting.part (15 :
      Word).toNat).allocated = true ∧ (resetting.part (15 : Word).toNat).resetting = true) ∧
    (up.phase = .up ∧ up.boot.ready = true ∧ 16 ≤ (16 : Word).toNat ∨ (up.part (16 : Word).toNat).allocated = false) ∧
    (up.phase = .up ∧ up.boot.ready = true ∧ 16 ≤ (15 : Word).toNat ∨ (up.part (15 : Word).toNat).allocated = false) := by
  refine ⟨?_, ?_, ?_, ?_, ?_⟩ <;> decide +kernel

theorem test_SetupResetTakesOnlyTwo_met :
    (up.warmable = true) ∧
    (up.phase = .up ∧ up.boot.ready = true ∧ v1 ≠ 2) := by
  refine ⟨?_, ?_⟩ <;> decide +kernel

theorem test_IngestSetUp_met :
    ((up.phase = .up ∧ up.boot.ready = true ∧ up.locked = false) ∧ 3 < 4) ∧
    ((up.phase = .up ∧ up.boot.ready = true ∧ up.locked = false) ∧ bit (up.regN 0x400000) 0 = false ∧ up.windowFree
      16 (372 - up.regN 0x400004) (up.regN 0x400004) = true) ∧
    ((tabFull.phase = .up ∧ tabFull.boot.ready = true ∧ tabFull.locked = false) ∧ bit (tabFull.regN 0x400000) 0 =
      false ∧ tabFull.windowFree 16 (372 - tabFull.regN 0x400004) (tabFull.regN 0x400004) = false) ∧
    ((up.phase = .up ∧ up.boot.ready = true ∧ up.locked = false) ∧ 63 < 64 ∧ (up.srcCfg 63).valid = false) ∧
    ((up.phase = .up ∧ up.boot.ready = true ∧ up.locked = false) ∧ 127 < 128 ∧ bit v1.toNat 31 = false) ∧
    ((up.phase = .up ∧ up.boot.ready = true ∧ up.locked = false) ∧ 127 < 128 ∧ bit vOn.toNat 31 = true) ∧
    ((up.phase = .up ∧ up.boot.ready = true ∧ up.locked = false) ∧ 7 < 8 ∧ up.strOn 7 = false) ∧
    ((strOn7.phase = .up ∧ strOn7.boot.ready = true ∧ strOn7.locked = false) ∧ 7 < 8 ∧ strOn7.strOn 7 = true ∧
      vOn.toNat % 2 ^ 31 = strOn7.strW 7 0 % 2 ^ 31) ∧
    (halted.phase = .up ∧ halted.boot.ready = true ∧ 7 < 8 ∧ (halted.istream 7).halted = true ∧ v1 = 1) ∧
    (up.phase = .up ∧ up.boot.ready = true ∧ 7 < 8 ∧ (up.istream 7).halted = false ∧ v1 = 1) := by
  refine ⟨?_, ?_, ?_, ?_, ?_, ?_, ?_, ?_, ?_, ?_⟩ <;> decide +kernel

theorem test_HawserSetUp_met :
    ((up.phase = .up ∧ up.boot.ready = true ∧ up.locked = false) ∧ up.fuses.solitary = false ∧ 15 < 16) ∧
    ((bound.phase = .up ∧ bound.boot.ready = true ∧ bound.locked = false) ∧ bound.fuses.solitary = false ∧ 15 < 16 ∧
      bound.online = true ∧ bound.haw.instState = 0 ∧ (bound.binding 15).used = 1 ∧ (bound.port 15).state = .down ∧
      bound.unit (hawUnit 15) = .inService) ∧
    (solo.deaf = false ∧ solo.fuses.solitary = true ∧ 15 < 16) ∧
    ((up.phase = .up ∧ up.boot.ready = true ∧ up.locked = false) ∧ up.fuses.solitary = false ∧ 15 < 16 ∧ (∀ m < 16, m
      ≠ 15 → v9.toNat % 65536 ≠ 0 → up.job m ≠ v9.toNat % 65536)) ∧
    ((job1.phase = .up ∧ job1.boot.ready = true ∧ job1.locked = false) ∧ job1.fuses.solitary = false ∧ 15 < 16 ∧ 0 <
      16 ∧ 0 ≠ 15 ∧ v9.toNat % 65536 ≠ 0 ∧ job1.job 0 = v9.toNat % 65536) := by
  refine ⟨?_, ?_, ?_, ?_, ?_⟩ <;> decide +kernel

theorem test_PowerRequests_met :
    (up.phase = .up ∧ up.boot.ready = true ∧ up.listInFlight = false ∧ up.epochsFree = true ∧ up.wdn.st ≠ .warden) ∧
    (up.phase = .up ∧ up.boot.ready = true ∧ up.listInFlight = false ∧ up.epochsFree = true) ∧
    (listed.phase = .up ∧ listed.boot.ready = true ∧ listed.listInFlight = true ∨ listed.epochsFree = false) ∧
    (up.phase = .up ∧ up.boot.ready = true ∧ (2 : DWord).toNat % 2 ^ 32 ≠ 3 ∧ (2 : DWord).toNat % 2 ^ 32 ≠ 4) ∧
    (up.phase = .up ∧ up.boot.ready = true ∧ (5 : DWord).toNat % 2 ^ 32 ≠ 3 ∧ (5 : DWord).toNat % 2 ^ 32 ≠ 4) := by
  refine ⟨?_, ?_, ?_, ?_, ?_⟩ <;> decide +kernel

theorem test_RepairRequests_met :
    (up.phase = .up ∧ up.boot.ready = true) ∧
    (gone.phase = .up ∧ gone.boot.ready = true ∧ gone.unitOk (reqUnit vUnit) = true ∧ gone.unit (reqUnit vUnit) =
      .retired ∧ gone.restricted = false ∧ gone.repair.readmit = none) ∧
    (busyRepair.phase = .up ∧ busyRepair.boot.ready = true ∧ busyRepair.unitOk (reqUnit vUnit) = true ∧
      busyRepair.unit (reqUnit vUnit) = .retired ∧ busyRepair.restricted = false ∧ busyRepair.repair.readmit = some
      aReadmit) := by
  refine ⟨?_, ?_, ?_⟩ <;> decide +kernel

theorem test_ColdResetsBootAndClear_met :
    (up.pins.pwrGood = true) ∧
    (unpowered.phase = .held ∧ unpowered.pins.pwrGood = false ∧ unpowered.pins.coldResetN = true) ∧
    (up.phase ≠ .held ∧ up.phase ≠ .dark ∧ up.phase ≠ .seized) ∧
    (seized.phase = .seized) ∧
    (mboxFused.sec.mboxCmd = some 1 ∧ mboxFused.deaf = false ∧ mboxFused.sec.fused = some Fuses.reset) ∧
    (mboxNone.sec.mboxCmd = some 1 ∧ mboxNone.deaf = false ∧ mboxNone.sec.fused = none) := by
  refine ⟨?_, ?_, ?_, ?_, ?_, ?_⟩ <;> decide +kernel

theorem test_WarmResetsKeepAndClear_met :
    (up.warmable = true) ∧
    (up.warmable = true) ∧
    ((0x57 : Byte) ≠ 0x57 ∨ (0x53 : Byte) ≠ 0x52) ∧
    (held0.phase ≠ .up) ∧
    (up.lists = [] ∧ calm.unhealthy = [] ∧ up.regN 0x700024 = 0) := by
  refine ⟨?_, ?_, ?_, ?_, ?_⟩ <;> decide +kernel

theorem test_Hio1ResetsAndLinks_met :
    (up.phase ≠ .seized) ∧
    (up.phase ≠ .seized ∧ up.hio1Down = none) ∧
    (hio1Flr.hio1Down = some 0x3034) ∧
    (up.hio1Down ≠ some 0x3034) ∧
    (up.phase = .up ∧ up.pins.perstN.getD 0 false = true ∧ RefClk.host0 ∉ up.pins.lostClks) ∧
    (up.phase = .up ∧ up.pins.perstN.getD 1 false = true ∧ RefClk.host1 ∉ up.pins.lostClks) ∧
    (perstLow.pins.perstN.getD 1 false = false) := by
  refine ⟨?_, ?_, ?_, ?_, ?_, ?_, ?_⟩ <;> decide +kernel

theorem test_ReferenceLossActs_met :
    (up.phase = .up ∧ RefClk.sys ∉ up.pins.lostClks) ∧
    (up.phase = .up ∧ RefClk.host0 ∉ up.pins.lostClks ∧ up.warmable = true) ∧
    (up.phase = .up ∧ RefClk.host1 ∉ up.pins.lostClks) ∧
    (up.phase = .up ∧ RefClk.xtal ∉ up.pins.lostClks) ∧
    (RefClk.ing ∈ lost.pins.lostClks) ∧
    (up.memoryOn = true) := by
  refine ⟨?_, ?_, ?_, ?_, ?_, ?_⟩ <;> decide +kernel

theorem test_DeviceTimeFollowsPtp_met :
    (ptpFree.ptpHears 3 1 = true ∧ ptpFree.ptp.master = some master0 ∧ master0.identity = 9 ∧ ptpFree.time.st =
      .free) ∧
    (ptpAcq.ptpHears 3 1 = true ∧ ptpAcq.ptp.master = some master0 ∧ master0.identity = 9 ∧ ptpAcq.ptp.delay = some 5
      ∧ ptpAcq.time.st = .acquire ∧ ptpAcq.now ≤ 995 + 5 ∧ (∀ x ∈ ptpAcq.slots, x.2.armed.isSome = true → x.2.missed
      = true)) ∧
    (ptpAcq.ptpHears 3 1 = true ∧ ptpAcq.ptp.master = some master0 ∧ master0.identity = 9 ∧ ptpAcq.ptp.delay = some 5
      ∧ ptpAcq.time.st = .acquire ∧ 994 + 5 < ptpAcq.now) ∧
    (ptpLock.ptpHears 3 1 = true ∧ ptpLock.ptp.master = some master0 ∧ master0.identity = 9 ∧ ptpLock.ptp.delay =
      some 5 ∧ ptpLock.time.st = .locked ∧ ((1000000995 : Int) + 5 - ptpLock.now).natAbs ≤ 1000000000) ∧
    (ptp0.ptpHears 3 1 = true ∧ ptp0.ptp.master = none) ∧
    (ptpM.ptpHears 3 1 = true ∧ ptpM.ptp.master = some master0 ∧ master1.identity ≠ master0.identity ∧ PtpBetter
      master1 master0 = true) ∧
    (ptpM.ptpHears 3 1 = true ∧ ptpM.ptp.master = some master0 ∧ master0.identity = 9) ∧
    (syncLate.phase = .up ∧ syncLate.ptp.lastSync + 4000000000 ≤ syncLate.now) ∧
    (ptpStep.phase = .up ∧ ptpStep.time.st = .stepPending ∧ (∀ x ∈ ptpStep.slots, x.2.armed.isSome = true →
      x.2.missed = true)) ∧
    (slotX ∈ armed.slots ∧ slotX.2.armed.isSome = true ∧ slotX.2.missed = false) ∧
    (ppsOn.phase = .up ∧ bit (ppsOn.regN 0x20014) 0 = true) ∧
    (bit (up.regN 0x20014) 0 = false) ∧
    (up.phase = .up ∧ up.now % 1000000000 = 0) ∧
    (pulsed.phase = .up ∧ pulsed.pins.ppsOut = true ∧ pulsed.time.ppsRose + 1000000 ≤ pulsed.now) := by
  refine ⟨?_, ?_, ?_, ?_, ?_, ?_, ?_, ?_, ?_, ?_, ?_, ?_, ?_, ?_⟩ <;> decide +kernel

theorem test_SeizeNeedsInvasive_met :
    (level2.phase ≠ .held ∧ level2.phase ≠ .seized ∧ 2 ≤ level2.sec.level) ∧
    (level1.phase ≠ .held ∧ level1.phase ≠ .seized ∧ level1.sec.level < 2) ∧
    (held0.phase = .held ∨ held0.phase = .seized) ∧
    (seized.phase = .held ∨ seized.phase = .seized) := by
  refine ⟨?_, ?_, ?_, ?_⟩ <;> decide +kernel

theorem test_DebugTriggersAct_met :
    (level1.deaf = false ∧ 1 ≤ level1.sec.level ∧ (∀ n < 16, level1.trigHolds [] n = false)) ∧
    (trig2.deaf = false ∧ 2 ≤ trig2.sec.level ∧ 15 < 16 ∧ trig2.trigHolds [] 15 = true ∧ bit (trig2.trigW 15 4) 4 =
      true ∧ trig2.phase ≠ .held) ∧
    (trig1.deaf = false ∧ trig1.sec.level = 1 ∧ 15 < 16 ∧ trig1.trigHolds [] 15 = true ∧ trig1.trigW 15 4 % 32 = 1 ∧
      (∀ k < 16, k ≠ 15 → trig1.trigHolds [] k = false)) ∧
    (up.sec.level = 0) := by
  refine ⟨?_, ?_, ?_, ?_⟩ <;> decide +kernel

theorem test_FlashMailboxCommands_met :
    (up.deaf = false ∧ up.flash.cmd = none) ∧
    (flashA.deaf = false ∧ flashA.flash.cmd = none ∧ inBankA flashA.flash.addr = true ∨ inInst flashA.flash.addr =
      true) ∧
    (flashB.deaf = false ∧ flashB.flash.cmd = none ∧ inBankB flashB.flash.addr = true) ∧
    (flashRead0.deaf = false ∧ flashRead0.flash.cmd = some readC) ∧
    (flashRead0.deaf = false ∧ flashRead0.flash.cmd = some readC) ∧
    (flashRead0.deaf = false ∧ flashRead0.flash.cmd = some (.read 0)) ∧
    (flashErase0.deaf = false ∧ flashErase0.flash.cmd = some (.erase flashInst) ∧ inInst flashInst = true) ∧
    (flashProg0.deaf = false ∧ flashProg0.flash.cmd = some (.program 256 [0x55])) := by
  refine ⟨?_, ?_, ?_, ?_, ?_, ?_, ?_, ?_⟩ <;> decide +kernel

theorem test_SecurityRecordsAreJudged_met :
    ((up.deaf = false ∧ up.serves 0x700100 = true ∧ up.sec.mboxCmd = none) ∧ up.overrideOk over0 = true) ∧
    ((up.deaf = false ∧ up.serves 0x700100 = true ∧ up.sec.mboxCmd = none) ∧ up.overrideOk overBad = false) ∧
    ((gold1.deaf = false ∧ gold1.serves 0x700100 = true ∧ gold1.sec.mboxCmd = none) ∧ gold1.ownerSigned gold0.signer
      = true ∧ gold0.setHash = gold1.boot.setHash ∧ gold1.boot.concordFromA = true) ∧
    ((gold1.deaf = false ∧ gold1.serves 0x700100 = true ∧ gold1.sec.mboxCmd = none) ∧ gold1.ownerSigned
      goldBad.signer = false ∨ goldBad.setHash ≠ gold1.boot.setHash ∨ gold1.boot.concordFromA = false) ∧
    ((lcRec.deaf = false ∧ lcRec.serves 0x700100 = true ∧ lcRec.sec.mboxCmd = none) ∧ lcRec.lifecycleFields
      (lcRec.mboxBytes 224) = true ∧ lcRec.lifecycleSigned owner0 = true ∧ lcRec.lifecycleFuses (lcRec.mboxBytes 224)
      = some lcFuses) ∧
    ((up.deaf = false ∧ up.serves 0x700100 = true ∧ up.sec.mboxCmd = none) ∧ up.lifecycleFields (up.mboxBytes 224) =
      false ∨ up.lifecycleSigned owner0 = false) ∧
    ((linkRec.deaf = false ∧ linkRec.serves 0x700100 = true ∧ linkRec.sec.mboxCmd = none) ∧ linkRec.linkRecordOk
      (linkRec.mboxBytes 288) owner0 true = true) ∧
    ((linkRec.deaf = false ∧ linkRec.serves 0x700100 = true ∧ linkRec.sec.mboxCmd = none) ∧ linkRec.linkRecordOk
      (linkRec.mboxBytes 288) noOne true = false) ∧
    ((up.deaf = false ∧ up.serves 0x700100 = true ∧ up.sec.mboxCmd = none)) ∧
    (up.deaf = false) := by
  refine ⟨?_, ?_, ?_, ?_, ?_, ?_, ?_, ?_, ?_, ?_⟩ <;> decide +kernel

theorem test_DebugLevelsAreGuarded_met :
    (up.deaf = false ∧ bits (BitVec.toNat v0) 1 0 = up.sec.level) ∧
    (level1.deaf = false ∧ bits (BitVec.toNat v0) 1 0 < level1.sec.level) ∧
    (up.deaf = false ∧ up.sec.level < bits (BitVec.toNat v3) 1 0 ∧ bits v3.toNat 1 0 = 3 ∧ up.fuses.lifecycle ≠
      .blank) ∧
    (up.deaf = false ∧ up.sec.level = 0 ∧ bits (BitVec.toNat v1) 1 0 = 1 ∧ up.serves 0x700008 = true) ∧
    (up.deaf = false ∧ up.sec.level < 2 ∧ bits v2.toNat 1 0 = 2 ∧ up.fuses.lifecycle = .owned ∧ up.sec.jtagToken =
      none) ∧
    (withToken.deaf = false ∧ withToken.sec.level < 2 ∧ bits (BitVec.toNat v2) 1 0 = 2 ∧ withToken.fuses.lifecycle =
      .owned ∨ withToken.fuses.lifecycle = .provisioned ∧ withToken.sec.jtagToken = some token2 ∧
      withToken.tokenCause token2 2 = 0) := by
  refine ⟨?_, ?_, ?_, ?_, ?_, ?_⟩ <;> decide +kernel

theorem test_AttestationAnswers_met :
    (up.phase = .up) ∧
    (up.phase = .up) ∧
    (up.phase = .up) ∧
    (up.phase = .up ∧ up.fuses.lifecycle = .provisioned ∨ up.fuses.lifecycle = .owned) ∧
    (up.phase = .up ∧ up.fuses.lifecycle = .provisioned ∨ up.fuses.lifecycle = .owned) ∧
    (up.phase = .up ∧ up.fuses.lifecycle = .provisioned ∨ up.fuses.lifecycle = .owned ∧ 1 ≤ 1 ∧ 1 ≤ 9) ∧
    (up.phase = .up ∧ up.fuses.lifecycle = .provisioned ∨ up.fuses.lifecycle = .owned ∧ 1 ≤ 9 ∧ 9 ≤ 9) ∧
    (blank.phase = .up ∧ blank.fuses.lifecycle ≠ .provisioned ∧ blank.fuses.lifecycle ≠ .owned) ∧
    (up.phase = .up) := by
  refine ⟨?_, ?_, ?_, ?_, ?_, ?_, ?_, ?_, ?_⟩ <;> decide +kernel

theorem test_MemoryErrorsPoisonAndCount_met :
    (up.memoryOn = true ∧ siteOk siteC = true ∧ siteC.inCache = true) ∧
    (up.memoryOn = true ∧ siteOk siteC = true ∧ siteC.inCache = true ∧ up.unit (wayUnit siteC.slice siteC.way) =
      .inService) ∧
    (up.memoryOn = true ∧ siteOk siteH = true ∧ siteH.inCache = false) ∧
    (up.memoryOn = true ∧ siteOk siteH = true ∧ siteH.inCache = false ∨ siteH.dirty = true ∨ siteH.pinned = true) ∧
    (up.memoryOn = true ∧ siteOk siteC = true ∧ false = true ∨ (siteC.inCache = true ∧ siteC.dirty = false ∧
      siteC.pinned = false)) ∧
    (up.memoryOn = true ∧ 7 < 8) ∧
    (up.memoryOn = true ∧ 7 < 8) ∧
    (up.memoryOn = true ∧ 15 < 16 ∧ (up.brick 15).powered = true ∧ endAM < (if true = true then Config.amBytes else
      Config.obBytes)) ∧
    (up.memoryOn = true ∧ 15 < 16 ∧ (up.brick 15).powered = true ∧ endOB < (if false = true then Config.amBytes else
      Config.obBytes)) ∧
    (held0.memoryOn = false) := by
  refine ⟨?_, ?_, ?_, ?_, ?_, ?_, ?_, ?_, ?_, ?_⟩ <;> decide +kernel

theorem test_RepairAndScrubbing_met :
    (w1.memoryOn = true ∧ 0 < 16 ∧ loc0.brick = 0 ∧ (w1.env loc0).isSome = true) ∧
    (up.awake = true) ∧
    (up.awake = true) ∧
    (up.awake = true ∧ up.scrubLoc = (0, some 0)) ∧
    (migrate.memoryOn = true ∧ migrate.migrOf 7 = mig0 :: [] ∧ mig0.back = false ∧ migrate.chunksLeft 7 mig0 = 30 ::
      [] ∧ migrate.freeReserve 7 = some 0 ∧ 30 ≠ 31) ∧
    (migrated.memoryOn = true ∧ migrated.migrOf 7 = migDone :: [] ∧ migDone.back = false ∧ migrated.chunksLeft 7
      migDone = []) ∧
    (migrBack.memoryOn = true ∧ migrBack.migrOf 7 = migB :: [] ∧ migB.back = true ∧ migB.chunks = 31 :: []) ∧
    (moving.memoryOn = true ∧ moving.mortar.moves = move0 :: [] ∧ move0.back = false ∧ move0.nodes = 255 :: [] ∧
      moving.nextSlice move0.turn = some 0 ∧ 255 < moving.mortar.nodes.length) := by
  refine ⟨?_, ?_, ?_, ?_, ?_, ?_, ?_, ?_⟩ <;> decide +kernel

theorem test_RegulatorsRefill_met :
    (up.memoryOn = true) :=
  by decide +kernel

theorem test_ErrorsAreHandledInOrder_met :
    (up.phase = .up ∧ up.repair.inHand = none) ∧
    (hand1.phase = .up ∧ hand1.repair.inHand = some err1 ∧ err1.rec0.severity ≠ 4) ∧
    (hand1.phase = .up ∧ hand1.repair.inHand = some err1 ∧ err1.rec0.severity ≤ 1 ∧ err1.rec0.permanent = false ∧
      err1.rec0.escalated = false) ∧
    (hand4.phase = .up ∧ hand4.repair.inHand = some err4 ∧ err4.rec0.severity = 4) ∧
    (handLate.phase = .up ∧ handLate.repair.inHand = some err1 ∧ handLate.repair.handledAt + 10000000 ≤ handLate.now) ∧
    (up.repair.inHand = none) ∧
    (uBrick.kind ≠ 4) ∧
    (uRow.kind = 4) := by
  refine ⟨?_, ?_, ?_, ?_, ?_, ?_, ?_, ?_⟩ <;> decide +kernel

theorem test_ReadmissionsAndDeadlines_met :
    (rSelf.phase = .up ∧ rSelf.repair.readmit = some { unit := uSlice, step := .selfTest } ∧ uSlice.kind ≠ 1 ∧
      uSlice.kind ≠ 6) ∧
    (rSelfB.phase = .up ∧ rSelfB.repair.readmit = some { unit := uBrick, step := .selfTest } ∧ uBrick.kind = 1) ∧
    (rSelf.phase = .up ∧ rSelf.repair.readmit = some { unit := uSlice, step := .selfTest }) ∧
    (rProb5.phase = .up ∧ rProb5.repair.readmit = some { unit := uSlice, step := .probation 5 } ∧ 5 ≤ rProb5.now ∧
      uSlice.kind ≠ 6) ∧
    (rProb6.phase = .up ∧ rProb6.repair.readmit = some { unit := uSlice, step := .probation 6 } ∧ rProb6.now < 6) ∧
    (rProb5.phase = .up ∧ rProb5.repair.readmit = some { unit := uSlice, step := .probation 5 }) ∧
    (rHand.phase = .up ∧ rHand.repair.readmit = some { unit := uSlice, step := .handOver [] }) ∧
    (rHandL.phase = .up ∧ rHandL.repair.readmit = some { unit := uSlice, step := .handOver (0 :: []) }) ∧
    (up.phase = .up ∧ up.now % 1000 = 0) ∧
    (tick1.now % 1000 ≠ 0) ∧
    (onTime.phase = .up ∧ onTime.now % 1000 = 0 ∧ (∀ x ∈ onTime.slots, x.2.armed.isSome = true → x.2.missed = false →
      onTime.now ≤ x.2.deadline)) := by
  refine ⟨?_, ?_, ?_, ?_, ?_, ?_, ?_, ?_, ?_, ?_, ?_⟩ <;> decide +kernel

theorem test_PacketsAndLinks_met :
    (ingUp.awake = true ∧ pktBad.port < 4 ∧ pktBad.addressed = true ∧ ingUp.ingestUp pktBad.port = true ∧
      pktBad.fecBad = false ∧ ingUp.unit (ingUnit pktBad.port) = .inService ∧ pktReason pktBad = some 0) ∧
    (noRule.awake = true ∧ pkt.port < 4 ∧ pkt.addressed = true ∧ noRule.ingestUp pkt.port = true ∧ pkt.fecBad = false
      ∧ noRule.unit (ingUnit pkt.port) = .inService ∧ pktReason pkt = none ∧ (∀ n < 128, noRule.ruleLive n = true →
      (noRule.rule n).fits pkt (parseStrip pkt.payload).srcByte = false)) ∧
    (gathering.awake = true ∧ pkt.port < 4 ∧ pkt.addressed = true ∧ gathering.ingestUp pkt.port = true ∧ pkt.fecBad =
      false ∧ gathering.unit (ingUnit pkt.port) = .inService ∧ pktReason pkt = none ∧ (List.range 128).filter (fun k
      => gathering.ruleLive k && (gathering.rule k).fits pkt (parseStrip pkt.payload).srcByte) = [127] ∧
      (gathering.rule 127).drop = false ∧ (gathering.rule 127).stream = 7 ∧ (gathering.rule 127).role = false ∧
      gathering.strOn 7 = true ∧ (gathering.istream 7).halted = false ∧ (parseStrip pkt.payload).agrees
      (gathering.srcCfg (parseStrip pkt.payload).srcByte) = true ∧ gathering.epoch? 7 (parseStrip
      pkt.payload).exposure = some epoch5 ∧ epoch5.state = .gathering ∧ epoch5.frames.find? (fun frame63 =>
      frame63.source == (parseStrip pkt.payload).srcByte) = some frame63 ∧ frame63.ts = (parseStrip pkt.payload).ts ∧
      (parseStrip pkt.payload).index ∉ frame63.strips ∧ (gathering.iport pkt.port).handOver = none ∧
      gathering.tabLost = false) ∧
    (ingDoze.phase = .up ∧ ingDoze.boot.ready = true ∧ pkt.port < 4 ∧ pkt.addressed = true ∧ ingDoze.ingestUp
      pkt.port = true ∧ ingDoze.wdn.st = .doze ∧ pkt.fcsOk = true ∧ pkt.fecBad = false) ∧
    (ingUp.phase = .up ∧ ingUp.boot.ready = true ∧ pktElse.port < 4 ∧ pktElse.addressed = false) ∧
    (ingDown.online = true ∧ 3 < 4 ∧ bit (ingDown.regN (0x400100 + 0x100 * 3)) 0 = true ∧ ingDown.unit (ingUnit 3) =
      .inService ∧ RefClk.ing ∉ ingDown.pins.lostClks) ∧
    (ingUp.online = true ∧ 3 < 4 ∧ ingUp.ingestUp 3 = true) ∧
    (ingDown.ingestUp 3 = false) ∧
    (ingUp.awake = true ∧ arp0.port < 4 ∧ ingUp.ingestUp arp0.port = true ∧ ingUp.unit (ingUnit arp0.port) =
      .inService ∧ arp0.ipv6 = false ∧ arp0.target = ingUp.regN (0x400110 + 0x100 * arp0.port)) ∧
    (arp1.ipv6 = false ∧ arp1.target ≠ ingUp.regN (0x400110 + 0x100 * arp1.port)) := by
  refine ⟨?_, ?_, ?_, ?_, ?_, ?_, ?_, ?_, ?_, ?_⟩ <;> decide +kernel

theorem test_EpochsCloseFuseAndAreWritten_met :
    (gatherEnd.awake = true ∧ gatherEnd.epoch? 7 5 = some epoch5 ∧ epoch5.state = .gathering ∧ epoch5.tOpen +
      gatherEnd.strW 7 0x10 * 1000 ≤ gatherEnd.now) ∧
    (gathering.epoch? 7 5 = some epoch5 ∧ gathering.now < epoch5.tOpen + gathering.strW 7 0x10 * 1000) ∧
    (closing.awake = true ∧ closing.epoch? 7 5 = some epochC ∧ closing.nextToFuse 7 5 = true ∧ (∀ w ∈ (closing.fuse 7
      epochC).stores, closing.keylessAt (closing.strPart 7) w.addr w.bytes.length = false)) ∧
    (gathering.nextToFuse 7 5 = false) ∧
    (fusing.awake = true ∧ fusing.epoch? 7 5 = some epochO ∧ epochO.out = some fused0 ∧ fusing.keylessAt
      (fusing.strPart 7) (fusing.slotAt 7 5) 1 = false) := by
  refine ⟨?_, ?_, ?_, ?_, ?_⟩ <;> decide +kernel

theorem test_PortsComeUpBound_met :
    (hTrain.online = true ∧ (hTrain.port 15).state = .training ∧ RefClk.link ∉ hTrain.pins.lostClks) ∧
    (hUp.online = true ∧ (hUp.port 15).state = .binding ∨ (hUp.port 15).state = .held ∨ (hUp.port 15).state = .up ∨
      (hUp.port 15).state = .probation) ∧
    (hBind.online = true ∧ (hBind.port 15).state = .binding ∨ (hBind.port 15).state = .held ∧ (hBind.binding 15).mac
      = 5 ∧ (hBind.binding 15).partnerPort = 6 ∧ hBind.haw.secrets ≠ [] ∧ hBind.repair.readmit = none) ∧
    (hBind.online = true ∧ (hBind.port 15).state = .binding ∧ hBind.unit (hawUnit 15) ≠ .readmitting ∧ (hBind.binding
      15).mac ≠ 5 ∨ (hBind.binding 15).partnerPort ≠ 7) ∧
    (hLate.online = true ∧ (hLate.port 15).state = .binding ∧ hLate.unit (hawUnit 15) ≠ .readmitting ∧ (hLate.port
      15).bindAt + 35000000000 ≤ hLate.now) ∧
    (hBind.now < (hBind.port 15).bindAt + 35000000000) ∧
    (hUp.online = true ∧ (hUp.port 15).state = .up) ∧
    ((hDown.port 15).state = .down ∨ (hDown.port 15).state = .training) := by
  refine ⟨?_, ?_, ?_, ?_, ?_, ?_, ?_, ?_⟩ <;> decide +kernel

theorem test_UnauthenticFramesAreDropped_met :
    (hUp.online = true ∧ hUp.takes frBadAuth.port = true ∧ hUp.authentic frBadAuth = false) ∧
    (hDown.takes frBadAuth.port = false) := by
  refine ⟨?_, ?_⟩ <;> decide +kernel

theorem test_SequencedFramesAreServed_met :
    ((hUp.online = true ∧ hUp.takes 15 = true ∧ hUp.authentic frWrite = true) ∧ frWrite.psn = ((hUp.acked
      frWrite).wakeUp.conn 2 15).rxNext ∧ (((hUp.acked frWrite).wakeUp).took frWrite).jobPart 9 = some 15 ∧
      (((hUp.acked frWrite).wakeUp).took frWrite).denies 15 (beNat (sliceB frWrite.op 0 8)) frWrite.data.length =
      false) ∧
    ((hUp.online = true ∧ hUp.takes 15 = true ∧ hUp.authentic frNoJob = true) ∧ frNoJob.psn = ((hUp.acked
      frNoJob).wakeUp.conn 2 15).rxNext ∧ (((hUp.acked frNoJob).wakeUp).took frNoJob).jobPart 8 = none) ∧
    ((hUp.online = true ∧ hUp.takes 15 = true ∧ hUp.authentic frLate = true) ∧ frLate.psn ≠ ((hUp.acked
      frLate).wakeUp.conn 2 15).rxNext) ∧
    ((hUp.online = true ∧ hUp.takes 15 = true ∧ hUp.authentic frRead = true) ∧ frRead.psn = ((hUp.acked
      frRead).wakeUp.conn 2 15).rxNext ∧ (((hUp.acked frRead).wakeUp).took frRead).jobPart 9 = some 15 ∧ (((hUp.acked
      frRead).wakeUp).took frRead).denies 15 (beNat (sliceB frRead.op 0 8)) (min 8192 (beNat (sliceB frRead.op 12
      4))) = false ∧ ((hUp.acked frRead).wakeUp).mem.poisoned (beNat (sliceB frRead.op 0 8)) (min 8192 (beNat (sliceB
      frRead.op 12 4))) = false ∧ (((hUp.acked frRead).wakeUp).planeFor 2 15).isSome = true) ∧
    ((hUp.online = true ∧ hUp.takes frRead.port = true ∧ hUp.authentic frRead = true) ∧ frRead.psn = ((hUp.acked
      frRead).conn frRead.src frRead.lane).rxNext) ∧
    ((hColl.online = true ∧ hColl.takes 15 = true ∧ hColl.authentic frColl = true) ∧ frColl.psn = ((hColl.acked
      frColl).wakeUp.conn 2 15).rxNext ∧ (((hColl.acked frColl).wakeUp).took frColl).coll? (frameKey frColl.op (bits
      (beNat (sliceB frColl.op 8 4)) 31 24)) = some coll7) := by
  refine ⟨?_, ?_, ?_, ?_, ?_, ?_⟩ <;> decide +kernel

theorem test_ControlFramesAct_met :
    ((hUp.online = true ∧ hUp.takes op0.port = true ∧ hUp.authentic op0 = true)) ∧
    ((hColl.online = true ∧ hColl.takes op1.port = true ∧ hColl.authentic op1 = true) ∧ beNat (sliceB op1.op 0 1) = 1
      ∧ (hColl.acked op1).wakeUp.coll? (frameKey (op1.op.drop 4) (beNat (sliceB op1.op 12 4))) = some coll7) ∧
    ((hUp.online = true ∧ hUp.takes op4.port = true ∧ hUp.authentic op4 = true) ∧ 4 ≤ beNat (sliceB op4.op 0 1)) ∧
    ((hSent.online = true ∧ hSent.takes op1.port = true ∧ hSent.authentic op1 = true) ∧ (∀ c ∈ hSent.haw.conns, ∀ f ∈
      c.unacked, f.psn < 2 ^ 32) ∧ beNat (sliceB op1.op 0 1) = 1) ∧
    ((hUp.online = true ∧ hUp.takes op0.port = true ∧ hUp.authentic op0 = true) ∧ beNat (sliceB op0.op 0 1) = 0) ∧
    ((hUp.online = true ∧ hUp.takes op1.port = true ∧ hUp.authentic op1 = true) ∧ beNat (sliceB op1.op 0 1) = 1) ∧
    ((hUp.online = true ∧ hUp.takes opOn.port = true ∧ hUp.authentic opOn = true) ∧ beNat (sliceB opOn.op 1 1) = 1) ∧
    (hUp.online = true ∧ hUp.takes 15 = true ∧ 15 = 0 ∨ (10 ≤ 15 ∧ 15 ≤ 15)) := by
  refine ⟨?_, ?_, ?_, ?_, ?_, ?_, ?_, ?_⟩ <;> decide +kernel

theorem test_LinkTimersRetryAndReset_met :
    (hUp.online = true) ∧
    (hUp.online = true) ∧
    (hOwed.online = true ∧ 0 < (hOwed.conn 2 15).rxOwed) ∧
    ((hUp.conn 2 15).rxOwed = 0) ∧
    (hRetry.online = true ∧ hRetry.takes 15 = true ∧ (hRetry.port 15).retry = true ∧ (hRetry.port 15).replayCount <
      8) ∧
    (hRetry8.online = true ∧ hRetry8.takes 15 = true ∧ (hRetry8.port 15).retry = true ∧ 8 ≤ (hRetry8.port
      15).replayCount) ∧
    ((hUp.port 15).retry = false) ∧
    (hSent.online = true ∧ (hSent.conn 2 15).unacked = tx1 :: [] ∧ 1 ≤ tx1.attempts ∧ tx1.attempts < 8) ∧
    (hLost.online = true ∧ (hLost.conn 2 15).unacked = tx8 :: [] ∧ 8 ≤ tx8.attempts) ∧
    (hUp.online = true ∧ hUp.takes 15 = true ∧ (hUp.port 15).retry = false) ∧
    (hUp.online = true ∧ hUp.takes 15 = true ∧ (hUp.port 15).retry = false) ∧
    (hRetry.online = true ∧ hRetry.takes 15 = true ∧ (hRetry.port 15).retry = true) := by
  refine ⟨?_, ?_, ?_, ?_, ?_, ?_, ?_, ?_, ?_, ?_, ?_, ?_⟩ <;> decide +kernel

theorem test_PowerAndTemperatureStops_met :
    (up.phase = .up) ∧
    (held0.phase = .held) ∧
    (up.phase ≠ .held ∧ 39 < 40) ∧
    (held0.phase = .held) := by
  refine ⟨?_, ?_, ?_, ?_⟩ <;> decide +kernel

theorem test_SamplesAreFiltered_met :
    (up.wardenOn = true ∧ 95 < 96 ∧ (up.sensor 95).failed = false ∧ sampleOf 95 0xFEC0 = some (-320)) ∧
    (up.wardenOn = true ∧ 95 < 96 ∧ (up.sensor 95).failed = false ∧ sampleOf 95 0xFEBF = none ∧ (up.sensor
      95).invalid < 4) ∧
    (sens4.wardenOn = true ∧ 95 < 96 ∧ (sens4.sensor 95).failed = false ∧ sampleOf 95 1201 = none ∧ (sens4.sensor
      95).invalid = 4 ∧ 95 < sens4.wdn.sensors.length) ∧
    (up.wardenOn = true ∧ 96 ≤ 143 ∧ 143 < 144 ∧ up.fuses.solitary = false ∧ (up.sensor 143).failed = false ∧
      sampleOf 143 65535 = some 65535) ∧
    ((sensBad.sensor 95).failed = true) ∧
    (sensor0.samples.length < 4) ∧
    (4 ≤ sensor4.samples.length) ∧
    (95 < 96) ∧
    (95 < 96) ∧
    (96 ≤ 143) ∧
    (96 ≤ 143) ∧
    (1 ≤ 2 ∧ 2 ≤ 3 ∧ 3 ≤ 4 ∧ 4 ≤ 5) := by
  refine ⟨?_, ?_, ?_, ?_, ?_, ?_, ?_, ?_, ?_, ?_, ?_, ?_⟩ <;> decide +kernel

theorem test_TheWardenDecides_met :
    (held0.wardenOn = false) ∧
    (up.wardenOn = true) ∧
    (slower.phase = .up ∧ (slower.bp 15).next = some 7 ∧ (slower.bp 15).level < 7) ∧
    (faster.phase = .up ∧ (faster.bp 15).next = some 1 ∧ 1 ≤ (faster.bp 15).level ∧ levelVolt faster.fuses.solitary 1
      < faster.wdn.course.getD (15 / 4) 0 ∨ faster.voltReady 15 1 = true) ∧
    ((up.bp 15).next = none) ∧
    (avs0.wardenOn = true ∧ avs0.wdn.avs = some (3, 3520, 0)) ∧
    (avs3.wardenOn = true ∧ avs3.wdn.avs = some (3, 3520, 3) ∧ 3 < 4) ∧
    (avs4.wardenOn = true ∧ avs4.wdn.avs = some (3, 3520, 4) ∧ 4 ≤ 4) ∧
    (up.wardenOn = true ∧ rails7.length = 7 ∧ (∀ r ∈ rails7, r.ok = true) ∧ ¬ (2800000 ≤ (rails7.map fun r => r.mv *
      r.ma).sum / 1000 + 0 ∧ 2800000 ≤ up.wdn.power.headD 0)) ∧
    (up.wardenOn = true) := by
  refine ⟨?_, ?_, ?_, ?_, ?_, ?_, ?_, ?_, ?_, ?_⟩ <;> decide +kernel

theorem test_PowerStatesFollowTheirTimers_met :
    (tRun.phase = .up ∧ tRun.boot.ready = true ∧ tRun.wdn.st = .run ∧ tRun.wdn.busy = false ∧ tRun.quiet = true ∧
      tRun.wdn.idleSince + bits (tRun.regN 0x600824) 13 0 * 1000 ≤ tRun.now) ∧
    (tIdle.phase = .up ∧ tIdle.wdn.st = .idle ∧ tIdle.wdn.busy = false ∧ bits (tIdle.regN 0x600828) 15 0 ≠ 0 ∧
      tIdle.epochsFree = true ∧ tIdle.settledUnits = true ∧ tIdle.wdn.idleSince + bits (tIdle.regN 0x600828) 15 0 *
      1000000 ≤ tIdle.now ∧ (∃ b ∈ tIdle.bricks, b.powered = true)) ∧
    (tDoze.phase = .up ∧ tDoze.wdn.st = .doze ∧ bits (tDoze.regN 0x60082C) 15 0 ≠ 0 ∧ tDoze.wdn.dozeSince + bits
      (tDoze.regN 0x60082C) 15 0 * 1000000000 ≤ tDoze.now) ∧
    (bits (tNone.regN 0x60082C) 15 0 = 0) ∧
    (bits (tNone.regN 0x600828) 15 0 = 0) ∧
    (pDoze.phase = .up ∧ pDoze.wdn.st = .doze) ∧
    (pWarden.phase = .up ∧ pWarden.wdn.st = .warden ∧ pWarden.wdn.waking = false) ∧
    (pWarden.phase = .up ∧ pWarden.wdn.st = .warden) ∧
    (tWake.phase = .up ∧ tWake.wdn.st = .doze ∧ tWake.reg64 0x600830 ≠ 0 ∧ tWake.wdn.dozeSince ≤ tWake.reg64 0x600830
      ∧ tWake.reg64 0x600830 ≤ tWake.now) ∧
    (tEarly.now < tEarly.reg64 0x600830) := by
  refine ⟨?_, ?_, ?_, ?_, ?_, ?_, ?_, ?_, ?_, ?_⟩ <;> decide +kernel

theorem test_WakesAndDrainsFinish_met :
    (waking.phase = .up ∧ waking.wdn.st = .warden ∧ waking.wdn.waking = true ∧ waking.train train0 = some trained ∧
      ({ trained with mem := Mem.empty }).selfTests [] = some tested) ∧
    (waking.phase = .up ∧ waking.wdn.st = .warden ∧ waking.wdn.waking = true ∧ waking.train trainBad = none) ∧
    (up.wdn.waking = false) ∧
    (drainR.phase = .up ∧ (drainR.brick 15).drain = some (.reset 15) ∧ 15 < drainR.bricks.length) ∧
    (drainD.phase = .up ∧ (drainD.brick 15).drain = some .doze ∧ 15 < drainD.bricks.length ∧ drainD.wdn.busy = true ∧
      drainD.wdn.st = .idle ∧ drainD.wdn.waking = false ∧ (∀ k, k ≠ 15 → (drainD.brick k).drain ≠ some .doze)) ∧
    ((up.brick 15).drain = none) ∧
    (drainD.phase = .up ∧ (drainD.brick 15).drain = some .doze) ∧
    (drainR.phase = .up ∧ (drainR.brick 15).drain = some (.reset 15) ∧ 15 < drainR.bricks.length ∧ (∀ x ∈
      [6241124351], x < 6241124352)) :=
  ⟨by decide +kernel, by decide +kernel, by decide +kernel, by decide +kernel, ⟨by decide +kernel, by decide +kernel, by decide +kernel, by decide +kernel, by decide +kernel, by decide +kernel, drainD_only⟩, by decide +kernel, by decide +kernel, by decide +kernel⟩

/-! ### Which terms are well formed

One ill-formed command for each check, just past the bound. -/

def bootBadBank : BootIn := { boot0 with bankA := { noBank with seq := 2 ^ 32 } }
def bootBadTrain : BootIn := { boot0 with train := { train0 with serials := [] } }
def bootBadInst : BootIn :=
  { boot0 with instRec := some { magic := 2 ^ 32, format := 0, count := 0, instId := 0, sequence := 0, rsvZero := true, ports := [],
                                  chips := [], signer := .nobody } }
def pro1 : Progress := { sq := 32, count := 0, data := [] }
def epiBad : EpiF := { mat0.epi with red := 16 }

/-- What the tests refuse. -/
def illFormed1 : List Instr :=
  [.coldReset bootBadBank, .setupColdReq 0 bootBadTrain, .seizeExit bootBadInst, .warmResetN { calm with unhealthy := [8] },
   .flrVf 0, .flrVf 16, .perst1N [pro1], .thermTrip 40, .meshLinkFail 65536, .ptpSync 4 0 0 0, .ptpAnnounce 0 256 master0,
   .override { over0 with serial := 2 ^ 64 }, .partDrvIfver 16 0, .registerRead (.vf 16) 0 4, .registerRead (.vf 0) 0 4,
   .registerWrite .pf0 (2 ^ 32) 4 0, .partitionAlloc 16, .pinEntryWrite 0 64 0, .reservedRegionWrite 8 0, .sqEnable 0 32 0,
   .errRingEnable 16 0, .doorbellSweep 0 [], .descriptorFetch 0 0 [], .nop 16 0, .msixUnmask 0 34, .msixUnmask 1 33]
def illFormed2 : List Instr :=
  [.fence { cmd 0 with wait0 := { noWait with step := 256 } }, .fence { cmd 0 with sig0 := { noSig with amount := 65536 } },
   .fence { cmd 0 with sel := 32 }, .fence (cmd 20), .loopBegin (cmd 0) 8 (.imm 0), .loopBegin (cmd 0) 0 (.imm (2 ^ 24)),
   .predSet (cmd 0) 0 (.cmp 0 3 0), .copy (cmd 12) { copy0 with dst := 64 }, .matmul (cmd 0) { mat0 with epi := epiBad },
   .matmulAcc (cmd 0) { mat0 with a := 64 }, .act (cmd 4) { act0 with act := 16 }, .normRow (cmd 4) { norm0 with mode := 4 },
   .softmaxRow (cmd 4) { soft0 with maskMode := 4 }, .gatherPages (cmd 12) { pages0 with slots := 2 ^ 17 },
   .pool2d (cmd 8) { pool0 with dh := 8 }, .resample (cmd 8) { resamp0 with kernel := 4 }, .product (cmd 4) (scale0 8),
   .epilogueStreamHandoff { brick := 16, ctx := 0, stream := 0 }]
def illFormed3 : List Instr :=
  [.eccCorrected { siteC with way := 16 }, .tagCopyError 8 false, .obAmEccError 16 false true 0, .engineError 16 0 loc0,
   .chunkCopyDone 8, .nodeMove [2 ^ 40], .bucketRefill 8, .ingestPortEnable 4, .sourceWrite 64 0, .ruleWrite 128 0,
   .streamEnable 8 0, .ingestPacket { pkt with vlan := some 4096 }, .arpRequest { arp0 with target := 2 ^ 32 }, .gatherLimit 0 (2 ^ 32),
   .linkTrained 16, .lldpReceived 0 (2 ^ 48) 0 true, .write { frWrite with op := [] }, .hawserReservedFrame 0 256,
   .pfcPause 0 8 true, .ackTimer 65536 0, .hawJobWrite 16 0, .sensorSample 144 0, .levelChange 16, .hostWakeRequest 2 true,
   .drainTimeout 0 [2 ^ 40], .debugTrigger [{ die := 0, group := 256, bit := 0, index := 0 }], .challenge 256 0, .getMeasurements 0 (2 ^ 256),
   .perstNDeassert 2, .delayResp 0 0 (2 ^ 64) 0]

theorem test_illFormed_refused :
    illFormed1.all (fun i => ! wellFormed i) = true ∧ illFormed2.all (fun i => ! wellFormed i) = true ∧
    illFormed3.all (fun i => ! wellFormed i) = true := by decide +kernel

/-- The same tests accept these. -/
def formed : List Instr :=
  [.coldReset boot0, .warmResetN calm, .flrVf 15, .thermTrip 39, .registerRead (.vf 15) (2 ^ 32 - 1) 4, .pinEntryWrite 15 63 0,
   .sqEnable 15 31 0, .msixUnmask 0 33, .fence (cmd 19), .copy (cmd 12) copy0, .matmul (cmd 0) mat0, .eccCorrected siteC,
   .ingestPacket pkt, .write frWrite, .sensorSample 143 65535]

theorem test_formed_accepted : formed.all wellFormed = true := by decide +kernel

/-! ### Values worked out in the manual -/

/-- Chapter 6, a pixel of 41,217 counts through every format. -/
theorem test_pixel_formats :
    ofNat32 41217 = 0x47210100 ∧ narrow 2 0 0x47210100 none = 0x4721 ∧ narrow 1 0 0x47210100 none = 0x7908 ∧
    narrow 4 0 0x47210100 none = 0x79 ∧ narrow 3 0 0x47210100 none = 0x7E ∧ narrow 3 1 0x47210100 none = 0x7F := by
  decide +kernel

/-- Chapter 6, a latent value into FP8-E4M3 subnormals. -/
theorem test_subnormal :
    narrow 3 0 0x3BC80000 none = 3 ∧ narrow 3 0 0x3BC80000 (some 0x1C3F0A52) = 4 ∧
    narrow 3 0 0x3BC80000 (some 0x9E0177C4) = 3 := by decide +kernel

/-- Chapter 6, one BS4 weight against an activation of 1.5; and half-way past the largest E4M3 value. -/
theorem test_bs4_product :
    mulNum (bs4Num 0xB 0x7A) (fmtE4.decode 0x3C) = 0xBD900000 ∧ narrow 3 0 (ofNat32 464) none = 0x7E ∧
    narrow 3 1 (ofNat32 465) none = 0x7F ∧ narrow 1 0 (ofNat32 65520) none = 0x7C00 := by decide +kernel

/-- Chapter 8, the soft maximum: exp2 of -3 and the last quotient. -/
theorem test_softmax_example :
    fexp2 0xC0400000 = 0x3E000000 ∧ fdiv 0x40C80000 0x3FB80000 = 0x408B2164 ∧ narrow 2 0 0x408B2164 none = 0x408B := by
  decide +kernel

/-- Chapter 11, one latent line: stack 5, pseudo-channel 24, its local address, node 1. -/
theorem test_latent_line :
    pcOf 0x123456780 = 5 * 64 + 24 ∧ localOf 0x123456780 = 0x91A280 ∧ nodeOf (0x123456780 / 128) = 1 := by decide +kernel

/-- Chapter 13, the tree of a gradient element. -/
theorem test_tree_sum :
    fadd 0x3F800000 0x33800000 = 0x3F800000 ∧ fadd 0x33800000 0x33800000 = 0x34000000 ∧
    fadd 0x3F800000 0x34000000 = 0x3F800001 := by decide +kernel

/-- The check value of CRC-32, over the digits 1 to 9; Philox4x32-10 of counter and key zero, as its authors publish them. -/
theorem test_known_answers :
    crc32 [0x31, 0x32, 0x33, 0x34, 0x35, 0x36, 0x37, 0x38, 0x39] = 0xCBF43926 ∧ philox 0 0 0 = (0x6627E8D5, 0xE169C58D) := by
  decide +kernel

/-! ### Single steps -/

def after (i : Instr) (s : State) : State := match exec i s with | .next t => t | .fault f => nomatch f | .refused _ => s

/-- COPY moves four FP32 values from OB to device memory (R194). -/
theorem test_copy_moves : (after (.copy (cmd 12) copy0) w1).mem.read 0 16 = floats := by decide +kernel

/-- ACT with a scale of 2 and no function doubles them (R280, R281). -/
theorem test_act_doubles :
    (after (.act (cmd 4) { act0 with scale := { src := 1, val := 0x40000000 } }) w1).mem.read 0 16 =
      [0x40000000, 0x40800000, 0x40C00000, 0x41000000].flatMap (leBytes 4) := by decide +kernel

/-- PRED_SET writes its predicate (R187). -/
theorem test_predSet_sets :
    ((after (.predSet (cmd 0) 7 (.const true)) w1).ctxs.map fun p => p.2.preds) =
      [[false, false, false, false, false, false, false, true]] := by decide +kernel

/-- A strip's rows stand in its frame's extent (R427). -/
theorem test_strip_stored : (after (.ingestPacket pkt) gathering).mem.read 4096 4 = [1, 2, 3, 4] := by decide +kernel

/-- A WRITE stores its data (R482). -/
theorem test_write_stores : (after (.write frWrite) hUp).mem.read 0x40000000 4 = [1, 2, 3, 4] := by decide +kernel

/-- HOST_COPY to the device stores the host's bytes (R129, R132). -/
theorem test_hostCopy_stores :
    ((after (.hostCopy 15 31 (List.replicate 64 0xA5)) rCopy).mem.read 0x40000000 64) = List.replicate 64 0xA5 := by decide +kernel

/-- SETUP_LOCK is write-once: locked, and a later write of 0 leaves it so (R109). -/
theorem test_lock_sets :
    (after (.setupLock 1) up).locked = true ∧ (after (.setupLock 0) (after (.setupLock 1) up)).locked = true := by decide +kernel

/-- The second of two equal job numbers is refused with reason 1 (R481, R642). -/
theorem test_job_duplicate :
    (after (.hawJobWrite 1 9) job1).haw.jobReason = 1 ∧ (after (.hawJobWrite 1 9) job1).job 1 = 0 := by decide +kernel

/-- THERMTRIP_N falls and the device is dark (R32, R532). -/
theorem test_thermTrip : (after (.thermTrip 39) up).phase = .dark ∧ (after (.thermTrip 39) up).pins.thermTripN = false := by
  decide +kernel

/-- Five samples give the middle one; a filter of shift 2 moves a quarter of the way, rounded down (R523). -/
theorem test_filter : (sensor4.take 2 100).y = 0 + 3 / 4 := by decide +kernel

/-- A step takes the front command and leaves the rest; with none it is a tick of the clock. -/
theorem test_step_order :
    (match step { up with pending := [.setupLock 1, .seizeExit boot0] } with
      | .next t => t.locked && t.pending == [.seizeExit boot0] | _ => false) = true := by decide +kernel

/-- Reset is canonical, held, and keeps nothing in its queue. -/
theorem test_reset : State.reset.memOk = true ∧ State.reset.phase = .held ∧ State.reset.pending = [] := by decide +kernel

/-- The table gives no command any bits. -/
theorem test_no_words : decodeTableWord 32 0 = none := rfl

end Sys2Proof.Tests
end

section
/-! SUPPORT. What a register access of PF0 BAR0 does, one lemma per case of `registerWrite`, `writeTop` and `registerRead`
(R12, R629, R630, R632), and the statements on steps and register accesses. -/

namespace Sys2Proof

/-! ### Sparse maps and little-endian bytes -/

@[simp] theorem mapGet_mapPut_same {α : Type} (k : Nat) (v : α) (l : List (Nat × α)) : mapGet k (mapPut k v l) = some v := by
  induction l with
  | nil => simp [mapPut, mapGet]
  | cons c r ih =>
    obtain ⟨j, w⟩ := c
    by_cases hlt : k < j
    · simp [mapPut, mapGet, hlt]
    · by_cases hk : k = j
      · simp [mapPut, mapGet, hk]
      · simp [mapPut, mapGet, hlt, hk, ih]

@[simp] theorem length_leBytes (n v : Nat) : (leBytes n v).length = n := by
  induction n generalizing v with
  | zero => rfl
  | succ n ih => simp [leBytes, ih]

@[simp] theorem leNat_leBytes (n v : Nat) : leNat (leBytes n v) = v % 256 ^ n := by
  induction n generalizing v with
  | zero => simp [leBytes, leNat, Nat.mod_one]
  | succ n ih => simp [leBytes, leNat, ih, pow_succ', Nat.mod_mul]

end Sys2Proof

namespace Sys2Proof.Machine

/-! ### A step -/

theorem step_cons (s : State) (c : Instr) (rest : List Instr) :
    step { s with pending := c :: rest } = exec c { s with pending := rest } := rfl

theorem step_nil {s : State} (h : s.pending = []) : step s = .next s.tick := by
  rw [step, h]

/-! ### The two commands -/

theorem exec_registerWrite (f : Func) (o size : Nat) (v : DWord) (s : State) :
    exec (.registerWrite f o size v) s = .next (registerWrite f o size v s) := rfl

theorem exec_registerRead (f : Func) (o size : Nat) (s : State) :
    exec (.registerRead f o size) s = .next (registerRead f o size s) := rfl

/-! ### Which write it is (R629, R632) -/

theorem registerWrite_deaf {s : State} (hd : s.deaf = true) (f : Func) (o size : Nat) (v : DWord) :
    registerWrite f o size v s = s := by
  simp [registerWrite, hd]

/-- A write of a size other than 4 and 8, or that is not naturally aligned, is ignored with reason 0x6. -/
theorem registerWrite_misaligned {s : State} {o size : Nat} (hd : s.deaf = false)
    (h : (size ≠ 4 ∧ size ≠ 8) ∨ o % size ≠ 0) (f : Func) (v : DWord) : registerWrite f o size v s = s.ignore f 6 o := by
  simp only [registerWrite, hd, Bool.false_eq_true, if_false, if_pos h]

/-- An aligned 4-byte write of PF0 BAR0 outside the function page takes the low half of the operand. -/
theorem registerWrite_top {s : State} {o : Nat} (hd : s.deaf = false) (h4 : o % 4 = 0) (hp : inPage o = false) (v : DWord) :
    registerWrite .pf0 o 4 v s = writeTop o (v.toNat % 2 ^ 32) s := by
  simp [registerWrite, write4, hd, h4, hp]

/-- An ignored write outside the function page is counted, its reason and offset kept. -/
theorem State.ignoreTop_eq {o : Nat} (ho : o < 2 ^ 28) (s : State) (r : Nat) :
    s.ignoreTop r o = { s with wrIgnored := min (s.wrIgnored + 1) (2 ^ 32 - 1), wrLast := r * 2 ^ 28 + o } := by
  simp only [State.ignoreTop, sat32, ignoredWord, Nat.mod_eq_of_lt ho]

theorem State.ignore_top {o : Nat} (hp : inPage o = false) (s : State) (r : Nat) : s.ignore .pf0 r o = s.ignoreTop r o := by
  simp [State.ignore, hp]

/-! ### What a write outside the function page does (R12, R630, R632) -/

/-- The value of a 4-byte write is judged unless it is half of a 64-bit register. -/
theorem writeTop_forbidden {s : State} {o v : Nat} (hd : s.deaf = false)
    (h : s.topReason o v (! topWide o && ! (decide (4 ≤ o) && topWide (o - 4))) ≠ 0) :
    writeTop o v s = s.ignoreTop (s.topReason o v (! topWide o && ! (decide (4 ≤ o) && topWide (o - 4)))) o := by
  generalize hr : s.topReason o v _ = r at h ⊢
  cases r with
  | zero => exact absurd rfl h
  | succ r => simp only [writeTop, hd, Bool.false_eq_true, if_false, hr]

/-- The low word of a 64-bit register waits for its high word. -/
theorem writeTop_low {s : State} {o v : Nat} (hd : s.deaf = false) (hw : topWide o = true) (hr : s.topReason o v false = 0) :
    writeTop o v s = { s with lowWords := mapPut o (BitVec.ofNat 32 v) s.lowWords } := by
  simp [writeTop, hd, hw, hr]

/-- With the write of the high word a 64-bit register takes both. -/
theorem writeTop_high {s : State} {o v : Nat} (hd : s.deaf = false) (hl : topWide (o + 4) = false) (hw : topWide o = true)
    (hr : s.topReason (o + 4) v false = 0) :
    writeTop (o + 4) v s = s.takeTop o ((mapGet o s.lowWords).getD (s.reg o)).toNat v := by
  simp [writeTop, hd, hl, hw, hr]

/-- Low words that wait lock nothing. -/
theorem OpenTop.lowWords {s : State} (h : OpenTop s) (l : List (Nat × Word)) : OpenTop { s with lowWords := l } := h

/-- Nothing forbids a write of half a 64-bit register of an open device. -/
theorem State.topReason_half {s : State} {o v : Nat} (h : OpenTop s) (ha : topAccess o = .rwl) (hh : isHaw o = false)
    (hf : s.topForbids o v = false) : s.topReason o v false = 0 := by
  obtain ⟨hup, hready, hlock⟩ := h
  simp [State.topReason, ha, hh, State.serves, hup, hready, hlock, hf]

/-! ### The plain words -/

/-- Words of PF0 BAR0 whose write does no more than set their defined bits. -/
def plainWords : List Nat := [0x20014, 0x20024, 0x30000, 0x30008, 0x3000C, 0x30010, 0x30014, 0x400008, 0x600818]

/-- A plain word is a lockable 32-bit register outside the function page and the Hawser registers. -/
theorem plainWords_map : ∀ o ∈ plainWords, topAccess o = .rwl ∧ isHaw o = false ∧ inPage o = false ∧ o % 4 = 0 ∧
    topWide o = false ∧ (decide (4 ≤ o) && topWide (o - 4)) = false := by decide

theorem topForbids_plain (s : State) (v : Nat) : ∀ o ∈ plainWords, s.topForbids o v = false := by
  simp [plainWords, State.topForbids, isDbg]

theorem topBadNow_plain (s : State) (v : Nat) : ∀ o ∈ plainWords, s.topBadNow o v = false := by
  simp [plainWords, State.topBadNow, topBad]

theorem topEffect_plain (s : State) (v : Nat) :
    ∀ o ∈ plainWords, topEffect o v s = s.setReg o (BitVec.ofNat 32 (v &&& topMask o)) := by
  simp [plainWords, topEffect, setupEffect, partEffect, ingEffect, controlEffect, State.setPlain]

theorem registerWrite_plain {s : State} {o : Nat} (h : OpenTop s) (ho : o ∈ plainWords) (v : DWord) :
    registerWrite .pf0 o 4 v s = s.setReg o (BitVec.ofNat 32 (v.toNat % 2 ^ 32 &&& topMask o)) := by
  obtain ⟨ha, hh, hp, h4, hw, hhigh⟩ := plainWords_map o ho
  have hd : s.deaf = false := State.deaf_up h.1
  have hr : s.topReason o (v.toNat % 2 ^ 32) true = 0 :=
    State.topReason_open h ha (by simp [hh]) (topForbids_plain s _ o ho) (topBadNow_plain s _ o ho)
  rw [registerWrite_top hd h4 hp, writeTop_taken hd hw hhigh hr, topEffect_plain s _ o ho]

/-! ### The 64-bit registers that no check follows -/

/-- Low words of the 64-bit registers of PF0 BAR0 that keep 48 bits and start nothing. -/
def plainWide : List Nat := [0x400108, 0x600810]

/-- Both halves of such a register are lockable; the low word is kept whole, of the high word 16 bits. -/
theorem plainWide_map : ∀ o ∈ plainWide,
    (topAccess o = .rwl ∧ isHaw o = false ∧ inPage o = false ∧ o % 4 = 0 ∧ topWide o = true ∧ topMask o = 2 ^ 32 - 1) ∧
    (topAccess (o + 4) = .rwl ∧ isHaw (o + 4) = false ∧ inPage (o + 4) = false ∧ (o + 4) % 4 = 0 ∧
      topWide (o + 4) = false ∧ topMask (o + 4) = 0xFFFF) := by decide

theorem topForbids_plainWide (s : State) (v : Nat) :
    ∀ o ∈ plainWide, s.topForbids o v = false ∧ s.topForbids (o + 4) v = false := by
  simp [plainWide, State.topForbids, isDbg]

theorem takeTop_plainWide (s : State) (lo hi : Nat) : ∀ o ∈ plainWide, s.takeTop o lo hi =
    (({ s with lowWords := mapDel o s.lowWords }.setReg o (BitVec.ofNat 32 (lo &&& topMask o))).setReg (o + 4)
      (BitVec.ofNat 32 (hi &&& topMask (o + 4)))) := by
  simp [plainWide, State.takeTop, State.setPlain]

theorem registerWrite_plainWide_low {s : State} {o : Nat} (h : OpenTop s) (ho : o ∈ plainWide) (v : DWord) :
    registerWrite .pf0 o 4 v s = { s with lowWords := mapPut o (BitVec.ofNat 32 (v.toNat % 2 ^ 32)) s.lowWords } := by
  obtain ⟨⟨ha, hh, hp, h4, hw, -⟩, -⟩ := plainWide_map o ho
  have hd : s.deaf = false := State.deaf_up h.1
  rw [registerWrite_top hd h4 hp, writeTop_low hd hw (State.topReason_half h ha hh (topForbids_plainWide s _ o ho).1)]

/-- The high write sets both halves, the low one as it was written before. -/
theorem registerWrite_plainWide_high {s : State} {o : Nat} {lo : Word} (h : OpenTop s) (ho : o ∈ plainWide)
    (hlo : mapGet o s.lowWords = some lo) (w : DWord) :
    registerWrite .pf0 (o + 4) 4 w s =
      ({ s with lowWords := mapDel o s.lowWords }.setReg o lo).setReg (o + 4)
        (BitVec.ofNat 32 (w.toNat % 2 ^ 32 &&& 0xFFFF)) := by
  obtain ⟨⟨-, -, -, -, hw, hm⟩, ha, hh, hp, h4, hl, hm4⟩ := plainWide_map o ho
  have hd : s.deaf = false := State.deaf_up h.1
  have hr := State.topReason_half h ha hh (topForbids_plainWide s (w.toNat % 2 ^ 32) o ho).2
  have hkeep : BitVec.ofNat 32 (lo.toNat &&& (2 ^ 32 - 1)) = lo := by
    rw [Nat.and_two_pow_sub_one_of_lt_two_pow lo.isLt, BitVec.ofNat_toNat, BitVec.setWidth_eq]
  rw [registerWrite_top hd h4 hp, writeTop_high hd hl hw hr, takeTop_plainWide _ _ _ o ho, hlo, hm, hm4, Option.getD_some, hkeep]

/-! ### Reads (R629, R630) -/

theorem registerRead_deaf {s : State} (hd : s.deaf = true) (f : Func) (o size : Nat) : registerRead f o size s = s := by
  cases f <;> simp [registerRead, hd]

/-- A read of another size than 4 latches nothing: it answers the addressed bytes. -/
theorem registerRead_bytes {s : State} {size : Nat} (hd : s.deaf = false) (hs : size ≠ 4) (o : Nat) :
    registerRead .pf0 o size s = s.emit (.regRead .pf0 o size (BitVec.ofNat 64 (leNat (s.readBytes .pf0 o size)))) := by
  simp [registerRead, hd, hs]

/-- The four bytes at an aligned offset are its word. -/
theorem State.leNat_readBytes_word {o : Nat} (h4 : o % 4 = 0) (s : State) (f : Func) :
    leNat (s.readBytes f o 4) = s.word f o % 2 ^ 32 := by
  have hk : (o + 4 + 3) / 4 - o / 4 = 1 := by omega
  have ho : 4 * (o / 4) = o := by omega
  simp [State.readBytes, hk, ho, h4, List.take_of_length_le]

/-- A word of PF0 BAR0 outside the function page is latched. -/
def State.latch (s : State) (o w : Nat) : State := { s with latches := mapPut o (BitVec.ofNat 32 w) s.latches }

theorem State.latchPut_top {o : Nat} (hp : inPage o = false) (s : State) (w : Nat) :
    s.latchPut .pf0 o (some w) = s.latch o w := by
  simp [State.latchPut, State.latch, hp]

/-- A 4-byte read of the low word of a 64-bit RO register outside the function page latches the high word. -/
theorem registerRead_low {s : State} {o : Nat} (hd : s.deaf = false) (h4 : o % 4 = 0) (hp : inPage o = false)
    (hw : wideRo .pf0 o = true) :
    registerRead .pf0 o 4 s = ((s.latch o (s.word .pf0 (o + 4))).emit
      (.regRead .pf0 o 4 (BitVec.ofNat 64 ((s.latch o (s.word .pf0 (o + 4))).word .pf0 o % 2 ^ 32)))) := by
  simp [registerRead, hd, h4, hw, State.leNat_readBytes_word h4, State.latchPut_top hp]

/-- The next 4-byte read of the high word answers the latched one and spends it. -/
theorem registerRead_latched {s : State} {o w : Nat} (hd : s.deaf = false) (h4 : o % 4 = 0)
    (hl : wideRo .pf0 (o + 4) = false) (hw : wideRo .pf0 o = true) (hg : s.latchGet .pf0 o = some w) :
    registerRead .pf0 (o + 4) 4 s = (s.latchPut .pf0 o none).emit (.regRead .pf0 (o + 4) 4 (BitVec.ofNat 64 w)) := by
  simp [registerRead, hd, h4, hl, hw, hg]

theorem State.latchGet_top {o : Nat} (hp : inPage o = false) (s : State) :
    s.latchGet .pf0 o = (mapGet o s.latches).map (·.toNat) := by
  simp [State.latchGet, hp]

/-- Spending a latch of PF0 sends nothing. -/
theorem State.latchPut_outs (s : State) (o : Nat) (w : Option Nat) : (s.latchPut .pf0 o w).outs = s.outs := by
  simp only [State.latchPut]; split <;> rfl

/-! ### SETUP_TIME_NOW -/

section SetupTime
variable {s : State}

/-- Whatever is latched, the low word of SETUP_TIME_NOW is that of device time. -/
theorem State.word_timeNow_low (hup : s.phase = .up) (hready : s.boot.ready = true) (o w : Nat) :
    (s.latch o w).word .pf0 0x20018 = s.now % 2 ^ 32 := by
  simp [State.latch, State.word, inPage, State.serves, hup, hready, State.topWord, topAccess, setupTable, lookupAccess,
    State.setupWord, half]

theorem State.word_timeNow_high (hup : s.phase = .up) (hready : s.boot.ready = true) :
    s.word .pf0 0x2001C = s.now / 2 ^ 32 % 2 ^ 32 := by
  simp [State.word, inPage, State.serves, hup, hready, State.topWord, topAccess, setupTable, lookupAccess, State.setupWord,
    half]

/-- A read of the low word of SETUP_TIME_NOW answers it and latches the high word of the same moment. -/
theorem registerRead_timeNow_low (hup : s.phase = .up) (hready : s.boot.ready = true) :
    registerRead .pf0 0x20018 4 s = (s.latch 0x20018 (s.now / 2 ^ 32 % 2 ^ 32)).emit
      (.regRead .pf0 0x20018 4 (BitVec.ofNat 64 (s.now % 2 ^ 32))) := by
  rw [registerRead_low (State.deaf_up hup) rfl rfl rfl, State.word_timeNow_high hup hready,
    State.word_timeNow_low hup hready, Nat.mod_mod]

/-- A read of the high word of SETUP_TIME_NOW answers the latched one, whatever the time is by then. -/
theorem registerRead_timeNow_high {w : Word} (hup : s.phase = .up) (hw : mapGet 0x20018 s.latches = some w) :
    registerRead .pf0 0x2001C 4 s =
      (s.latchPut .pf0 0x20018 none).emit (.regRead .pf0 0x2001C 4 (BitVec.ofNat 64 w.toNat)) :=
  registerRead_latched (o := 0x20018) (State.deaf_up hup) rfl rfl rfl (by rw [State.latchGet_top rfl, hw]; rfl)

end SetupTime

/-- The halves of SETUP_TIME_NOW come from the moment of the low read, whatever device time does between the two. -/
theorem timeNow_reads_agree {s : State} (hup : s.phase = .up) (hready : s.boot.ready = true) :
    ∃ t, exec (.registerRead .pf0 0x20018 4) s = .next t ∧
      t.outs = .regRead .pf0 0x20018 4 (BitVec.ofNat 64 (s.now % 2 ^ 32)) :: s.outs ∧ t.time = s.time ∧ t.regs = s.regs ∧
      ∀ time, ∃ u, exec (.registerRead .pf0 0x2001C 4) { t with time := time } = .next u ∧
        u.outs = .regRead .pf0 0x2001C 4 (BitVec.ofNat 64 (s.now / 2 ^ 32 % 2 ^ 32)) :: t.outs := by
  refine ⟨_, (exec_registerRead ..).trans (congrArg _ (registerRead_timeNow_low hup hready)), rfl, rfl, rfl, fun time => ?_⟩
  refine ⟨_, (exec_registerRead ..).trans (congrArg _ (registerRead_timeNow_high hup (mapGet_mapPut_same ..))), ?_⟩
  simp [State.emit, State.latchPut_outs]

/-- A 64-bit register takes both halves with the high write. -/
theorem wide_writes_take_both {s : State} {o : Nat} (h : OpenTop s) (ho : o ∈ plainWide) (v w : DWord) :
    ∃ t, exec (.registerWrite .pf0 o 4 v) s = .next t ∧ t = { s with lowWords := t.lowWords } ∧
      exec (.registerWrite .pf0 (o + 4) 4 w) t = .next
        (({ s with lowWords := mapDel o t.lowWords }.setReg o (BitVec.ofNat 32 (v.toNat % 2 ^ 32))).setReg (o + 4)
          (BitVec.ofNat 32 (w.toNat % 2 ^ 32 &&& 0xFFFF))) := by
  refine ⟨_, (exec_registerWrite ..).trans (congrArg _ (registerWrite_plainWide_low h ho v)), rfl, ?_⟩
  rw [exec_registerWrite, registerWrite_plainWide_high (h.lowWords _) ho (mapGet_mapPut_same ..)]

/-- Settles O1: the two equations of step, one for each form of the queue. -/
theorem stepRunsTheFrontCommand : Obligations.StepRunsTheFrontCommand :=
  ⟨step_cons, fun _ => step_nil⟩

/-- Settles O22, clause by clause from the lemma on that kind of access. -/
theorem registerAccesses : Obligations.RegisterAccesses := by
  refine ⟨?ignored, ?misaligned, ?plain, ?wide, ?deafWrite, ?bytes, ?time, ?deafRead⟩
  case ignored =>
    intro s o v hd ho h4 hp hr
    rw [exec_registerWrite, registerWrite_top hd h4 hp, writeTop_forbidden hd hr, State.ignoreTop_eq ho]
  case misaligned =>
    intro s o size v hd ho hp h
    rw [exec_registerWrite, registerWrite_misaligned hd h, State.ignore_top hp, State.ignoreTop_eq ho]
  case plain =>
    intro s o v hup hready hlock ho
    rw [exec_registerWrite, registerWrite_plain ⟨hup, hready, hlock⟩ ho]
  case wide =>
    intro s o v w hup hready hlock ho
    exact wide_writes_take_both ⟨hup, hready, hlock⟩ (by simpa [plainWide] using ho) v w
  case deafWrite =>
    intro s o size v hd
    rw [exec_registerWrite, registerWrite_deaf hd]
  case bytes =>
    intro s o size hd hs
    rw [exec_registerRead, registerRead_bytes hd hs]
  case time =>
    intro s hup hready
    exact timeNow_reads_agree hup hready
  case deafRead =>
    intro s f o size hd
    rw [exec_registerRead, registerRead_deaf hd]

end Sys2Proof.Machine
end

section
/-! SUPPORT. What a vector, a detected error, an alert and a change of the device-time state leave alone: the rules that the
statements on resets, references, device time, seizes and stops share (R41, R45 to R48, R147, R566 to R571). -/

namespace Sys2Proof.Machine

/-! ### Vectors -/

theorem State.deviceEvent_frame (s : State) :
    s.deviceEvent = { s with outs := s.deviceEvent.outs, pages := s.deviceEvent.pages } := s.msix_frame 0 33

@[simp] theorem State.deviceEvent_time (s : State) : s.deviceEvent.time = s.time := by rw [s.deviceEvent_frame]
@[simp] theorem State.deviceEvent_ptp (s : State) : s.deviceEvent.ptp = s.ptp := by rw [s.deviceEvent_frame]

/-! ### Detected errors -/

theorem State.overflow_repair (s : State) (h e : ErrEvt) : ∃ r, s.overflow h e = { s with repair := r } := by
  unfold State.overflow
  split
  · exact ⟨_, rfl⟩
  · exact ⟨_, rfl⟩

/-- A detected error stays with the error handler, or, during DEVICE handling, the warden stops the device (R571). -/
theorem State.raise_cases (s : State) (e : ErrEvt) :
    (∃ r, s.raise e = { s with repair := r }) ∨ ∃ c a b d u, s.raise e = s.wardenStop .dark c a b d u := by
  unfold State.raise
  simp only
  split
  · exact .inl ⟨_, rfl⟩
  · split
    · exact .inl ⟨_, rfl⟩
    · split
      · exact .inr ⟨_, _, _, _, _, rfl⟩
      · split
        · exact .inl ⟨_, rfl⟩
        · split
          · exact .inl ⟨_, rfl⟩
          · exact .inl (s.overflow_repair _ _)

theorem State.raise_phase (s : State) (e : ErrEvt) : (s.raise e).phase = s.phase ∨ (s.raise e).phase = .dark := by
  obtain ⟨r, h⟩ | ⟨c, a, b, d, u, h⟩ := s.raise_cases e
  · exact .inl (by rw [h])
  · exact .inr (by rw [h]; rfl)

@[simp] theorem State.raise_time (s : State) (e : ErrEvt) : (s.raise e).time = s.time := by rw [s.raise_frame]
@[simp] theorem State.raise_ptp (s : State) (e : ErrEvt) : (s.raise e).ptp = s.ptp := by rw [s.raise_frame]
@[simp] theorem State.raise_windows (s : State) (e : ErrEvt) : (s.raise e).windows = s.windows := by rw [s.raise_frame]
@[simp] theorem State.raise_haw (s : State) (e : ErrEvt) : (s.raise e).haw = s.haw := by rw [s.raise_frame]
@[simp] theorem State.raise_mem (s : State) (e : ErrEvt) : (s.raise e).mem = s.mem := by rw [s.raise_frame]
@[simp] theorem State.raise_dbg (s : State) (e : ErrEvt) : (s.raise e).dbg = s.dbg := by rw [s.raise_frame]

/-! ### Alerts and waking -/

theorem State.wakeUp_frame (s : State) : s.wakeUp = { s with wdn := s.wakeUp.wdn, bricks := s.wakeUp.bricks } := by
  unfold State.wakeUp State.leaveDoze
  split
  · split <;> rfl
  · rfl
  · rfl

/-- An alert is ALERT_N low, a device event and, where DOZE is on or being entered, a wake. -/
theorem State.alert_frame (s : State) :
    s.alert = { s with pins := { s.pins with alertN := false }, outs := s.alert.outs, pages := s.alert.pages
                       wdn := s.alert.wdn, bricks := s.alert.bricks } := by
  unfold State.alert
  simp only
  split
  · rw [State.wakeUp_frame, State.deviceEvent_frame]
  · rw [State.deviceEvent_frame]

theorem State.alert_alertN (s : State) : s.alert.pins.alertN = false := by rw [s.alert_frame]
theorem State.alert_phase (s : State) : s.alert.phase = s.phase := by rw [s.alert_frame]

/-! ### Last-gasp records -/

@[simp] theorem State.lastGasp_seq (s : State) (c a b d : Nat) (u : UnitKey) :
    (s.lastGasp c a b d u).wdn.gaspSeq = s.wdn.gaspSeq + 1 := rfl

@[simp] theorem State.lastGasp_head_cause (s : State) (c a b d : Nat) (u : UnitKey) :
    (s.lastGasp c a b d u).wdn.gasp.head?.map (·.cause) = some c := rfl

/-! ### The state of device time -/

@[simp] theorem State.setTime_time (s : State) (t : TimeSt) (port : Nat) :
    (s.setTime t port).time = { s.time with st := t } := by
  unfold State.setTime
  by_cases h : s.time.st = t
  · simp [← h]
  · simp only [if_neg h]
    split
    · simp
    · split <;> simp

@[simp] theorem State.setTime_ptp (s : State) (t : TimeSt) (port : Nat) : (s.setTime t port).ptp = s.ptp := by
  unfold State.setTime
  by_cases h : s.time.st = t
  · simp [h]
  · simp only [if_neg h]
    split
    · simp
    · split <;> simp

end Sys2Proof.Machine
end

section
/-! SUPPORT. Host links and lost references (R30, R41, R42, R143, R156, R158), one lemma per case of the operation, and the
statements on them. -/

namespace Sys2Proof.Machine

/-! ### HIO1 -/

/-- PERST1_N is low. -/
def State.perst1Low (s : State) : State :=
  { s with pins := { s.pins with perstN := s.pins.perstN.modify 1 fun _ => false } }

theorem State.hio1Lost_running (s : State) (h : s.phase ≠ .seized) (ps : List Progress) :
    s.hio1Lost ps = s.failHio1 0x3032 ps := if_neg h

theorem execFlrPf1_running {s : State} (h : s.phase ≠ .seized) (hd : s.hio1Down = none) (ps : List Progress) :
    execFlrPf1 ps s = .next (s.failHio1 0x3034 ps) := by
  simp [execFlrPf1, h, hd]

/-- Where no copy is in flight, the port's loss does no more than mark it. -/
theorem State.failHio1_nil (s : State) (code : Nat) : s.failHio1 code [] = { s with hio1Down := some code } := rfl

theorem execPf1FlrReadiness_resetting {s : State} (h : s.hio1Down = some 0x3034) :
    execPf1FlrReadiness s = .next { s with hio1Down := none } := congrArg Host.Outcome.next (if_pos h)

theorem execPf1FlrReadiness_other {s : State} (h : s.hio1Down ≠ some 0x3034) : execPf1FlrReadiness s = .next s :=
  congrArg Host.Outcome.next (if_neg h)

/-! ### Training (R90, R103, R158) -/

theorem execPcieLinkTrained_hio0 {s : State} (hup : s.phase = .up) (hhigh : s.pins.perstN.getD 0 false = true)
    (hclk : RefClk.host0 ∉ s.pins.lostClks) : execPcieLinkTrained 0 s = .next { s with hio0Up := true } := by
  simp only [execPcieLinkTrained, hup, hhigh]
  simp [hclk]

theorem execPcieLinkTrained_hio1 {s : State} (hup : s.phase = .up) (hhigh : s.pins.perstN.getD 1 false = true)
    (hclk : RefClk.host1 ∉ s.pins.lostClks) : execPcieLinkTrained 1 s = .next { s with hio1Down := none } := by
  simp only [execPcieLinkTrained, hup, hhigh]
  simp [hclk]

/-- A port whose PERSTn_N is low trains no link. -/
theorem execPcieLinkTrained_low {s : State} {n : Nat} (hlow : s.pins.perstN.getD n false = false) :
    execPcieLinkTrained n s = .next s := by
  simp only [execPcieLinkTrained, hlow, or_true, if_true]

/-- Settles O35, clause by clause from the lemma on that event. -/
theorem hio1ResetsAndLinks : Obligations.Hio1ResetsAndLinks := by
  refine ⟨?losses, ?flr, State.failHio1_nil, ?ready, ?notReady, fun _ _ => rfl, ?hio0, ?hio1, ?low⟩
  case losses =>
    intro s p h
    exact ⟨congrArg Host.Outcome.next (s.hio1Lost_running h p), congrArg Host.Outcome.next (s.perst1Low.hio1Lost_running h p)⟩
  case flr =>
    intro s p h hd
    exact execFlrPf1_running h hd p
  case ready =>
    intro s h
    exact execPf1FlrReadiness_resetting h
  case notReady =>
    intro s h
    exact execPf1FlrReadiness_other h
  case hio0 =>
    intro s hup hhigh hclk
    exact execPcieLinkTrained_hio0 hup hhigh hclk
  case hio1 =>
    intro s hup hhigh hclk
    exact execPcieLinkTrained_hio1 hup hhigh hclk
  case low =>
    intro s n hlow
    exact execPcieLinkTrained_low hlow

/-! ### References (R41, R42) -/

/-- A reference is marked as lost. -/
def State.clkLost (s : State) (r : RefClk) : State :=
  { s with pins := { s.pins with lostClks := r :: s.pins.lostClks } }

/-- What a running device does once it has marked a reference as lost (R41). -/
def State.actOnLoss (s : State) (r : RefClk) (ps : List Progress) (w : WarmIn) : State :=
  match r with
  | .sys => s.wardenStop .dark 4 0 0 0x27 noUnit
  | .host0 => s.hio0Lost.warm w
  | .host1 => s.hio1Lost ps
  | .link => if s.fuses.solitary then s else forAll (List.range 16) linkClockOut s
  | .ing => (forAll (List.range 4) ingClockOut s).loseSync
  | .xtal => s.alert

theorem referenceLost_first {s : State} {r : RefClk} (hup : s.phase = .up) (hr : r ∉ s.pins.lostClks)
    (ps : List Progress) (w : WarmIn) : referenceLost r ps w s = (s.clkLost r).actOnLoss r ps w := by
  cases r <;> simp [referenceLost, State.actOnLoss, State.clkLost, hr, hup]

/-- The loss of a reference that is lost already changes nothing. -/
theorem referenceLost_again {s : State} {r : RefClk} (hr : r ∈ s.pins.lostClks) (ps : List Progress) (w : WarmIn) :
    referenceLost r ps w s = s := by
  have hc : s.pins.lostClks.contains r = true := by simpa using hr
  simp only [referenceLost, hc, Bool.true_or, if_true]

theorem State.warm_warmable {s : State} (h : s.warmable = true) (w : WarmIn) : s.warm w = warmReset w s := if_pos h

/-- Settles O36: each reference by its branch of `referenceLost_first`. -/
theorem referenceLossActs : Obligations.ReferenceLossActs := by
  refine ⟨?sys, ?host0, ?host1, ?xtal, ?again, ?mesh⟩
  case sys =>
    intro s p w hup hr
    exact ⟨_, congrArg Host.Outcome.next (referenceLost_first hup hr p w), rfl, rfl, State.lastGasp_seq ..,
      State.lastGasp_head_cause .., rfl⟩
  case host0 =>
    intro s p w hup hr hw
    have hs : (s.clkLost .host0).hio0Lost.warmable = true := hw
    exact congrArg Host.Outcome.next ((referenceLost_first hup hr p w).trans (State.warm_warmable hs w))
  case host1 =>
    intro s p w hup hr
    have hs : (s.clkLost .host1).phase ≠ .seized := by simp [State.clkLost, hup]
    exact congrArg Host.Outcome.next ((referenceLost_first hup hr p w).trans ((s.clkLost .host1).hio1Lost_running hs p))
  case xtal =>
    intro s p w hup hr
    exact ⟨_, congrArg Host.Outcome.next (referenceLost_first hup hr p w), State.alert_alertN _,
      (State.alert_phase _).trans hup⟩
  case again =>
    intro s p w r hr
    exact congrArg Host.Outcome.next (referenceLost_again hr p w)
  case mesh =>
    intro s link hm
    exact congrArg Host.Outcome.next (if_pos hm)

end Sys2Proof.Machine
end

section
/-! SUPPORT. Device time under PTP and PPS (R45 to R47, R51, R412), one lemma per case of the operation, and the statement
on them. -/

namespace Sys2Proof.Machine

/-! ### Deadline slots (R46) -/

theorem State.slotArmed_false_iff {s : State} :
    s.slotArmed = false ↔ ∀ x ∈ s.slots, x.2.armed.isSome = true → x.2.missed = true := by
  simp [State.slotArmed]

/-! ### The servo's measurement (R45 to R47) -/

/-- A step forward: device time goes on by it, once, and is LOCKED. -/
theorem State.stepTime_time (s : State) (d : Nat) :
    (s.stepTime d).time = { s.time with now := s.time.now + d, step := 0, stepped := true, st := .locked } := by
  simp [State.stepTime]

@[simp] theorem State.stepTime_ptp (s : State) (d : Nat) : (s.stepTime d).ptp = s.ptp := by
  simp [State.stepTime]

section Measured
variable {s : State} {d : Int}

/-- In ACQUIRE an offset forward is stepped at once while no slot is armed. -/
theorem State.measured_steps (hst : s.time.st = .acquire) (hd : 0 ≤ d) (hslot : s.slotArmed = false) (port : Nat) :
    s.measured port d = s.stepTime d.toNat := by
  have hneg : ¬ d < 0 := by omega
  simp [State.measured, hst, hneg, hslot]

/-- In ACQUIRE an offset backward is refused. -/
theorem State.measured_refuses (hst : s.time.st = .acquire) (hd : d < 0) (port : Nat) :
    s.measured port d = s.setTime .refused port := by
  simp [State.measured, hst, hd]

/-- In LOCKED an offset of up to one second is slewed. -/
theorem State.measured_slews (hst : s.time.st = .locked) (hd : d.natAbs ≤ 1000000000) (port : Nat) :
    s.measured port d = s.slew d := by
  have hbig : ¬ 1000000000 < d.natAbs := by omega
  simp [State.measured, hst, hbig]

end Measured

/-! ### Messages of the master (R412) -/

/-- A PTP message of the master is followed: the clock hears the port and domain, and follows that identity. -/
def State.follows (s : State) (port domain ident : Nat) (m : PtpMaster) : Prop :=
  s.ptpHears port domain = true ∧ s.ptp.master = some m ∧ m.identity = ident

/-- A Sync is accepted: its time is kept and a Delay_Req goes out. -/
def State.syncHeard (s : State) (port : Nat) : State :=
  ({ s with ptp := { s.ptp with lastSync := s.now } }).emit (.ptpDelayReq port)

section Messages
variable {s : State} {port domain ident : Nat} {m : PtpMaster}

/-- The first Sync of a free-running device begins to acquire. -/
theorem ptpSync_free (h : s.follows port domain ident m) (hst : s.time.st = .free) (time : Nat) :
    ptpSync port domain ident time s = (s.syncHeard port).setTime .acquire port := by
  obtain ⟨hhear, hm, hid⟩ := h
  simp [ptpSync, State.syncHeard, hhear, hm, hid, hst]

/-- Afterwards a Sync measures the offset, once the path delay is known. -/
theorem ptpSync_measures {d : Nat} (h : s.follows port domain ident m) (hd : s.ptp.delay = some d)
    (hf : s.time.st ≠ .free) (hr : s.time.st ≠ .refused) (time : Nat) :
    ptpSync port domain ident time s = (s.syncHeard port).measured port ((time : Int) + d - s.now) := by
  obtain ⟨hhear, hm, hid⟩ := h
  simp [ptpSync, State.syncHeard, State.now, hhear, hm, hid, hf, hr, hd]

theorem ptpAnnounce_first (hhear : s.ptpHears port domain = true) (hm : s.ptp.master = none) :
    ptpAnnounce port domain m s = { s with ptp := { s.ptp with master := some m } } := by
  simp [ptpAnnounce, hhear, hm]

/-- A better master is followed; its path delay is not known yet. -/
theorem ptpAnnounce_better {b : PtpMaster} (hhear : s.ptpHears port domain = true) (hm : s.ptp.master = some b)
    (hid : m.identity ≠ b.identity) (hb : PtpBetter m b = true) :
    ptpAnnounce port domain m s = { s with ptp := { s.ptp with master := some m, delay := none } } := by
  simp [ptpAnnounce, hhear, hm, hid, hb]

theorem execDelayResp_master (h : s.follows port domain ident m) (delay : Nat) :
    execDelayResp port domain ident delay s = .next { s with ptp := { s.ptp with delay := some delay } } := by
  obtain ⟨hhear, hm, hid⟩ := h
  simp [execDelayResp, hhear, hm, hid]

/-- Acquiring, an offset forward with no slot armed puts device time at PTP time and locks it. -/
theorem ptpSync_steps {d time : Nat} (h : s.follows port domain ident m) (hd : s.ptp.delay = some d)
    (hst : s.time.st = .acquire) (hle : s.now ≤ time + d) (hslot : s.slotArmed = false) :
    ∃ t, exec (.ptpSync port domain ident time) s = .next t ∧ t.time.now = time + d ∧ t.time.st = .locked ∧
      t.time.stepped = true ∧ t.ptp.lastSync = s.now := by
  have hrun := (ptpSync_measures h hd (by simp [hst]) (by simp [hst]) time).trans
    (State.measured_steps (s := s.syncHeard port) hst (by omega) hslot port)
  have hnow : s.now + ((time : Int) + d - s.now).toNat = time + d := by omega
  exact ⟨_, congrArg Host.Outcome.next hrun, by rw [State.stepTime_time]; exact hnow, by rw [State.stepTime_time],
    by rw [State.stepTime_time], by rw [State.stepTime_ptp]; rfl⟩

/-- Acquiring, an offset backward is refused and device time goes on. -/
theorem ptpSync_refuses {d time : Nat} (h : s.follows port domain ident m) (hd : s.ptp.delay = some d)
    (hst : s.time.st = .acquire) (hlt : time + d < s.now) :
    ∃ t, exec (.ptpSync port domain ident time) s = .next t ∧ t.time.now = s.now ∧ t.time.st = .refused := by
  have hrun := (ptpSync_measures h hd (by simp [hst]) (by simp [hst]) time).trans
    (State.measured_refuses (s := s.syncHeard port) hst (by omega) port)
  exact ⟨_, congrArg Host.Outcome.next hrun, by rw [State.setTime_time]; rfl, by rw [State.setTime_time]⟩

/-- Locked, a small offset is slewed. -/
theorem ptpSync_slews {d time : Nat} (h : s.follows port domain ident m) (hd : s.ptp.delay = some d)
    (hst : s.time.st = .locked) (hle : ((time : Int) + d - s.now).natAbs ≤ 1000000000) :
    ∃ t, exec (.ptpSync port domain ident time) s = .next t ∧ t.time.now = s.now ∧ t.time.st = .locked ∧
      t.time.slewLeft = ((time : Int) + d - s.now) * 2 ^ 32 := by
  have hrun := (ptpSync_measures h hd (by simp [hst]) (by simp [hst]) time).trans
    (State.measured_slews (s := s.syncHeard port) hst hle port)
  exact ⟨_, congrArg Host.Outcome.next hrun, rfl, hst, rfl⟩

end Messages

/-! ### Timers and PPS (R45, R46, R51) -/

section Timers
variable {s : State}

theorem execDeviceTimeStep_steps (hup : s.phase = .up) (hst : s.time.st = .stepPending) (hslot : s.slotArmed = false) :
    execDeviceTimeStep s = .next (s.stepTime s.time.step) := if_pos ⟨hup, hst, hslot⟩

/-- A pending step waits while a slot is armed. -/
theorem execDeviceTimeStep_waits (hslot : s.slotArmed = true) : execDeviceTimeStep s = .next s := by
  simp [execDeviceTimeStep, hslot]

theorem execPpsInEdge_off (hoff : bit (s.regN 0x20014) 0 = false) : execPpsInEdge s = .next s := by
  simp [execPpsInEdge, hoff]

end Timers

/-- Settles O37: the Syncs by state of device time, then the announcements, the timers and PPS. -/
theorem deviceTimeFollowsPtp : Obligations.DeviceTimeFollowsPtp := by
  refine ⟨?free, ?steps, ?refuses, ?slews, ?first, ?better, ?delay, ?timeout,
    ?step, ?waits, ?ppsIn, ?ppsOff, ?ppsRise, ?ppsFall⟩
  case free =>
    intro s port domain ident time m hhear hm hid hst
    exact congrArg Host.Outcome.next (ptpSync_free ⟨hhear, hm, hid⟩ hst time)
  case steps =>
    intro s port domain ident time m d hhear hm hid hd hst hle hslot
    exact ptpSync_steps ⟨hhear, hm, hid⟩ hd hst hle (State.slotArmed_false_iff.mpr hslot)
  case refuses =>
    intro s port domain ident time m d hhear hm hid hd hst hlt
    exact ptpSync_refuses ⟨hhear, hm, hid⟩ hd hst hlt
  case slews =>
    intro s port domain ident time m d hhear hm hid hd hst hle
    -- Here the statement speaks of the path delay as an integer.
    obtain ⟨n, hn, rfl⟩ : ∃ n : Nat, s.ptp.delay = some n ∧ (n : Int) = d := by
      simpa [Option.bind_eq_some_iff] using hd
    exact ptpSync_slews ⟨hhear, hm, hid⟩ hn hst hle
  case first =>
    intro s port domain m hhear hm
    exact congrArg Host.Outcome.next (ptpAnnounce_first hhear hm)
  case better =>
    intro s port domain m b hhear hm hid hb
    exact congrArg Host.Outcome.next (ptpAnnounce_better hhear hm hid hb)
  case delay =>
    intro s port domain ident delay m hhear hm hid
    exact execDelayResp_master ⟨hhear, hm, hid⟩ delay
  case timeout =>
    intro s hup hlate
    exact if_pos ⟨hup, hlate⟩
  case step =>
    intro s hup hst hslot
    refine ⟨_, execDeviceTimeStep_steps hup hst (State.slotArmed_false_iff.mpr hslot), ?_⟩
    simp [State.stepTime_time]
  case waits =>
    intro s x hx harmed hmissed
    have hslot : s.slotArmed = true := List.any_eq_true.mpr ⟨x, hx, by simp [harmed, hmissed]⟩
    exact execDeviceTimeStep_waits hslot
  case ppsIn =>
    intro s hup hon
    exact if_pos ⟨hup, hon⟩
  case ppsOff =>
    intro s hoff
    exact execPpsInEdge_off hoff
  case ppsRise =>
    intro s hup hsec
    exact if_pos ⟨hup, hsec⟩
  case ppsFall =>
    intro s hup hhigh hlate
    exact if_pos ⟨hup, hhigh, hlate⟩

end Sys2Proof.Machine
end

section
/-! SUPPORT. Seizes and the stops of the warden's pins (R55, R60, R574, R620, R621), and the statements on them. -/

namespace Sys2Proof.Machine

/-! ### Seizes (R620, R621) -/

section Seize
variable {s : State}

theorem State.seizeTrigger_honoured (hheld : s.phase ≠ .held) (hseized : s.phase ≠ .seized) (hlevel : 2 ≤ s.sec.level) :
    s.seizeTrigger = s.seized := by
  simp [State.seizeTrigger, hheld, hseized, hlevel]

theorem State.seizeTrigger_refused (hheld : s.phase ≠ .held) (hseized : s.phase ≠ .seized) (hlevel : s.sec.level < 2) :
    s.seizeTrigger = s.seizeRefused := by
  have hbelow : ¬ 2 ≤ s.sec.level := by omega
  simp [State.seizeTrigger, hheld, hseized, hbelow]

/-- A device held in reset or seized already takes no seize. -/
theorem State.seizeTrigger_idle (h : s.phase = .held ∨ s.phase = .seized) : s.seizeTrigger = s := if_pos h

/-- No window keeps its key. -/
theorem State.seized_windows_keyless (w : Window) (hw : w ∈ s.seized.windows) : w.key = none := by
  obtain ⟨v, -, rfl⟩ := List.mem_map.mp hw
  rfl

/-- The error of a refused seize may make the warden stop the device; it never seizes it. -/
theorem State.seizeRefused_not_seized (h : s.phase ≠ .seized) : s.seizeRefused.phase ≠ .seized := by
  obtain hp | hp := s.raise_phase _
  · exact fun hs => h (hp.symm.trans hs)
  · exact fun hs => nomatch hp.symm.trans hs

theorem State.seizeRefused_windows : s.seizeRefused.windows = s.windows := State.raise_windows s _
theorem State.seizeRefused_haw : s.seizeRefused.haw = s.haw := State.raise_haw s _
theorem State.seizeRefused_mem : s.seizeRefused.mem = s.mem := State.raise_mem s _

/-- A refused seize is counted, saturating. -/
theorem State.seizeRefused_count : s.seizeRefused.dbg.refused = min (s.dbg.refused + 1) (2 ^ 32 - 1) :=
  congrArg (fun d : DbgS => sat32 (d.refused + 1)) (State.raise_dbg s _)

end Seize

/-- Settles O38: the three branches of the trigger that both commands share. -/
theorem seizeNeedsInvasive : Obligations.SeizeNeedsInvasive := by
  refine ⟨?honoured, ?refused, ?idle⟩
  case honoured =>
    intro s hheld hseized hlevel
    have hrun : execSeizeN s = .next s.seized :=
      congrArg Host.Outcome.next (State.seizeTrigger_honoured hheld hseized hlevel)
    exact ⟨_, hrun, hrun, rfl, rfl, State.seized_windows_keyless, rfl, rfl, rfl, rfl, rfl, rfl, rfl, rfl⟩
  case refused =>
    intro s hheld hseized hlevel
    have hrun : execSeizeN s = .next s.seizeRefused :=
      congrArg Host.Outcome.next (State.seizeTrigger_refused hheld hseized hlevel)
    exact ⟨_, hrun, hrun, State.seizeRefused_not_seized hseized, State.seizeRefused_windows, State.seizeRefused_count,
      congrArg HawS.secrets State.seizeRefused_haw, State.seizeRefused_mem⟩
  case idle =>
    intro s h
    have hrun : execSeizeN s = .next s := congrArg Host.Outcome.next (State.seizeTrigger_idle h)
    exact ⟨hrun, hrun⟩

/-! ### Power and temperature (R55, R60, R574) -/

section Stops
variable {s : State}

/-- What is left of a running device after a power loss. -/
def State.unpowered (s : State) : State :=
  let t := ({ s with pins := { s.pins with pwrGood := false } }).lastGasp 5 0 0 0x27 noUnit
  { t with phase := .held, mem := Mem.empty, bricks := s.bricks.map fun _ => BrickS.reset
           dbg := { s.dbg with seize := .none }, wdn := { t.wdn with st := .off } }

theorem execPowerLoss_up (h : s.phase = .up) : execPowerLoss s = .next s.unpowered := by
  simp [execPowerLoss, State.unpowered, h]

theorem execPowerLoss_held (h : s.phase = .held) :
    execPowerLoss s = .next { s with pins := { s.pins with pwrGood := false } } := if_pos h

theorem execThermTrip_trips {die : Nat} (h : s.phase ≠ .held) (hd : die < 40) :
    execThermTrip die s = .next { s with pins := { s.pins with thermTripN := false }, phase := .dark } :=
  if_neg (by simp [h, hd])

theorem execThermTrip_held (h : s.phase = .held) (die : Nat) : execThermTrip die s = .next s := if_pos (.inl h)

end Stops

/-- Settles O56: each event by whether the device is held in reset. -/
theorem powerAndTemperatureStops : Obligations.PowerAndTemperatureStops := by
  refine ⟨?loss, ?lossHeld, ?trip, ?tripHeld⟩
  case loss =>
    intro s h
    exact ⟨_, execPowerLoss_up h, rfl, rfl, rfl, rfl, rfl, rfl, rfl⟩
  case lossHeld =>
    intro s h
    exact execPowerLoss_held h
  case trip =>
    intro s die h hd
    exact execThermTrip_trips h hd
  case tripHeld =>
    intro s die h
    exact execThermTrip_held h die

end Sys2Proof.Machine
end

section
/-! SUPPORT. The boot of a cold reset (R63, R88 to R97): what B1 to B11 work on once everything is cleared, and the statement on
cold resets. -/

namespace Sys2Proof.Machine

/-! ### What a boot works on -/

/-- Out of reset and not seized. -/
def State.Released (s : State) : Prop := s.phase ≠ .held ∧ s.phase ≠ .seized

/-- The state without what the boot sequence itself sets: outputs, phase, FATAL_N, boot results, flash, pages, bricks,
Mortar, repair, Hawser, the warden and the measurement registers. -/
def State.sansBoot (s : State) : State :=
  { s with outs := [], phase := .up, pins := { s.pins with fatalN := true }, boot := BootS.reset, flash := FlashS.reset
           pages := [], bricks := [], mortar := MortarS.reset, repair := RepairS.reset, haw := HawS.reset
           wdn := WdnS.reset, sec := { s.sec with mrs := [] } }

/-- `t` comes from `s` by steps of the boot sequence. -/
structure BootStep (s t : State) : Prop where
  rest : t.sansBoot = s.sansBoot
  released : s.Released → t.Released

theorem BootStep.refl (s : State) : BootStep s s := ⟨rfl, id⟩

theorem BootStep.trans {s t u : State} (h : BootStep s t) (k : BootStep t u) : BootStep s u :=
  ⟨k.rest.trans h.rest, k.released ∘ h.released⟩

/-- A step that ends in a phase out of reset and not seized. -/
theorem BootStep.of_phase {s t : State} (p : Phase) (hp : t.phase = p) (hrest : t.sansBoot = s.sansBoot)
    (hr : p ≠ .held ∧ p ≠ .seized) : BootStep s t := ⟨hrest, fun _ => by rw [State.Released, hp]; exact hr⟩

theorem BootStep.of_fst {s u : State} {α : Type} {r : State × α} {a : α} (h : BootStep s r.1) (hr : r = (u, a)) :
    BootStep s u := by
  subst hr
  exact h

/-- What the boot sequence does not set is as it was. -/
theorem BootStep.keeps {s t : State} {α : Type} (h : BootStep s t) (p : State → α) : p t.sansBoot = p s.sansBoot :=
  congrArg p h.rest

theorem BootStep.forAll {α : Type} {g : State → α → State} {s : State}
    (hg : ∀ {t} {a}, BootStep s t → BootStep s (g t a)) :
    ∀ {l : List α} {t : State}, BootStep s t → BootStep s (Machine.forAll l g t)
  | [], _, h => h
  | a :: l, _, h => BootStep.forAll hg (l := l) (hg (a := a) h)

/-! ### The shared operations -/

section Ops
variable {s t : State}

theorem BootStep.emit {o : Out} (h : BootStep s t) : BootStep s (t.emit o) := h.trans ⟨rfl, id⟩
theorem BootStep.extendMr {i : Nat} {v : List Byte} (h : BootStep s t) : BootStep s (t.extendMr i v) := h.trans ⟨rfl, id⟩
theorem BootStep.stage {n : Nat} (h : BootStep s t) : BootStep s (t.stage n) := h.trans ⟨rfl, id⟩
theorem BootStep.logFlash {e : LogEntry} (h : BootStep s t) : BootStep s (t.logFlash e) := h.trans ⟨rfl, id⟩
theorem BootStep.logBoot (h : BootStep s t) : BootStep s t.logBoot := h.logFlash
theorem BootStep.setUnit {u : UnitKey} {x : UnitState} (h : BootStep s t) : BootStep s (t.setUnit u x) := h.trans ⟨rfl, id⟩
theorem BootStep.modBrick {b : Nat} {g : BrickS → BrickS} (h : BootStep s t) : BootStep s (t.modBrick b g) :=
  h.trans ⟨rfl, id⟩
theorem BootStep.setPwr {p : PwrSt} (h : BootStep s t) : BootStep s (t.setPwr p) := h.trans ⟨rfl, id⟩
theorem BootStep.fatal (h : BootStep s t) : BootStep s t.fatal := h.trans ⟨rfl, id⟩

theorem BootStep.setRails {v : Nat} (h : BootStep s t) : BootStep s (t.setRails v) := by
  unfold State.setRails
  split
  · exact h
  · exact .emit (h.trans ⟨rfl, id⟩)

theorem BootStep.deviceEvent (h : BootStep s t) : BootStep s t.deviceEvent :=
  h.trans (by rw [t.deviceEvent_frame]; exact ⟨rfl, id⟩)

/-- An error during the boot waits for the error handler, or the warden stops the device, which is then dark. -/
theorem BootStep.raise {e : ErrEvt} (h : BootStep s t) : BootStep s (t.raise e) := by
  refine h.trans ?_
  obtain ⟨r, he⟩ | ⟨c, a, b, d, u, he⟩ := t.raise_cases e
  · rw [he]
    exact ⟨rfl, id⟩
  · rw [he]
    exact .of_phase .dark rfl rfl (by decide)

theorem BootStep.raise1 {c v p : Nat} {u : UnitKey} (h : BootStep s t) : BootStep s (t.raise1 c v u p) := h.raise

/-! ### B3 to B6: banks and their images (R69 to R87) -/

theorem BootStep.loadImages {b : Bank} {ts : List Nat} (h : BootStep s t) : BootStep s (loadImages b ts t).1 := by
  induction ts generalizing t with
  | nil => exact h
  | cons i ts ih =>
    unfold Machine.loadImages
    split
    · split
      · exact ih h.extendMr
      · exact h
    · exact h

theorem BootStep.tryBank {dirOk isB : Bool} {b : Bank} (h : BootStep s t) : BootStep s (t.tryBank dirOk isB b).1 := by
  unfold State.tryBank
  extract_lets _ _ u
  have hu : BootStep s u := h.trans ⟨rfl, id⟩
  clear_value u
  split
  · exact hu
  split
  · exact hu
  split
  · exact hu
  split
  next v _ hsec =>
  have hv : BootStep s v := hu.extendMr.stage.loadImages.of_fst hsec
  split
  · exact hv
  split
  next x _ hrest =>
  have hx : BootStep s x := hv.stage.loadImages.of_fst hrest
  extract_lets
  split
  · exact hx
  split
  · exact hx.stage
  split
  · exact hx.stage
  · exact hx.stage

theorem BootStep.chooseBank {i : BootIn} (h : BootStep s t) : BootStep s (t.chooseBank i).1 := by
  unfold State.chooseBank
  extract_lets dir tryB
  have hB {u : State} (hu : BootStep s u) : BootStep s (tryB u).1 := by
    unfold tryB
    split
    next v _ htry =>
    have hv : BootStep s v := hu.tryBank.of_fst htry
    split
    · exact hv.trans ⟨rfl, id⟩
    · exact hv.trans ⟨rfl, id⟩
  split
  · exact hB (h.trans ⟨rfl, id⟩)
  split
  · exact hB (h.trans ⟨rfl, id⟩)
  split
  next v _ htry =>
  have hv : BootStep s v := h.tryBank.of_fst htry
  split
  · exact hv
  · exact hB (hv.trans ⟨rfl, id⟩)

theorem BootStep.applyOverride {r : OverrideRec} (h : BootStep s t) : BootStep s (t.applyOverride r) :=
  .extendMr (h.trans ⟨rfl, id⟩)

theorem BootStep.adopt {b : Bank} (h : BootStep s t) : BootStep s (t.adopt b) := by
  unfold State.adopt
  extract_lets _ _ _ _ _ _ set measured raised overridden
  have hset : BootStep s set := h.trans ⟨rfl, id⟩
  have hmeasured : BootStep s measured := hset.extendMr
  have hraised : BootStep s raised := by
    unfold raised
    split
    · exact hmeasured.raise1
    · exact hmeasured
  have hoverridden : BootStep s overridden := by
    unfold overridden
    split
    · exact hraised.applyOverride
    · exact hraised
  exact hoverridden.deviceEvent

/-! ### B7 to B11: bring-up (R88 to R96, R384, R467 to R469, R547, R616) -/

theorem BootStep.copyGasps (h : BootStep s t) : BootStep s t.copyGasps :=
  BootStep.trans (.forAll (fun hu => hu.logFlash) h) ⟨rfl, id⟩

theorem BootStep.setCourse (h : BootStep s t) : BootStep s t.setCourse := by
  have hrails {w : WdnS} {v : Nat} :
      BootStep s (Machine.forAll (List.range 4) (fun s c => s.emit (.avs c v)) { t with wdn := w }) :=
    .forAll (fun hu => hu.emit) (h.trans ⟨rfl, id⟩)
  unfold State.setCourse
  simp only
  generalize (if t.restricted then 2 else 1) = p
  split
  · exact hrails.emit.emit
  · exact hrails.emit.emit.emit

theorem BootStep.placeChunk {st : Nat} {k : Nat × Nat} (h : BootStep s t) : BootStep s (State.placeChunk st t k) := by
  unfold State.placeChunk
  split
  · exact h
  · exact h.trans ⟨rfl, id⟩

theorem BootStep.trainStack {failed : List Nat} {st : Nat} (h : BootStep s t) : BootStep s (State.trainStack failed t st) :=
  .forAll (fun hu => hu.placeChunk) (BootStep.trans (.forAll (fun hu => hu.setUnit) h) ⟨rfl, id⟩)

theorem BootStep.train {u : State} {x : TrainIn} (h : BootStep s t) (hu : t.train x = some u) : BootStep s u := by
  unfold State.train at hu
  simp only at hu
  split at hu
  · cases hu
  · cases hu
    exact BootStep.trans (.forAll (fun hu => hu.trainStack) h) ⟨rfl, id⟩

theorem BootStep.sliceOut {k : Nat} (h : BootStep s t) : BootStep s (State.sliceOut t k) :=
  .setUnit (BootStep.trans (.forAll (fun hu => hu.setUnit) h) ⟨rfl, id⟩)

theorem BootStep.warmNodes (h : BootStep s t) : BootStep s t.warmNodes := by
  have hnodes : BootStep s { t with mortar := { t.mortar with nodes := (List.range 256).map NodeEnt.reset } } :=
    h.trans ⟨rfl, id⟩
  unfold State.warmNodes
  simp only
  split
  · exact hnodes.raise1
  · refine .forAll (fun hu => ?_) hnodes
    split
    · exact hu.trans ⟨rfl, id⟩
    · exact hu

theorem BootStep.selfTests {u : State} {failed : List UnitKey} (h : BootStep s t) (hu : t.selfTests failed = some u) :
    BootStep s u := by
  unfold State.selfTests at hu
  split at hu
  · cases hu
  · simp only at hu
    split at hu
    · cases hu
      exact .warmNodes <| .forAll (fun hu => hu.sliceOut) <| .forAll (fun hv => hv.setUnit.modBrick) h
    · cases hu

theorem BootStep.bootFails (h : BootStep s t) : BootStep s t.bootFails :=
  .deviceEvent <| .fatal <|
    .trans (h.logFlash (e := .failure t.boot.stage)) (.of_phase .failed rfl rfl (by decide))

theorem BootStep.readInst {r : Option InstRec} (h : BootStep s t) : BootStep s (t.readInst r) := by
  unfold State.readInst
  generalize t.instCheck r = c
  obtain ⟨code, chip⟩ := c
  have hcode : BootStep s { t with haw := { t.haw with instState := code, chip := chip } } := h.trans ⟨rfl, id⟩
  simp only
  split
  · split
    · exact h.trans ⟨rfl, id⟩
    · exact hcode
  · split
    · exact hcode
    · exact hcode.raise1

theorem BootStep.reserveTxc (h : BootStep s t) : BootStep s t.reserveTxc := by
  unfold State.reserveTxc
  simp only
  split
  · exact h.trans ⟨rfl, id⟩
  · exact .raise1 (h.trans ⟨rfl, id⟩)

theorem BootStep.setReady (h : BootStep s t) : BootStep s t.setReady := .deviceEvent <| .logBoot <| h.trans ⟨rfl, id⟩

theorem BootStep.enterRecovery (h : BootStep s t) : BootStep s t.enterRecovery :=
  .deviceEvent <| .logBoot <| .setRails <| .setPwr <| h.trans <| .of_phase .recovery rfl rfl (by decide)

theorem BootStep.bringUp {i : BootIn} (h : BootStep s t) : BootStep s (t.bringUp i) := by
  have hgasps := (h.stage (n := 7)).copyGasps
  unfold State.bringUp
  simp only
  split
  · exact hgasps.bootFails
  · split
    · exact hgasps.setCourse.stage.bootFails
    · next htrain =>
      have htrained := hgasps.setCourse.stage.train htrain
      split
      · exact htrained.stage.bootFails
      · next htest =>
        have htested := htrained.stage.selfTests htest
        split
        · exact htested.logBoot
        · exact htested.readInst.reserveTxc.setReady

end Ops

/-! ### Cold resets -/

/-- The boot is the steps B2 to B11 on the state a cold reset has cleared. -/
theorem boot_step (i : BootIn) (s : State) : BootStep s.coldClear (boot i s) := by
  unfold boot
  extract_lets rom
  have hrom : BootStep s.coldClear rom := (BootStep.refl s.coldClear).setRails.stage.extendMr
  split
  next u hnone => exact (hrom.chooseBank.of_fst hnone).enterRecovery
  next u b hsome => exact (hrom.chooseBank.of_fst hsome).adopt.bringUp

theorem State.coldClear_released (s : State) : s.coldClear.Released := ⟨nofun, nofun⟩

section Requests
variable {s : State}

/-- The recovery window takes a request for a cold reset in every phase that has one. -/
theorem setupColdReq_one (hheld : s.phase ≠ .held) (hdark : s.phase ≠ .dark) (hseized : s.phase ≠ .seized) (i : BootIn) :
    setupColdReq 1 i s = boot i s := by
  simp [setupColdReq, hheld, hdark, hseized]

/-- An accepted lifecycle record is followed by a cold reset. -/
theorem secMboxDone_fused {c : Nat} {f : Fuses} (hcmd : s.sec.mboxCmd = some c) (hdeaf : s.deaf = false)
    (hfused : s.sec.fused = some f) (i : BootIn) :
    secMboxDone i s = boot i { s with sec := { s.sec with mboxCmd := none, mboxStatus := c } } := by
  simp [secMboxDone, hcmd, hdeaf, hfused]

/-- Any other answer is reported, and no more. -/
theorem secMboxDone_unfused {c : Nat} (hcmd : s.sec.mboxCmd = some c) (hdeaf : s.deaf = false)
    (hfused : s.sec.fused = none) (i : BootIn) :
    secMboxDone i s = { s with sec := { s.sec with mboxCmd := none, mboxStatus := c } } := by
  simp [secMboxDone, hcmd, hdeaf, hfused]

end Requests

/-- Settles O33: the commands by whether they start a boot, and the boot by what its steps cannot undo of the clearing. -/
theorem coldResetsBootAndClear : Obligations.ColdResetsBootAndClear := by
  refine ⟨?cold, ?rise, ?request, ?exit, ?fused, ?unfused, fun _ => rfl, ?boot⟩
  case cold =>
    intro s i hgood
    exact congrArg Host.Outcome.next (if_pos hgood)
  case rise =>
    intro s i hheld hbad hcold
    exact congrArg Host.Outcome.next (if_pos ⟨hheld, hbad, hcold⟩)
  case request =>
    intro s i hheld hdark hseized
    exact congrArg Host.Outcome.next (setupColdReq_one hheld hdark hseized i)
  case exit =>
    intro s i hseized
    exact congrArg Host.Outcome.next (if_pos hseized)
  case fused =>
    intro s i c f hcmd hdeaf hfused
    exact congrArg Host.Outcome.next (secMboxDone_fused hcmd hdeaf hfused i)
  case unfused =>
    intro s i c hcmd hdeaf hfused
    exact congrArg Host.Outcome.next (secMboxDone_unfused hcmd hdeaf hfused i)
  case boot =>
    intro i s
    have h := boot_step i s
    have hfuses : (boot i s).fuses = s.sec.fused.getD s.fuses := h.keeps State.fuses
    have hlevel : (boot i s).sec.level = if (boot i s).fuses.lifecycle = .blank then 3 else 0 := by
      rw [hfuses]
      exact h.keeps (·.sec.level)
    obtain ⟨hheld, hseized⟩ := h.released s.coldClear_released
    exact ⟨hfuses, hlevel, h.keeps (·.sec.mboxToken), h.keeps (·.sec.jtagToken), h.keeps (·.sec.mboxCmd),
      h.keeps (·.sec.fused), h.keeps State.dbg, h.keeps State.regs, h.keeps State.locked, h.keeps State.parts,
      h.keeps State.lists, h.keeps State.ctxs, h.keeps State.slots, h.keeps State.chains, h.keeps State.windows,
      h.keeps State.mem, h.keeps State.time, h.keeps State.ing, h.keeps (·.pins.alertN), h.keeps (·.pins.lostClks),
      h.keeps State.vfEnable, hheld, hseized, h.keeps State.pending⟩

end Sys2Proof.Machine
end

section
/-! SUPPORT. The device held in reset (R59, R63, R113, R384, R594, R633; fuses, flash and identity are those of log entry 2):
its tables, entry by entry, and the statement on it. -/

namespace Sys2Proof.Machine

/-! ### The tables of `State.reset` -/

theorem State.reset_part (n : Nat) : State.reset.part n = Partition.reset := by
  simp only [State.part, State.reset, List.getD_eq_getElem?_getD, List.getElem?_replicate]
  split <;> rfl

theorem State.reset_page (f : Nat) : State.reset.page f = Page.reset := by
  simp only [State.page, State.reset, List.getD_eq_getElem?_getD, List.getElem?_replicate]
  split <;> rfl

theorem State.reset_sq (f n : Nat) : State.reset.sq f n = Sq.reset := by
  rw [State.sq, State.reset_page]; rfl

theorem State.reset_window {n : Nat} (h : n < 32) : State.reset.windows[n]? = some Window.reset := by
  simp only [State.reset, List.getElem?_replicate, h, if_true]

/-- Node `n` starts at slice `n % 8`, its RANK the quotient (R384). -/
theorem State.reset_node {n : Nat} (h : n < 256) : State.reset.mortar.nodes[n]? = some (NodeEnt.reset n) := by
  simp [State.reset, MortarS.reset, h]

/-- Every memory is empty, and the empty memory is canonical. -/
theorem State.reset_memOk : State.reset.memOk = true := by
  simp [State.memOk, State.reset, BrickS.reset]

/-- Settles O3: the tables by their lemmas, every other field by its value. -/
theorem resetIsCanonicalAndHeld : Obligations.ResetIsCanonicalAndHeld := by
  refine ⟨State.reset_memOk, rfl, rfl, rfl, rfl, rfl, rfl, rfl, rfl, rfl, ?parts, ?windows, ?nodes⟩
  case parts =>
    intro n _
    exact ⟨by rw [State.reset_part]; rfl, fun k _ => by rw [State.reset_sq]; rfl⟩
  case windows =>
    intro n hn
    exact State.reset_window hn
  case nodes =>
    intro n hn
    exact ⟨_, State.reset_node hn, rfl, rfl⟩

end Sys2Proof.Machine
end

section
/-! SUPPORT. Warm resets (R63, R64, R67, R155, R158, R520, R582, R587, R633): what the whole sequence leaves of the state, and the
statements on warm resets and on SETUP_RESET. -/

namespace Sys2Proof.Machine

/-! ### What a warm reset works on -/

/-- The state without what a warm reset sets after its memory steps: outputs, phase, pins, pages, bricks, Mortar, repair, the
Hawser ports and the warden. -/
def State.sansWarm (s : State) : State :=
  { s with outs := [], phase := .up, pins := PinS.reset, pages := [], bricks := [], mortar := MortarS.reset
           repair := RepairS.reset, haw := { s.haw with ports := [] }, wdn := WdnS.reset }

/-- The state also without memory and the free values drawn for dropped lines. -/
def State.sansWarmMem (s : State) : State := { s.sansWarm with mem := Mem.empty, free := 0 }

/-- The memory steps of a warm reset: pins are released, lost lines and undrained stores take their effect, the windows that
SEC_WARM_CLEAR names are cleared (R582, R611). -/
def State.warmMemory (s : State) (w : WarmIn) : State :=
  let s := s.releasePins (s.lists.flatMap RunningList.keys)
  let s := forAll (s.lostLines w.unhealthy) State.loseLine s
  let ls := w.undrained.filter fun l => decide (l < Config.deviceEnd / 64)
  ({ s with mem := ls.foldl Mem.poisonAt s.mem }).warmClear

/-! ### The memory steps -/

theorem State.warmClear_sansWarmMem (s : State) : s.warmClear.sansWarmMem = s.sansWarmMem :=
  forAll_keeps State.sansWarmMem (fun _ _ => by rfl) _ s

theorem State.warmMemory_sansWarmMem (s : State) (w : WarmIn) : (s.warmMemory w).sansWarmMem = s.sansWarmMem := by
  unfold State.warmMemory
  extract_lets pinless lost ls
  have hlost : lost.sansWarmMem = s.sansWarmMem := forAll_keeps State.sansWarmMem (fun _ _ => by rfl) _ pinless
  exact (State.warmClear_sansWarmMem _).trans hlost

theorem State.releasePins_nil (s : State) : s.releasePins [] = s := by
  simp [State.releasePins, State.withDev, State.dev]

theorem State.lostLines_nil (s : State) : s.lostLines [] = [] := by
  simp [State.lostLines]

/-- Without a bit in SEC_WARM_CLEAR no window is cleared. -/
theorem State.warmClear_zero {s : State} (h : s.regN 0x700024 = 0) : s.warmClear = s := by
  simp [State.warmClear, h, bit, forAll]

theorem foldl_poisonAt_cells (ls : List Nat) (m : Mem) : (ls.foldl Mem.poisonAt m).cells = m.cells := by
  induction ls generalizing m with
  | nil => rfl
  | cons l ls ih => exact ih (m.poisonAt l)

/-- Where no list runs, no line is lost and no window is named, the memory steps poison at most. -/
theorem State.warmMemory_cells {s : State} {w : WarmIn} (hlists : s.lists = []) (hlost : w.unhealthy = [])
    (hclear : s.regN 0x700024 = 0) : (s.warmMemory w).mem.cells = s.mem.cells := by
  have hpins : s.releasePins (s.lists.flatMap RunningList.keys) = s := by rw [hlists]; exact s.releasePins_nil
  have hlines : s.lostLines w.unhealthy = [] := by rw [hlost]; exact s.lostLines_nil
  have hwindows (m : Mem) : State.warmClear { s with mem := m } = { s with mem := m } := State.warmClear_zero hclear
  simp only [State.warmMemory, hpins, hlines, forAll, List.foldl_nil, hwindows, foldl_poisonAt_cells]

/-! ### The steps that follow -/

theorem State.unitBack_sansWarm (s : State) (u : UnitKey) : (s.unitBack u).sansWarm = s.sansWarm := by
  unfold State.unitBack
  extract_lets back ways cleared
  split
  · rfl
  · exact forAll_keeps State.sansWarm (fun _ _ => by rfl) ways back

theorem State.warmUnits_sansWarm (s : State) (failed : List UnitKey) : (s.warmUnits failed).sansWarm = s.sansWarm := by
  refine forAll_keeps State.sansWarm (fun s u => ?_) _ s
  split
  · rfl
  · exact s.unitBack_sansWarm u

theorem State.warmReadmit_sansWarm (s : State) : s.warmReadmit.sansWarm = s.sansWarm := by
  unfold State.warmReadmit
  simp only
  split
  · split <;> rfl
  · rfl

theorem State.raise_sansWarm (s : State) (e : ErrEvt) : (s.raise e).sansWarm = s.sansWarm := by
  rw [State.raise_frame]; rfl

theorem State.raise1_sansWarm (s : State) (c v p : Nat) (u : UnitKey) : (s.raise1 c v u p).sansWarm = s.sansWarm :=
  s.raise_sansWarm _

theorem State.warmNodes_sansWarm (s : State) : s.warmNodes.sansWarm = s.sansWarm := by
  unfold State.warmNodes
  simp only
  split
  · exact State.raise1_sansWarm ..
  · refine forAll_keeps State.sansWarm (fun s k => ?_) _ _
    split <;> rfl

theorem State.latchWake_sansWarm (s : State) : s.latchWake.sansWarm = s.sansWarm := by
  unfold State.latchWake
  split <;> rfl

theorem State.deviceEvent_sansWarm (s : State) : s.deviceEvent.sansWarm = s.sansWarm := by
  rw [State.deviceEvent_frame]; rfl

theorem State.sansWarmMem_of {s t : State} (h : s.sansWarm = t.sansWarm) : s.sansWarmMem = t.sansWarmMem := by
  unfold State.sansWarmMem; rw [h]

theorem State.sansWarm_mem {s t : State} (h : s.sansWarm = t.sansWarm) : s.mem = t.mem := by
  have k := congrArg State.mem h; exact k

/-- What a warm reset clears depends only on what its other steps keep. -/
theorem State.warmState_sansWarm {s t : State} (h : s.sansWarm = t.sansWarm) (n : Nat) :
    (s.warmState n).sansWarm = (t.warmState 0).sansWarm := by
  have k := congrArg (fun u : State => (u.warmState 0).sansWarm) h
  exact k

theorem State.warmState_sansWarmMem {s t : State} (h : s.sansWarmMem = t.sansWarmMem) :
    (s.warmState 0).sansWarmMem = (t.warmState 0).sansWarmMem := by
  have k := congrArg (fun u : State => (u.warmState 0).sansWarmMem) h
  exact k

/-- A warm reset is its memory steps and what it clears, but for what `sansWarm` leaves out. -/
theorem warmReset_sansWarm (w : WarmIn) (s : State) :
    (warmReset w s).sansWarm = ((s.warmMemory w).warmState 0).sansWarm := by
  have hunits : ((s.warmMemory w).warmReadmit.warmUnits w.selfTestFail).sansWarm = (s.warmMemory w).sansWarm :=
    (State.warmUnits_sansWarm ..).trans (State.warmReadmit_sansWarm _)
  unfold warmReset
  extract_lets pinless lost unlost ls cleared nodes reported powered
  have hnodes : nodes.sansWarm = ((s.warmMemory w).warmState 0).sansWarm :=
    (State.warmNodes_sansWarm _).trans (State.warmState_sansWarm hunits _)
  have hreported : reported.sansWarm = nodes.sansWarm := by
    unfold reported
    split
    · rfl
    · exact State.raise1_sansWarm ..
  have hpowered : powered.sansWarm = reported.sansWarm := by
    unfold powered
    split
    · exact State.latchWake_sansWarm _
    · rfl
  exact powered.deviceEvent_sansWarm.trans (hpowered.trans (hreported.trans hnodes))

/-- All but memory is what the clearing leaves of the state the reset met. -/
theorem warmReset_sansWarmMem (w : WarmIn) (s : State) : (warmReset w s).sansWarmMem = (s.warmState 0).sansWarmMem :=
  (State.sansWarmMem_of (warmReset_sansWarm w s)).trans (State.warmState_sansWarmMem (s.warmMemory_sansWarmMem w))

theorem warmReset_mem (w : WarmIn) (s : State) : (warmReset w s).mem = (s.warmMemory w).mem :=
  State.sansWarm_mem (t := (s.warmMemory w).warmState 0) (warmReset_sansWarm w s)

/-! ### The commands (R64, R67, R155, R158, R520) -/

section Commands
variable {s : State}

theorem State.warmable_iff : s.warmable = true ↔ s.phase = .up ∧ s.boot.ready = true ∧ s.wdn.st ≠ .off := by
  simp [State.warmable, and_assoc]

theorem State.not_seized_of_warmable (h : s.warmable = true) : s.phase ≠ .seized := by
  simp [(State.warmable_iff.mp h).1]

/-- A device that is not up performs no warm reset. -/
theorem State.warm_down (h : s.phase ≠ .up) (w : WarmIn) : s.warm w = s :=
  if_neg fun hw => h (State.warmable_iff.mp hw).1

/-- Outside a seize FLR_PF0 clears VF Enable and asks for a warm reset. -/
theorem execFlrPf0_running (h : s.phase ≠ .seized) (w : WarmIn) :
    execFlrPf0 w s = .next (({ s with vfEnable := false }).warm w) := congrArg Host.Outcome.next (if_neg h)

theorem execHio0LinkLoss_running (h : s.phase ≠ .seized) (w : WarmIn) :
    execHio0LinkLoss w s = .next (s.hio0Lost.warm w) := congrArg Host.Outcome.next (if_neg h)

/-- PERST0_N is low, the link down and VF Enable clear. -/
def State.perst0Low (s : State) : State :=
  { s with pins := { s.pins with perstN := s.pins.perstN.modify 0 fun _ => false }, hio0Up := false, vfEnable := false }

theorem execPerst0N_running (h : s.phase ≠ .seized) (w : WarmIn) :
    execPerst0N w s = .next (s.perst0Low.warm w) := congrArg Host.Outcome.next (if_neg h)

/-- The sideband asks for a warm reset with one byte pair only. -/
theorem execI3cWarmResetRequest_other {b0 b1 : Byte} (h : b0 ≠ 0x57 ∨ b1 ≠ 0x52) (w : WarmIn) :
    execI3cWarmResetRequest b0 b1 w s = .next s :=
  congrArg Host.Outcome.next (if_neg fun hb => h.elim (· hb.1) (· hb.2))

/-- Nothing forbids the value 2 in SETUP_RESET of a device that is READY. -/
theorem State.topReason_setupReset_two (hup : s.phase = .up) (hready : s.boot.ready = true) :
    s.topReason 0x20004 2 true = 0 :=
  State.topReason_wo hup hready rfl (by simp [isHaw]) rfl rfl

/-- Every other value is out of range (R64). -/
theorem State.topReason_setupReset_other (hup : s.phase = .up) (hready : s.boot.ready = true) {v : Nat} (hv : v ≠ 2) :
    s.topReason 0x20004 v true = 3 := by
  have hwo : topAccess 0x20004 = .wo := rfl
  have hhaw : isHaw 0x20004 = false := rfl
  have hfree : s.topForbids 0x20004 v = false := rfl
  have hbad : s.topBadNow 0x20004 v = true := by simp [State.topBadNow, topBad, hv]
  simp [State.topReason, hwo, hhaw, State.serves, hup, hready, hfree, hbad]

theorem execSetupReset_two (h : s.warmable = true) (w : WarmIn) : execSetupReset 2 w s = .next (warmReset w s) := by
  obtain ⟨hup, hready, -⟩ := State.warmable_iff.mp h
  have htaken := And.intro (State.deaf_up hup) (State.topReason_setupReset_two hup hready)
  exact congrArg Host.Outcome.next ((if_pos htaken).trans (State.warm_warmable h w))

theorem execSetupReset_other (hup : s.phase = .up) (hready : s.boot.ready = true) {v : Word} (hv : v ≠ 2) (w : WarmIn) :
    execSetupReset v w s = .next (s.ignoreTop 3 0x20004) := by
  have hbad := State.topReason_setupReset_other hup hready (v := v.toNat) fun h => hv (BitVec.eq_of_toNat_eq h)
  have hrefused : ¬ (s.deaf = false ∧ s.topReason 0x20004 v.toNat true = 0) := fun h => nomatch hbad.symm.trans h.2
  exact congrArg Host.Outcome.next
    ((if_neg hrefused).trans (writeTop_ignored (State.deaf_up hup) rfl rfl hbad (by decide)))

end Commands

/-- A write-only word outside the function page reads as zero (R11). -/
theorem State.word_wo {o : Nat} (hp : inPage o = false) (ha : topAccess o = .wo) (s : State) : s.word .pf0 o = 0 := by
  simp [State.word, hp, State.topWord, ha]

/-- Settles O28: the two answers of the register to a write, and its access type. -/
theorem setupResetTakesOnlyTwo : Obligations.SetupResetTakesOnlyTwo := by
  refine ⟨?two, ?other, State.word_wo rfl rfl⟩
  case two =>
    intro s w h
    exact execSetupReset_two h w
  case other =>
    intro s v w hup hready hv
    exact (execSetupReset_other hup hready hv w).trans (congrArg _ (State.ignoreTop_eq (by decide) s 3))

/-- Settles O34: the commands by what they do before the reset, and the reset by what its steps leave of the state. -/
theorem warmResetsKeepAndClear : Obligations.WarmResetsKeepAndClear := by
  refine ⟨?commands, ?setup, ?i3c, ?down, ?reset, ?memory⟩
  case commands =>
    intro s w h
    have hrun := State.not_seized_of_warmable h
    refine ⟨congrArg _ (State.warm_warmable h w), congrArg _ (State.warm_warmable h w), ?link, ?flr, ?perst⟩
    case link => exact (execHio0LinkLoss_running hrun w).trans (congrArg _ (State.warm_warmable (s := s.hio0Lost) h w))
    case flr =>
      exact (execFlrPf0_running hrun w).trans (congrArg _ (State.warm_warmable (s := { s with vfEnable := false }) h w))
    case perst => exact (execPerst0N_running hrun w).trans (congrArg _ (State.warm_warmable (s := s.perst0Low) h w))
  case setup =>
    intro s w h
    exact execSetupReset_two h w
  case i3c =>
    intro s w b0 b1 h
    exact execI3cWarmResetRequest_other h w
  case down =>
    intro s w h
    exact congrArg Host.Outcome.next (State.warm_down h w)
  case reset =>
    intro w s
    have h := warmReset_sansWarmMem w s
    generalize warmReset w s = t at h
    have keeps {α : Type} (p : State → α) : p t.sansWarmMem = p (s.warmState 0).sansWarmMem := congrArg p h
    exact ⟨keeps State.lists, keeps State.ctxs, keeps State.slots, keeps State.chains, keeps State.parts, keeps State.ing,
      keeps State.locked, keeps State.wrIgnored, keeps State.wrLast, keeps State.lowWords, keeps State.resvStatus,
      keeps State.regs, keeps State.fuses, keeps State.boot, keeps State.time, keeps State.dbg, keeps (·.sec.level),
      keeps (·.sec.nonce), keeps (·.sec.mrs), keeps (·.flash.cells), keeps (·.haw.chip), keeps (·.haw.bindings),
      keeps State.hio0Up, keeps State.vfEnable, keeps State.pending⟩
  case memory =>
    intro w s hlists hlost hclear
    rw [warmReset_mem, State.warmMemory_cells hlists hlost hclear]

end Sys2Proof.Machine
end

section
/-! SUPPORT. The locks and the driver classes (R98, R99, R102, R634), one lemma per write, and the statement on them. -/

namespace Sys2Proof.Machine

section Locks
variable {s : State} {f : Nat}

/-- SETUP_LOCK takes a 1 of an open device (R634). -/
theorem writeTop_setupLock (h : OpenTop s) : writeTop 0x20000 1 s = { s with locked := true } :=
  writeTop_taken (State.deaf_up h.1) rfl rfl (State.topReason_open h rfl (by simp [isHaw]) rfl rfl)

/-- Nothing forbids a write of 1 to the lock of an open page. -/
theorem State.pageReason_lock (h : OpenPage s f) : s.pageReason f 0x10C 1 = 0 := by
  obtain ⟨-, hup, hready, hlock⟩ := h
  have hacc : pageAccess f 0x10C = .rwl := rfl
  have hfree : (s.page f).forbids 0x10C 1 = false := rfl
  simp [State.pageReason, hacc, State.servesPage, hup, hready, hfree, hlock]

theorem writePage_lock (h : OpenPage s f) :
    writePage f 0x10C 1 s = (s.seen f).modPage f fun p => { p with locked := true } :=
  writePage_taken (State.deaf_up h.2.1) h.1 rfl rfl (State.pageReason_lock h)

/-- That a VF's page is accessed changes no driver's class. -/
theorem State.seen_classOf (s : State) (f v : Nat) : (s.seen f).classOf v = s.classOf v := by
  unfold State.seen; split <;> rfl

/-- While a ring of the function is enabled its driver presents no versions (R102). -/
theorem Page.forbids_ifver (p : Page) (v : Nat) : p.forbids 0x100 v = p.anyRing := rfl

/-- The versions a driver presents before it enables a ring set its class (R98, R99). -/
theorem writePage_ifver (h : OpenPage s f) (hring : (s.page f).anyRing = false) (v : Nat) :
    writePage f 0x100 v s =
      (s.seen f).modPage f fun p => { p with ifver := v, ifverSet := true, cls := s.classOf v } := by
  have htaken : s.pageReason f 0x100 v = 0 := State.pageReason_open h rfl (by decide) hring
  rw [writePage_taken (State.deaf_up h.2.1) h.1 rfl rfl htaken, ← s.seen_classOf f v]
  rfl

/-- With a ring enabled PART_DRV_IFVER is refused, locked or not. -/
theorem State.pageReason_ifver_ring (hup : s.phase = .up) (hready : s.boot.ready = true) (hring : (s.page f).anyRing = true)
    (v : Nat) : s.pageReason f 0x100 v = 5 := by
  have hacc : pageAccess f 0x100 = .rwl := rfl
  simp [State.pageReason, hacc, State.servesPage, hup, hready, Page.forbids_ifver, hring]

theorem State.classOf_mismatch {v : Nat}
    (h : v >>> 24 ≠ s.boot.ctlIfver >>> 24 ∨ bits v 15 8 ≠ bits s.boot.ctlIfver 15 8) : s.classOf v = 3 := if_pos h

/-- Versions that agree and that an override lists are CONCORD, whatever the concord list says of them. -/
theorem State.classOf_override {v : Nat} (hmajor : v >>> 24 = s.boot.ctlIfver >>> 24)
    (hrec : bits v 15 8 = bits s.boot.ctlIfver 15 8) (hlisted : s.boot.overridePairs.contains v = true) :
    s.classOf v = 1 := by
  unfold State.classOf
  simp only [hmajor, hrec, ne_eq, not_true_eq_false, or_self, if_false, hlisted, if_true, ite_self]

end Locks

/-- Settles O23: each write by the lemma on that register, the class by the branches of `classOf`. -/
theorem locksAndDriverClasses : Obligations.LocksAndDriverClasses := by
  refine ⟨?setupLock, ?pageLock, ?classified, ?refused, ?classes⟩
  case setupLock =>
    rintro s v h rfl
    exact congrArg Host.Outcome.next (writeTop_setupLock h)
  case pageLock =>
    rintro s f v h rfl
    exact congrArg Host.Outcome.next (writePage_lock h)
  case classified =>
    intro s f v h hring
    exact congrArg Host.Outcome.next (writePage_ifver h hring v.toNat)
  case refused =>
    intro s f v hup hready hf hring
    exact congrArg Host.Outcome.next
      (writePage_ignored (State.deaf_up hup) hf (State.pageReason_ifver_ring hup hready hring v.toNat) (by decide))
  case classes =>
    intro s v
    exact ⟨State.classOf_mismatch, State.classOf_override⟩

end Sys2Proof.Machine
end

section
/-! SUPPORT. Partition resets (R65, R66, R102, R112, R153, R157): what one leaves of the rings, the chains and the deadline slots
of its partition, and the statement on FLR_VF and SETUP_PART_RESET. -/

namespace Sys2Proof.Machine

/-! ### Pages whose rings are off -/

/-- What holds of the default and of every entry holds of each value of a sparse map. -/
theorem mapRd_of_forall {α : Type} {P : α → Prop} {d : α} {m : List (Nat × α)} (hd : P d) (hm : ∀ x ∈ m, P x.2) (k : Nat) :
    P (mapRd d k m) := by
  induction m with
  | nil => exact hd
  | cons c m ih =>
    obtain ⟨j, v⟩ := c
    obtain ⟨hv, hm⟩ := List.forall_mem_cons.mp hm
    by_cases hk : k = j
    · simpa [mapRd, mapGet, hk] using hv
    · simpa [mapRd, mapGet, hk] using ih hm

/-- The page changed by an update is the page of the function it names, where the state has that page. -/
theorem State.modPage_page_of {P : Page → Prop} {s : State} {f : Nat} {g : Page → Page} (hreset : P Page.reset)
    (hg : P (g (s.page f))) : P ((s.modPage f g).page f) := by
  unfold State.page State.modPage modAt at *
  simp only [List.getD_eq_getElem?_getD, List.getElem?_modify_eq] at *
  cases h : s.pages[f]? with
  | none => exact hreset
  | some p => simpa [h] using hg

/-- Every submission ring is disabled and empty, the error ring is off, lock and driver class are clear (R102, R112, R157). -/
def Page.RingsOff (p : Page) : Prop :=
  (∀ k, (p.sq k).state = .disabled ∧ (p.sq k).queue = []) ∧ p.errEnabled = false ∧ p.locked = false ∧ p.cls = 0

theorem Page.reset_ringsOff : Page.reset.RingsOff := ⟨fun _ => ⟨rfl, rfl⟩, rfl, rfl, rfl⟩

theorem Page.ringsReset_ringsOff (p : Page) : p.ringsReset.RingsOff := by
  refine ⟨?_, rfl, rfl, rfl⟩
  refine mapRd_of_forall (P := fun q : Sq => q.state = .disabled ∧ q.queue = []) ⟨rfl, rfl⟩ fun x hx => ?_
  obtain ⟨y, -, rfl⟩ := List.mem_map.mp (List.mem_filter.mp hx).1
  exact ⟨rfl, rfl⟩

/-! ### Partitions without work -/

/-- Partition `n` has its rings off, no open chain and no deadline slot. -/
structure State.Emptied (s : State) (n : Nat) : Prop where
  rings : (s.page n).RingsOff
  chains : ∀ c ∈ s.chains, c.part ≠ n
  slots : ∀ x ∈ s.slots, x.2.part ≠ n

section Emptied
variable {s : State} {n : Nat}

/-- An update of pages keeps a partition emptied where its own page keeps its rings off. -/
theorem State.Emptied.modPage {g : Page → Page} (h : s.Emptied n) (hg : (g (s.page n)).RingsOff) :
    (s.modPage n g).Emptied n :=
  ⟨State.modPage_page_of Page.reset_ringsOff hg, h.chains, h.slots⟩

/-- Only pages, chains and slots matter. -/
theorem State.Emptied.of_eq {t : State} (h : s.Emptied n)
    (hkeep : (t.pages, t.chains, t.slots) = (s.pages, s.chains, s.slots)) : t.Emptied n := by
  obtain ⟨hpages, hchains, hslots⟩ : t.pages = s.pages ∧ t.chains = s.chains ∧ t.slots = s.slots := by simpa using hkeep
  refine ⟨?_, hchains ▸ h.chains, hslots ▸ h.slots⟩
  unfold State.page
  rw [hpages]
  exact h.rings

theorem State.Emptied.endReset (h : s.Emptied n) : (s.endReset n).Emptied n := by
  unfold State.endReset
  split
  · split
    · exact .of_eq (h.modPage Page.reset_ringsOff) rfl
    · exact h.of_eq rfl
  · exact h

/-- The rings off and the work gone, whatever the partition held. -/
theorem State.clearWork_emptied (s : State) (n : Nat) : ((s.clearWork n).modPage n Page.ringsReset).Emptied n where
  rings := State.modPage_page_of Page.reset_ringsOff (Page.ringsReset_ringsOff _)
  chains c hc := by simpa using (List.mem_filter.mp hc).2
  slots x hx := by simpa using (List.mem_filter.mp hx).2

/-- A partition reset that meets none empties its partition. -/
theorem State.partReset_emptied (h : (s.part n).resetting = false) (flr : Bool) : (s.partReset n flr).Emptied n := by
  unfold State.partReset
  rw [if_neg (by simp [h])]
  extract_lets ended emptied silenced draining
  have hemptied : emptied.Emptied n := ended.clearWork_emptied n
  have hsilenced : silenced.Emptied n := by
    unfold silenced
    split
    · exact hemptied.modPage hemptied.rings
    · exact hemptied
  have hdraining : draining.Emptied n :=
    hsilenced.of_eq (forAll_keeps (fun s => (s.pages, s.chains, s.slots)) (fun _ _ => by rfl) _ silenced)
  exact .endReset (hdraining.of_eq rfl)

/-- A reset by SETUP_PART_RESET that meets another is absorbed (R66). -/
theorem State.partReset_absorbed (h : (s.part n).resetting = true) : s.partReset n false = s := by
  simp [State.partReset, h]

end Emptied

/-! ### The commands (R65, R153) -/

section Commands
variable {s : State}

theorem execFlrVf_running {n : Nat} (h : s.warmable = true) (hvf : s.vfEnable = true) (h1 : 1 ≤ n) (h15 : n ≤ 15) :
    execFlrVf n s = .next (s.partReset n true) := by
  simp [execFlrVf, h, hvf, h1, h15]

/-- SETUP_PART_RESET refuses a value that names no allocated partition. -/
theorem State.topReason_partReset (hup : s.phase = .up) (hready : s.boot.ready = true) (v : Nat) :
    s.topReason 0x20008 v true = if 16 ≤ v ∨ (s.part v).allocated = false then 3 else 0 := by
  have hwo : topAccess 0x20008 = .wo := rfl
  have hhaw : isHaw 0x20008 = false := rfl
  have hfree : s.topForbids 0x20008 v = false := rfl
  have hbad : s.topBadNow 0x20008 v = true ↔ 16 ≤ v ∨ (s.part v).allocated = false := by
    simp [State.topBadNow, topBad, Nat.lt_iff_add_one_le]
  simp [State.topReason, hwo, hhaw, State.serves, hup, hready, hfree, hbad]

theorem writeTop_partReset (hup : s.phase = .up) (hready : s.boot.ready = true) {v : Nat} (hv : v < 16)
    (halloc : (s.part v).allocated = true) : writeTop 0x20008 v s = s.partReset v false := by
  have hnamed : ¬ (16 ≤ v ∨ (s.part v).allocated = false) := by simp [hv, halloc]
  exact writeTop_taken (State.deaf_up hup) rfl rfl ((State.topReason_partReset hup hready v).trans (if_neg hnamed))

theorem writeTop_partReset_ignored (hup : s.phase = .up) (hready : s.boot.ready = true) {v : Nat}
    (h : 16 ≤ v ∨ (s.part v).allocated = false) : writeTop 0x20008 v s = s.ignoreTop 3 0x20008 :=
  writeTop_ignored (State.deaf_up hup) rfl rfl ((State.topReason_partReset hup hready v).trans (if_pos h)) (by decide)

end Commands

/-- Settles O27: both commands start the reset that `partReset_emptied` is about. -/
theorem partitionResetsEmptyTheirRings : Obligations.PartitionResetsEmptyTheirRings := by
  refine ⟨?flr, ?reset, ?absorbed, ?counted⟩
  case flr =>
    intro s n h hvf h1 h15 hnone
    obtain ⟨⟨hsqs, herr, hlock, hcls⟩, hchains, hslots⟩ := State.partReset_emptied hnone true
    exact ⟨_, execFlrVf_running h hvf h1 h15, hsqs, herr, hlock, hcls, hchains, hslots⟩
  case reset =>
    intro s v hup hready hv halloc hnone
    obtain ⟨⟨hsqs, herr, hlock, hcls⟩, hchains, hslots⟩ := State.partReset_emptied hnone false
    exact ⟨_, congrArg Host.Outcome.next (writeTop_partReset hup hready hv halloc), hsqs, herr, hlock, hcls, hchains, hslots⟩
  case absorbed =>
    intro s v hup hready hv halloc hresetting
    exact congrArg Host.Outcome.next ((writeTop_partReset hup hready hv halloc).trans (State.partReset_absorbed hresetting))
  case counted =>
    intro s v hup hready h
    exact congrArg Host.Outcome.next (writeTop_partReset_ignored hup hready h)

end Sys2Proof.Machine
end

section
/-! SUPPORT. The records of the security mailbox (R75, R86, R87, R599, R605, R613, R642): what the mailbox, a refusal and each
accepted record leave, and the statement on them. -/

namespace Sys2Proof.Machine

/-! ### Refusals -/

/-- A record is refused with a code: the code is the answer, and its fault passes to the error handler, or to the warden. -/
def State.RecordRefused (s t : State) (code : Nat) : Prop :=
  ∃ r w p ph, t = { s.mboxAnswer code with repair := r, wdn := w, pins := p, phase := ph }

theorem State.raise_mboxAnswer_refused (s : State) (e : ErrEvt) (code : Nat) :
    s.RecordRefused ((s.raise e).mboxAnswer code) code :=
  ⟨_, _, _, _, congrArg (·.mboxAnswer code) (s.raise_frame e)⟩

section Mailbox
variable {s : State} (h : MailboxOpen s)
include h

/-- An open mailbox takes its record (R642). -/
theorem State.mailbox_open (k : State → State) : s.mailbox k = k s := by
  obtain ⟨hdeaf, hserves, hfree⟩ := h
  simp [State.mailbox, State.gated, hdeaf, hserves, hfree]

theorem override_refused {r : OverrideRec} (hbad : s.overrideOk r = false) : s.RecordRefused (override r s) 0x8002 := by
  simp only [override, State.mailbox_open h, hbad, Bool.false_eq_true, if_false]
  exact s.raise_mboxAnswer_refused _ _

theorem goldenUpdate_refused {r : GoldenRec}
    (hbad : s.ownerSigned r.signer = false ∨ r.setHash ≠ s.boot.setHash ∨ s.boot.concordFromA = false) :
    s.RecordRefused (goldenUpdate r s) 0x8001 := by
  have hcheck : (s.ownerSigned r.signer && r.setHash == s.boot.setHash && s.boot.concordFromA) = false := by
    rcases hbad with hbad | hbad | hbad <;> simp [hbad]
  simp only [goldenUpdate, State.mailbox_open h, hcheck, Bool.false_eq_true, if_false]
  exact s.raise_mboxAnswer_refused _ _

theorem lifecycleRecord_refused {g : Signer}
    (hbad : s.lifecycleFields (s.mboxBytes 224) = false ∨ s.lifecycleSigned g = false) :
    s.RecordRefused (lifecycleRecord g s) 0x6011 := by
  have hcheck : (s.lifecycleFields (s.mboxBytes 224) && s.lifecycleSigned g) = false := by
    rcases hbad with hbad | hbad <;> simp [hbad]
  simp only [lifecycleRecord, State.mailbox_open h, hcheck, Bool.false_eq_true, if_false]
  exact s.raise_mboxAnswer_refused _ _

theorem linkSecretRecord_refused {g : Signer} {u : Bool} (hbad : s.linkRecordOk (s.mboxBytes 288) g u = false) (k : Nat) :
    s.RecordRefused (linkSecretRecord g u k s) 0x6012 := by
  simp only [linkSecretRecord, State.mailbox_open h, hbad, Bool.false_eq_true, if_false]
  exact s.raise_mboxAnswer_refused _ _

/-! ### Records that are accepted -/

/-- The accepted override is stored, in force, and answered; a change of OUTCOME besides is a device event. -/
theorem override_accepted {r : OverrideRec} (hok : s.overrideOk r = true) :
    ∃ p o, override r s = { (({ s with flash := { s.flash with overrides := r :: s.flash.overrides } }).applyOverride
      r).mboxAnswer 0 with pages := p, outs := o } := by
  simp only [override, State.mailbox_open h, hok, if_true]
  split
  · exact ⟨_, _, rfl⟩
  · exact ⟨_, _, State.deviceEvent_frame _⟩

theorem goldenUpdate_accepted {r : GoldenRec} (hsigned : s.ownerSigned r.signer = true) (hset : r.setHash = s.boot.setHash)
    (hbank : s.boot.concordFromA = true) :
    goldenUpdate r s = ({ s with flash := { s.flash with cells := copyBank s.flash.cells } }).mboxAnswer 0 := by
  simp [goldenUpdate, State.mailbox_open h, hsigned, hset, hbank]

/-- An accepted lifecycle record governs from the next cold reset; a release or decommissioning erases the secrets (R599). -/
theorem lifecycleRecord_accepted {g : Signer} {f : Fuses} (hfields : s.lifecycleFields (s.mboxBytes 224) = true)
    (hsigned : s.lifecycleSigned g = true) (hfuses : s.lifecycleFuses (s.mboxBytes 224) = some f) :
    ∃ fl ha, lifecycleRecord g s =
      (({ s with flash := fl, haw := ha, sec := { s.sec with fused := some f } }).extendMr 8
        (sha384 (s.mboxBytes 224))).mboxAnswer 0 := by
  simp only [lifecycleRecord, State.mailbox_open h, hfields, hsigned, Bool.and_self, if_true, hfuses]
  split
  · exact ⟨_, _, rfl⟩
  · exact ⟨_, _, rfl⟩

/-- The accepted link secret and the one before it are kept, and the EPOCH starts again (R613, R616). -/
theorem linkSecretRecord_accepted {g : Signer} {u : Bool} (hok : s.linkRecordOk (s.mboxBytes 288) g u = true) (k : Nat) :
    ∃ cells ports,
      let ks := ({ gen := fieldLE (s.mboxBytes 288) 6 2, secret := k } :: s.flash.secrets).take 2
      linkSecretRecord g u k s =
        ({ s with flash := { s.flash with secrets := ks, cells := cells, txcBound := 65536 }
                  haw := { s.haw with secrets := ks, ports := ports, epoch := 0, epochEnd := 65536
                                      exhausted := false } }).mboxAnswer 0 := by
  simp only [linkSecretRecord, State.mailbox_open h, hok, if_true]
  exact ⟨_, _, rfl⟩

theorem debugToken_mailbox (b : List Byte) (g : Signer) :
    debugToken false b g s = { s with sec := { s.sec with
      mboxToken := some { bytes := s.mboxBytes 160, signer := g }, mboxCmd := some 0 } } := by
  simp [debugToken, State.mailbox_open h, State.mboxAnswer]

end Mailbox

theorem debugToken_jtag {s : State} (hdeaf : s.deaf = false) (b : List Byte) (g : Signer) :
    debugToken true b g s = { s with sec := { s.sec with jtagToken := some { bytes := b, signer := g } } } := by
  simp [debugToken, hdeaf]

/-- Settles O41: each record by its equation, accepted or refused. -/
theorem securityRecordsAreJudged : Obligations.SecurityRecordsAreJudged := by
  refine ⟨?override, ?overrideBad, ?golden, ?goldenBad, ?lifecycle, ?lifecycleBad, ?link, ?linkBad, ?token, ?jtag⟩
  case override =>
    intro s r h hok
    obtain ⟨p, o, hrun⟩ := override_accepted h hok
    refine ⟨_, congrArg Host.Outcome.next hrun, rfl, rfl, ?_, rfl, rfl, rfl, rfl⟩
    simp [State.applyOverride, State.mboxAnswer, State.extendMr]
  case overrideBad =>
    intro s r h hbad
    obtain ⟨_, _, _, _, hrun⟩ := override_refused h hbad
    exact ⟨_, congrArg Host.Outcome.next hrun, rfl, rfl, rfl, rfl⟩
  case golden =>
    intro s r h hsigned hset hbank
    exact congrArg Host.Outcome.next (goldenUpdate_accepted h hsigned hset hbank)
  case goldenBad =>
    intro s r h hbad
    obtain ⟨_, _, _, _, hrun⟩ := goldenUpdate_refused h hbad
    exact ⟨_, congrArg Host.Outcome.next hrun, rfl, rfl⟩
  case lifecycle =>
    intro s g f h hfields hsigned hfuses
    obtain ⟨fl, ha, hrun⟩ := lifecycleRecord_accepted h hfields hsigned hfuses
    exact ⟨_, congrArg Host.Outcome.next hrun, rfl, rfl, rfl, rfl⟩
  case lifecycleBad =>
    intro s g h hbad
    obtain ⟨_, _, _, _, hrun⟩ := lifecycleRecord_refused h hbad
    exact ⟨_, congrArg Host.Outcome.next hrun, rfl, rfl, rfl, rfl⟩
  case link =>
    intro s g u k h hok
    obtain ⟨cells, ports, hrun⟩ := linkSecretRecord_accepted h hok k
    exact ⟨_, congrArg Host.Outcome.next hrun, rfl, rfl, rfl, rfl, rfl⟩
  case linkBad =>
    intro s g u k h hbad
    obtain ⟨_, _, _, _, hrun⟩ := linkSecretRecord_refused h hbad k
    exact ⟨_, congrArg Host.Outcome.next hrun, rfl, rfl, rfl⟩
  case token =>
    intro s b g h
    exact congrArg Host.Outcome.next (debugToken_mailbox h b g)
  case jtag =>
    intro s b g hdeaf
    exact congrArg Host.Outcome.next (debugToken_jtag hdeaf b g)

end Sys2Proof.Machine
end

section
/-! SUPPORT. Sparse maps and byte memories read without their canonical form: the statements on copies and on the clear of a
partition ask for it nowhere but where they name it. -/

namespace Sys2Proof

section SparseMaps
variable {α : Type} {k : Nat}

/-- Entries under other keys do not matter. -/
theorem mapGet_filter {p : Nat × α → Bool} (h : ∀ v, p (k, v) = true) (l : List (Nat × α)) :
    mapGet k (l.filter p) = mapGet k l := by
  induction l with
  | nil => rfl
  | cons c l ih =>
    obtain ⟨j, w⟩ := c
    by_cases hk : k = j
    · subst hk
      simp [h w, mapGet]
    · by_cases hp : p (j, w) = true
      · simp [hp, mapGet, hk, ih]
      · simp [hp, mapGet, hk, ih]

theorem mapGet_append (l m : List (Nat × α)) : mapGet k (l ++ m) = (mapGet k l).or (mapGet k m) := by
  induction l with
  | nil => simp [mapGet]
  | cons c l ih =>
    obtain ⟨j, w⟩ := c
    by_cases hk : k = j
    · simp [mapGet, hk]
    · simp [mapGet, hk, ih]

/-- A key that is set to another value than the default reads as that value. -/
theorem mapRd_mapSet_same [DecidableEq α] {d v : α} (hv : v ≠ d) (m : List (Nat × α)) : mapRd d k (mapSet d k v m) = v := by
  simp [mapRd, mapSet, hv]

end SparseMaps

end Sys2Proof

namespace Sys2Proof.Machine

section Splice
variable {lo hi k : Nat} {new l : List Host.Cell}

theorem mapGet_cellSplice_outside (hlo : lo ≤ hi) (hk : k < lo ∨ hi ≤ k) (hnew : mapGet k new = none) :
    mapGet k (cellSplice lo hi new l) = mapGet k l := by
  unfold cellSplice
  rw [mapGet_append, mapGet_append, hnew, Option.or_none]
  rcases hk with hk | hk
  · have habove : mapGet k (l.filter fun x => decide (hi ≤ x.1)) = none :=
      mapGet_eq_none fun v hv => by simp at hv; omega
    rw [habove, Option.or_none, mapGet_filter fun v => by simpa using hk]
  · have hbelow : mapGet k (l.filter fun x => decide (x.1 < lo)) = none :=
      mapGet_eq_none fun v hv => by simp at hv; omega
    rw [hbelow, Option.none_or, mapGet_filter fun v => by simpa using hk]

theorem mapGet_cellSplice_inside (hlo : lo ≤ k) (hhi : k < hi) : mapGet k (cellSplice lo hi new l) = mapGet k new := by
  have hbelow : mapGet k (l.filter fun x => decide (x.1 < lo)) = none :=
    mapGet_eq_none fun v hv => by simp at hv; omega
  have habove : mapGet k (l.filter fun x => decide (hi ≤ x.1)) = none :=
    mapGet_eq_none fun v hv => by simp at hv; omega
  rw [cellSplice, mapGet_append, mapGet_append, hbelow, habove, Option.none_or, Option.or_none]

end Splice

section Stores
variable {g a n k : Nat} {bs : List Byte}

/-- A byte outside a store reads as before, in a memory of any form. -/
theorem Mem.rd_put_outside (m : Mem) (hk : k < a ∨ a + bs.length ≤ k) : (m.put g a bs).rd k = m.rd k := by
  have hnew : mapGet k (runCells a bs) = none := mapGet_eq_none fun v hv => by
    obtain ⟨-, hle, hat⟩ := mem_runCells.mp hv
    have := (List.getElem?_eq_some_iff.mp hat).1
    omega
  unfold Mem.put
  split
  · rfl
  · exact congrArg (·.getD 0) (mapGet_cellSplice_outside (by omega) hk hnew)

/-- A byte inside a store reads as it was stored, in a memory of any form: as after the same store to an empty memory. -/
theorem Mem.rd_put_inside (m : Mem) {i : Nat} (hi : i < bs.length) : (m.put g a bs).rd (a + i) = bs[i] := by
  have hrun (m : Mem) : (m.put g a bs).rd (a + i) = mapRd 0 (a + i) (runCells a bs) := by
    have hlen : ¬ bs.length = 0 := by omega
    simp only [Mem.put, if_neg hlen]
    exact congrArg (·.getD 0) (mapGet_cellSplice_inside (hi := a + bs.length) (Nat.le_add_right a i) (by omega))
  rw [hrun, ← hrun Mem.empty, Mem.put_rd_inside Mem.empty_wf g a bs hi]

theorem Mem.rd_wipe_outside (m : Mem) (hk : k < a ∨ a + n ≤ k) : (m.wipe g a n).rd k = m.rd k :=
  congrArg (·.getD 0) (mapGet_cellSplice_outside (by omega) hk rfl)

/-- No granule of a wiped range of whole granules is written. -/
theorem Mem.wipe_unwritten (m : Mem) (ha : g ∣ a) (hn : g ∣ n) (hk : a ≤ k) (hkn : k < a + n) :
    (m.wipe g a n).unwritten g k 1 = true := by
  have hlo : a / g ≤ k / g := Nat.div_le_div_right hk
  have hhi : k / g < (a + n) / g := Nat.div_lt_div_of_lt_of_dvd (Nat.dvd_add ha hn) hkn
  have hnone : (m.wipe g a n).written.filter (fun w => decide (k / g ≤ w) && decide (w ≤ k / g)) = [] := by
    simp only [Mem.wipe, setSplice, List.append_nil, List.filter_eq_nil_iff, List.mem_append, List.mem_filter,
      decide_eq_true_eq, Bool.and_eq_true]
    omega
  simp [Mem.unwritten, hnone]

end Stores

@[simp] theorem length_sliceB (l : List Byte) (o n : Nat) : (sliceB l o n).length = n := by simp [sliceB]

theorem getElem_sliceB {l : List Byte} {o n i : Nat} (h : i < (sliceB l o n).length) : (sliceB l o n)[i] = l.getD (o + i) 0 := by
  simp [sliceB]

end Sys2Proof.Machine
end

section
/-! SUPPORT. Descriptors of the host rings (R128 to R136, R140, R141, R143, R149 to R151, R456): what each type's command does
with the descriptor that starts now, what ends and retires it, and the statements on them. -/

namespace Sys2Proof.Machine

/-! ### Starting (R129, R131) -/

section Start
variable {s : State} {f n k : Nat} {d : Desc}

/-- The command of a descriptor's own type finds it as the head that starts. -/
theorem State.starting_of_startsOn (h : StartsOn s f n d) (hk : d.type = k) :
    s.starting f n k = some (s.letRun f n d none, d) := by
  obtain ⟨hon, hstate, hstays, hhead, hruns⟩ := h
  simp [State.starting, hon, hstate, hstays, hhead, hruns, hk]

theorem execNop_starts (h : StartsOn s f n d) (hk : d.type = 0) :
    execNop f n s = .next ((s.letRun f n d none).okDesc f n 0) := by
  simp [execNop, State.starting_of_startsOn h hk]

theorem execTimestamp_starts (h : StartsOn s f n d) (hk : d.type = 5) :
    execTimestamp f n s = .next (((s.letRun f n d none).emit (.hostWrite f 0 d.hostAddr (leBytes 8 s.now))).okDesc f n
      (s.now % 2 ^ 64)) := by
  simp only [execTimestamp, State.starting_of_startsOn h hk]
  rfl

theorem execRunList_starts (h : StartsOn s f n d) (hk : d.type = 1) :
    execRunList f n s = .next (if (s.letRun f n d none).maskBad f d then (s.letRun f n d none).malDesc f n 0x05
      else s.letRun f n d none) := by
  simp only [execRunList, State.starting_of_startsOn h hk]
  exact (apply_ite ..).symm

/-- A WAIT_RING of a ring that may be named completes, or waits for its count (R134). -/
theorem execWaitRing_starts (h : StartsOn s f n d) (hk : d.type = 3) (hok : (s.letRun f n d none).ringBad f n d = false) :
    execWaitRing f n s = .next (if (s.letRun f n d none).ringReached f d then (s.letRun f n d none).okDesc f n 0
      else s.letRun f n d none) := by
  simp only [execWaitRing, State.starting_of_startsOn h hk, hok, Bool.false_eq_true, if_false]
  exact (apply_ite ..).symm

/-- A WAIT_RING whose ring left since the fetch is found malformed (R140). -/
theorem execWaitRing_malformed (h : StartsOn s f n d) (hk : d.type = 3) (hbad : (s.letRun f n d none).ringBad f n d = true) :
    execWaitRing f n s = .next ((s.letRun f n d none).malDesc f n 0x09) := by
  simp only [execWaitRing, State.starting_of_startsOn h hk, hbad, if_true]

/-- A WAIT_EPOCH of a stream of its partition ends with the outcome of its exposure, or waits for it (R456). -/
theorem execWaitEpoch_starts (h : StartsOn s f n d) (hk : d.type = 4) (hstream : d.f 0x10 1 ≤ 7)
    (hon : s.strOn (d.f 0x10 1) = true) (hpart : s.strPart (d.f 0x10 1) = f) :
    execWaitEpoch f n s = .next (match s.epochOutcome d with
      | some c => (s.letRun f n d none).endWait f n d c
      | none => s.letRun f n d none) := by
  have hserved : ¬ (7 < d.f 0x10 1 ∨ (s.letRun f n d none).strOn (d.f 0x10 1) = false ∨
      (s.letRun f n d none).strPart (d.f 0x10 1) ≠ f) := by
    rintro (hlt | hoff | hother)
    · omega
    · exact nomatch hon.symm.trans hoff
    · exact hother hpart
  have hsame : (s.letRun f n d none).epochOutcome d = s.epochOutcome d := rfl
  simp only [execWaitEpoch, State.starting_of_startsOn h hk, if_neg hserved, hsame]
  cases s.epochOutcome d <;> rfl

end Start

/-- Settles O18: each type by the lemma on its command. -/
theorem descriptorsRun : Obligations.DescriptorsRun := by
  refine ⟨?nop, ?runList, ?waitRing, ?malformed, ?waitEpoch, ?timestamp⟩
  case nop =>
    intro s f n d h hk
    exact execNop_starts h hk
  case runList =>
    intro s f n d h hk
    exact execRunList_starts h hk
  case waitRing =>
    intro s f n d h hk hok
    exact execWaitRing_starts h hk hok
  case malformed =>
    intro s f n d h hk hbad
    exact execWaitRing_malformed h hk hbad
  case waitEpoch =>
    intro s f n d h hk hstream hon hpart
    exact execWaitEpoch_starts h hk hstream hon hpart
  case timestamp =>
    intro s f n d h hk
    exact execTimestamp_starts h hk

/-! ### HOST_COPY (R133, R135, R143) -/

/-- Outputs and nothing else come of sending something for each entry of a list. -/
theorem forAll_emit_frame {α : Type} (g : State → α → Out) (l : List α) (s : State) :
    ∃ o, forAll l (fun s a => s.emit (g s a)) s = { s with outs := o } := by
  induction l generalizing s with
  | nil => exact ⟨_, rfl⟩
  | cons a l ih =>
    obtain ⟨o, h⟩ := ih (s.emit (g s a))
    exact ⟨o, h⟩

/-- Through one port a copy is one request (R135). -/
theorem Desc.parts_onePort {d : Desc} {k : Nat} (hport : d.port ≠ 2) (hk : k ≠ 0) :
    d.parts k = [(d.hostAddr, 0, k, d.port)] := by
  simp [Desc.parts, copyParts, hport, hk]

section Copy
variable {s : State} {f n k : Nat} {d : Desc} {data : List Byte}

/-- Bytes from the host are stored at the device address and charged (R403). -/
theorem State.moveCopy_in (hdir : d.dir = 0) (hk : k ≠ 0) : ∃ o b m,
    s.moveCopy f d k data = { s with outs := o, mem := b, mortar := m, free := s.free + 1 } ∧
    b = s.mem.put devGranule d.devAddr (sliceB data 0 k) := by
  obtain ⟨o, ho⟩ := forAll_emit_frame (fun _ p => .hostRead f p.2.2.2 p.1 p.2.2.1) (d.parts k) s
  simp only [State.moveCopy, if_neg hk, if_pos hdir, ho, State.storeDev, length_sliceB]
  exact ⟨_, _, _, rfl, rfl⟩

/-- Bytes for the host leave memory as it is; through HIO0 they are one write (R135, R143). -/
theorem State.moveCopy_out (hdir : d.dir = 1) (hk : k ≠ 0) : ∃ o m,
    s.moveCopy f d k data = { s with outs := o, mortar := m, free := s.free + 1 } ∧
    (d.port = 0 → o = .hostWrite f 0 d.hostAddr (s.mem.read d.devAddr k) :: s.outs) := by
  have hin : ¬ d.dir = 0 := by omega
  simp only [State.moveCopy, if_neg hk, if_neg hin]
  by_cases hport : d.port = 0
  · have hone : d.parts k = [(d.hostAddr, 0, k, 0)] := by
      rw [Desc.parts_onePort (by omega) hk, hport]
    simp only [hone, if_pos hport, forAll, List.foldl_cons, List.foldl_nil, Nat.add_zero]
    exact ⟨_, _, rfl, fun _ => rfl⟩
  · obtain ⟨o, ho⟩ := forAll_emit_frame
      (fun s p => .hostWrite f p.2.2.2 p.1 (s.mem.read (d.devAddr + p.2.1) p.2.2.1)) (d.parts k) s
    rw [ho, if_neg hport]
    exact ⟨_, _, rfl, fun h => absurd h hport⟩

/-- A copy that nothing stops moves all its bytes and completes OK. -/
theorem State.hostCopy_completes (hport : d.port = 0 ∨ s.hio1Down = none)
    (haccess : s.accessFault f d.devAddr d.length = none)
    (hclean : d.dir = 1 → s.mem.firstPoison d.devAddr d.length = none) :
    s.hostCopy f n d data = (s.moveCopy f d d.length data).okDesc f n d.length := by
  have hup : (if d.port = 0 then none else s.hio1Down) = none := by
    rcases hport with hport | hport <;> simp [hport]
  have hpoison : (if d.dir = 1 then s.mem.firstPoison d.devAddr d.length else none) = none := by
    split
    · next hdir => exact hclean hdir
    · rfl
  simp only [State.hostCopy, hup, haccess, hpoison]

/-- A copy through a port that is down fails at its first byte. -/
theorem State.hostCopy_portDown {code : Nat} (hport : d.port ≠ 0) (hdown : s.hio1Down = some code) :
    s.hostCopy f n d data = s.faultDesc f n (s.hostRec f code 1 d.hostAddr 0) 0 := by
  simp only [State.hostCopy, if_neg hport, hdown]

theorem execHostCopy_starts (h : StartsOn s f n d) (hk : d.type = 2) (data : List Byte) :
    execHostCopy f n data s = .next ((s.letRun f n d none).hostCopy f n d data) := by
  simp only [execHostCopy, State.starting_of_startsOn h hk]

/-- A copy that starts and that nothing stops ends OK with its bytes moved. -/
theorem execHostCopy_completes (h : StartsOn s f n d) (hk : d.type = 2) (hport : d.port = 0 ∨ s.hio1Down = none)
    (haccess : s.accessFault f d.devAddr d.length = none)
    (hclean : d.dir = 1 → s.mem.firstPoison d.devAddr d.length = none) (data : List Byte) :
    execHostCopy f n data s = .next (((s.letRun f n d none).moveCopy f d d.length data).okDesc f n d.length) :=
  (execHostCopy_starts h hk data).trans
    (congrArg _ (State.hostCopy_completes (s := s.letRun f n d none) hport haccess hclean))

/-- A copy to the device stores its bytes at the device address and touches nothing but its ring, the requests, the charge. -/
theorem execHostCopy_in (h : StartsOn s f n d) (hk : d.type = 2) (hdir : d.dir = 0) (hlen : d.length ≠ 0)
    (hport : d.port = 0 ∨ s.hio1Down = none) (haccess : s.accessFault f d.devAddr d.length = none) (data : List Byte) :
    ∃ t, execHostCopy f n data s = .next t ∧ t.mem = s.mem.put devGranule d.devAddr (sliceB data 0 d.length) ∧
      t = { s with pages := t.pages, outs := t.outs, mem := t.mem, mortar := t.mortar, free := t.free } ∧
      t.pages = ((s.letRun f n d none).okDesc f n d.length).pages := by
  obtain ⟨o, b, m, hmove, hput⟩ := State.moveCopy_in (s := s.letRun f n d none) (f := f) (data := data) hdir hlen
  refine ⟨_, execHostCopy_completes h hk hport haccess (by omega) data, ?_⟩
  rw [hmove]
  exact ⟨hput, rfl, rfl⟩

/-- A copy to the host leaves memory as it is; through HIO0 it is one write. -/
theorem execHostCopy_out (h : StartsOn s f n d) (hk : d.type = 2) (hdir : d.dir = 1) (hlen : d.length ≠ 0)
    (hport : d.port = 0 ∨ s.hio1Down = none) (haccess : s.accessFault f d.devAddr d.length = none)
    (hclean : s.mem.firstPoison d.devAddr d.length = none) (data : List Byte) :
    ∃ t, execHostCopy f n data s = .next t ∧
      t = { s with pages := t.pages, outs := t.outs, mortar := t.mortar, free := t.free } ∧
      t.pages = ((s.letRun f n d none).okDesc f n d.length).pages ∧
      (d.port = 0 → t.outs = .hostWrite f 0 d.hostAddr (s.mem.read d.devAddr d.length) :: s.outs) := by
  obtain ⟨o, m, hmove, hwrite⟩ := State.moveCopy_out (s := s.letRun f n d none) (f := f) (data := data) hdir hlen
  refine ⟨_, execHostCopy_completes h hk hport haccess (fun _ => hclean) data, ?_⟩
  rw [hmove]
  exact ⟨rfl, rfl, hwrite⟩

/-- A failed request of a copy in flight ends the copy. -/
theorem State.hostFails_copy (h : StartsOn s f n d) (hk : d.type = 2) (count : Nat) (data : List Byte) (code status : Nat) :
    s.hostFails f n (.copy count data) code status =
      (s.letRun f n d none).failCopy f n d count data code status := by
  simp only [State.hostFails, State.copyOn, State.starting_of_startsOn h hk]

/-- A failed fetch puts its ring into ERROR (R151). -/
theorem State.hostFails_fetch (hon : s.ringsOn f = true) (hstate : (s.sq f n).state = .enabled)
    (hstays : (s.sq f n).disabling = false) (hahead : (s.sq f n).ahead (s.sq f n).producer ≠ 0) (code status : Nat) :
    s.hostFails f n .descriptor code status =
      s.ringError f n 0x3033 0x24 ((s.sq f n).base + 64 * ((s.sq f n).fetched % 2 ^ (s.sq f n).log2)) status := by
  simp [State.hostFails, hon, hstate, hstays, hahead]

end Copy

/-! ### Rings in ERROR (R128, R151) -/

section RingError
variable {s : State} {f n : Nat}

theorem State.modPage_page_same (hf : f < s.pages.length) (g : Page → Page) : (s.modPage f g).page f = g (s.page f) := by
  simp [State.page, State.modPage, modAt, List.getD_eq_getElem?_getD, hf]

/-- A ring that is set to another value than the reset one reads as that value. -/
theorem State.modSq_sq_same (hf : f < s.pages.length) {g : Sq → Sq} (hg : g (s.sq f n) ≠ Sq.reset) :
    (s.modSq f n g).sq f n = g (s.sq f n) := by
  rw [State.sq, State.modSq, State.modPage_page_same hf]
  exact mapRd_mapSet_same hg _

/-- The ring's own record changes no ring. -/
theorem State.ringError_sq (s : State) (f n code die addr status : Nat) :
    (s.ringError f n code die addr status).sq f n =
      (s.modSq f n fun q => { q with state := .error, queue := q.queue.map Desc.stop }).sq f n := by
  simp only [State.ringError]
  rw [State.raise_frame]
  rfl

theorem State.ringError_stops (hf : f < s.pages.length) (code die addr status : Nat) :
    (s.ringError f n code die addr status).sq f n =
      { s.sq f n with state := .error, queue := (s.sq f n).queue.map Desc.stop } := by
  rw [State.ringError_sq, State.modSq_sq_same hf]
  exact fun h => nomatch congrArg Sq.state h

end RingError

/-- Settles O19: a copy by its direction, each failure by its lemma. -/
theorem hostCopiesMoveOrFail : Obligations.HostCopiesMoveOrFail := by
  refine ⟨?toDevice, ?toHost, ?portDown, ?copyFails, ?fetchFails, ?ringStops⟩
  case toDevice =>
    intro s f n d data h hk hdir hlen hport haccess
    obtain ⟨t, hrun, hmem, hframe, hpages⟩ := execHostCopy_in h hk hdir hlen hport haccess data
    refine ⟨t, hrun, hmem, fun a ha => ?outside, fun i hi => ?inside, hframe, hpages⟩
    case outside => rw [hmem, Mem.rd_put_outside s.mem (by rwa [length_sliceB])]
    case inside => rw [hmem, Mem.rd_put_inside s.mem (by rwa [length_sliceB]), getElem_sliceB, Nat.zero_add]
  case toHost =>
    intro s f n d data h hk hdir hlen hport haccess hclean
    exact execHostCopy_out h hk hdir hlen hport haccess hclean data
  case portDown =>
    intro s f n d data code h hk hport hdown
    exact (execHostCopy_starts h hk data).trans (congrArg _ (State.hostCopy_portDown hport hdown))
  case copyFails =>
    intro s f n d count data abort h hk
    exact ⟨congrArg Host.Outcome.next (State.hostFails_copy h hk count data _ _),
      congrArg Host.Outcome.next (State.hostFails_copy h hk count data _ _)⟩
  case fetchFails =>
    intro s f n abort hon hstate hstays hahead
    exact ⟨congrArg Host.Outcome.next (State.hostFails_fetch hon hstate hstays hahead _ _),
      congrArg Host.Outcome.next (State.hostFails_fetch hon hstate hstays hahead _ _)⟩
  case ringStops =>
    intro s f n hf code die addr status
    rw [State.ringError_stops hf]
    exact ⟨rfl, rfl⟩

end Sys2Proof.Machine
end

section
/-! SUPPORT. Completions and vectors (R131, R140, R141, R149): when a completion is written, when a vector is raised, and the
statement on them. -/

namespace Sys2Proof.Machine

/-! ### Completions (R131, R140, R141) -/

theorem silent_iff {d : Desc} {e : Ending} : silent d e = true ↔ d.noCompletion = true ∧ e.status = 0 := by
  simp [silent]

section Completion
variable {s : State} {f n : Nat} {d : Desc} {e : Ending} {m : Bool}

/-- A descriptor that is due stays as it is. -/
theorem State.dueNow_due (h : (s.sq f n).cur = some { desc := d, out := some e, missed := m }) : s.dueNow f n = s := by
  simp only [State.dueNow, h]

/-- A completion that may be written, and that ends no late slot, is written unless NO_COMPLETION keeps it silent. -/
theorem State.complete_writes (h : (s.sq f n).cur = some { desc := d, out := some e, missed := m })
    (hcan : s.canWrite f n d e = true) (hlate : lateFirst s.now (s.slots.filter fun x => x.2.endsWith f n d) = none) :
    s.complete f n = (if silent d e then s else s.putCompletion f n d e m).retireDesc f n d e := by
  simp only [State.complete, h, hcan, if_true, hlate]

theorem State.complete_waits (h : (s.sq f n).cur = some { desc := d, out := some e, missed := m })
    (hcan : s.canWrite f n d e = false) : s.complete f n = s := by
  simp only [State.complete, h, hcan, Bool.false_eq_true, if_false]

end Completion

/-! ### Vectors (R149) -/

section Vectors
variable {s : State} {f n : Nat} {o : Out}

/-- A vector that is raised takes back nothing that went out. -/
theorem State.mem_outs_msix (h : o ∈ s.outs) (v : Nat) : o ∈ (s.msix f v).outs := by
  unfold State.msix
  split
  · exact h
  · exact List.mem_cons_of_mem _ h

theorem State.mem_outs_signal (h : o ∈ s.outs) (c : Nat) : o ∈ (s.signal f c).outs :=
  State.mem_outs_msix (s := s.modPage f fun p => p.modCq c fun q => { q with unsignalled := 0 }) h _

/-- IRQ_TIMER raises the vector of a completion ring whose oldest unsignalled completion is old enough. -/
theorem execIrqTimer_aged (hon : s.ringsOn f = true) (hcq : ((s.page f).cq n).enabled = true)
    (hvec : ((s.page f).cq n).vec ≠ 0) (hwaits : ((s.page f).cq n).unsignalled ≠ 0)
    (hold : ((s.page f).cq n).oldest + ((s.page f).cq n).time ≤ s.now) : execIrqTimer f n s = .next (s.signal f n) := by
  simp [execIrqTimer, hon, hcq, hvec, hwaits, hold]

/-- MSIX_UNMASK of a vector that the function has, on a device that is up. -/
theorem execMsixUnmask_up {v : Nat} (hup : s.phase = .up) (hf : f < 16) (hv : v < if f = 0 then 34 else 33) :
    execMsixUnmask f v s = .next (s.unmask f v) := by
  have hpage : ¬ 16 ≤ f := by omega
  have hvector : ¬ (if f = 0 then 34 else 33) ≤ v := by omega
  simp only [execMsixUnmask, hup, hpage, hvector, decide_false, Bool.or_false, bne_self_eq_false, Bool.false_eq_true, if_false]

end Vectors

/-- Settles O21: COMPLETION_WRITE by whether the entry may be written, the entry by its place in the outputs, the timers. -/
theorem completionsAreWritten : Obligations.CompletionsAreWritten := by
  refine ⟨?written, ?waits, ?entry, ?aged, ?unmasked⟩
  case written =>
    intro s f n d e m hon h hcan hlate
    have hrun : execCompletionWrite f n s = .next ((s.dueNow f n).complete f n) := if_pos hon
    simp only [← silent_iff]
    exact hrun.trans (by rw [State.dueNow_due h, State.complete_writes h hcan hlate])
  case waits =>
    intro s f n d e m h hcan
    have hsame : (s.dueNow f n).complete f n = s := by rw [State.dueNow_due h, State.complete_waits h hcan]
    exact (ite_congr rfl (fun _ => congrArg Host.Outcome.next hsame) fun _ => rfl).trans (ite_self _)
  case entry =>
    intro s f n d e m k c
    unfold State.putCompletion
    extract_lets i flags sent counted
    have hsent : Out.completion f k c.produced d.tag n flags e.status e.detail e.code (s.sq f n).fetched
        (e.errIndex.getD 0) (s.now % 2 ^ 64) (e.result % 2 ^ 64) ∈ counted.outs := List.mem_cons_self
    split
    · exact hsent
    · split
      · exact State.mem_outs_signal hsent k
      · exact hsent
  case aged =>
    intro s f n hon hcq hvec hwaits hold
    exact execIrqTimer_aged hon hcq hvec hwaits hold
  case unmasked =>
    intro s f v hup hf hv
    refine (execMsixUnmask_up hup hf hv).trans (congrArg Host.Outcome.next ?_)
    simp only [State.unmask, Bool.and_eq_true]

end Sys2Proof.Machine
end

section
/-! SUPPORT. Partitions (R114 to R116, R374, R378): which write PART_ALLOC is, what an allocation, its clear and a release leave, and
the statement on them. -/

namespace Sys2Proof.Machine

/-! ### PART_ALLOC (R114, R116, R600) -/

/-- The offset of PART_ALLOC of partition `n`. -/
def allocOff (n : Nat) : Nat := 0x30000 + 0x1000 * n + 0x1C

theorem allocOff_map : ∀ n < 16, topAccess (allocOff n) = .wo ∧ isHaw (allocOff n) = false ∧
    topWide (allocOff n) = false ∧ (decide (4 ≤ allocOff n) && topWide (allocOff n - 4)) = false := by
  decide

section Alloc
variable {s : State} {n : Nat}

/-- PART_ALLOC is served in every device that is up, READY or not, so that an allocation is always answered. -/
theorem State.allocServed_allocOff (hup : s.phase = .up) (hn : n < 16) : s.allocServed (allocOff n) = true := by
  have hlo : 0x30000 ≤ allocOff n := by unfold allocOff; omega
  have hhi : allocOff n < 0x40000 := by unfold allocOff; omega
  have hword : allocOff n % 0x1000 = 0x1C := by unfold allocOff; omega
  simp [State.allocServed, hup, hlo, hhi, hword]

theorem State.topReason_allocOff (hup : s.phase = .up) (hn : n < 16) (v : Nat) : s.topReason (allocOff n) v true = 0 := by
  obtain ⟨hacc, hhaw, -, -⟩ := allocOff_map n hn
  have hfree : s.topForbids (allocOff n) v = false := by
    interval_cases n <;> rfl
  have hgood : s.topBadNow (allocOff n) v = false := by
    interval_cases n <;> rfl
  simp [State.topReason, hacc, hhaw, hfree, hgood, State.allocServed_allocOff hup hn]

/-- A write of PART_ALLOC allocates, or releases once the device is READY. -/
theorem writePart_alloc (hup : s.phase = .up) (hn : n < 16) (v : Nat) :
    writePart n 0x1C v s = if bit v 0 then s.allocate n else if s.boot.ready then s.release n else s := by
  obtain ⟨-, -, hwide, hhigh⟩ := allocOff_map n hn
  have hpart : (allocOff n - 0x30000) / 0x1000 = n := by unfold allocOff; omega
  have hword : allocOff n % 0x1000 = 0x1C := by unfold allocOff; omega
  have hsetup : ¬ allocOff n < 0x30000 := by unfold allocOff; omega
  have htable : allocOff n < 0x40000 := by unfold allocOff; omega
  calc writePart n 0x1C v s = writeTop (allocOff n) v s := if_pos hn
    _ = topEffect (allocOff n) v s :=
      writeTop_taken (State.deaf_up hup) hwide hhigh (State.topReason_allocOff hup hn v)
    _ = _ := by simp only [topEffect, if_neg hsetup, if_pos htable, partEffect, hpart, if_pos hword]

theorem execPartitionAlloc_up (hup : s.phase = .up) (hn : n < 16) : execPartitionAlloc n s = .next (s.allocate n) :=
  congrArg Host.Outcome.next (writePart_alloc hup hn 1)

theorem execPartitionRelease_ready (hup : s.phase = .up) (hready : s.boot.ready = true) (hn : n < 16) :
    execPartitionRelease n s = .next (s.release n) :=
  congrArg Host.Outcome.next ((writePart_alloc hup hn 0).trans (if_pos hready))

theorem State.modPart_part_same (hn : n < s.parts.length) (g : Partition → Partition) :
    (s.modPart n g).part n = g (s.part n) := by
  simp [State.part, State.modPart, modAt, List.getD_eq_getElem?_getD, hn]

/-! ### Allocation (R114) -/

/-- A refused allocation tells its reason and does nothing else. -/
theorem State.allocate_refused (h : s.allocReason n ≠ 0) :
    s.allocate n = s.modPart n fun p => { p with reason := s.allocReason n } := if_pos h

/-- An accepted allocation latches the partition's settings and opens its window. -/
theorem State.allocate_accepted (h : s.allocReason n = 0) : ∃ keyless,
    s.allocate n = (s.openWindow n (s.partW n 8) (s.partW n 0xC) n (bit (s.regN 0x700018) n)).modPart n fun p =>
      { p with clearing := true, reason := 0, bricks := s.partW n 0, base := s.partW n 8, size := s.partW n 0xC
               cache := s.partW n 0x10, bwr := s.partW n 0x14, quota := s.partW n 0x18, keyless := keyless } :=
  ⟨_, if_neg (not_not_intro h)⟩

theorem State.openWindow_window (hn : n < s.windows.length) (base size owner : Nat) (enc : Bool) :
    ∃ w, (s.openWindow n base size owner enc).windows[n]? = some w ∧ w.valid = true ∧ w.base = base ∧
      w.limit = base + size ∧ w.owner = owner := by
  simp [State.openWindow, modAt, hn]

/-! ### The clear (R115, R374) -/

/-- The clear wipes the partition's range; its other steps leave memory, registers and pages. -/
theorem State.allocDone_keeps (s : State) (n : Nat) :
    (s.allocDone n).mem = s.mem.wipe devGranule ((s.part n).base * Config.gib) ((s.part n).size * Config.gib) ∧
      (s.allocDone n).regs = s.regs ∧ (s.allocDone n).pages = s.pages := by
  unfold State.allocDone
  extract_lets p wiped blanked
  have h : (blanked.mem, blanked.regs, blanked.pages) = (wiped.mem, wiped.regs, wiped.pages) :=
    forAll_keeps (fun s => (s.mem, s.regs, s.pages)) (fun _ _ => by rfl) _ wiped
  simp only [Prod.mk.injEq] at h
  exact h

/-- After the clear the partition is allocated. -/
theorem State.allocDone_part (hn : n < s.parts.length) :
    ((s.allocDone n).part n).allocated = true ∧ ((s.allocDone n).part n).clearing = false := by
  unfold State.allocDone
  extract_lets p wiped blanked regs full
  have hparts : full.parts = s.parts := forAll_keeps State.parts (fun _ _ => by rfl) _ wiped
  rw [State.modPart_part_same (hparts ▸ hn)]
  exact ⟨rfl, rfl⟩

/-! ### Release (R116) -/

/-- A release is refused while a ring of the function is enabled. -/
theorem State.release_refused (h : (s.page n).anyRing = true) : s.release n = s.modPart n fun p => { p with reason := 1 } :=
  if_pos h

/-- What a release of pins and streams does not touch. -/
def State.sansSetup (s : State) : State :=
  { s with regs := [], mortar := MortarS.reset, ing := IngS.reset, chains := [], slots := [] }

/-- A partition that holds resources and has no ring enabled is released: its window is closed, its settings are as at reset;
pins, streams, chains and slots aside, nothing else changes. -/
theorem State.release_held (hring : (s.page n).anyRing = false) (hheld : s.held n = true) : ∃ t : State,
    t.sansSetup = s.sansSetup ∧ s.release n = (t.closeWindow n).modPart n fun p =>
      { Partition.reset with resetting := p.resetting, flr := p.flr, pinReason := p.pinReason, pinEntry := p.pinEntry } := by
  unfold State.release
  rw [if_neg (by simp [hring]), if_neg (by simp [hheld])]
  extract_lets unpinned unstreamed mortar emptied
  have hunpinned : unpinned.sansSetup = s.sansSetup := forAll_keeps State.sansSetup (fun _ _ => by rfl) _ s
  have hunstreamed : unstreamed.sansSetup = unpinned.sansSetup := forAll_keeps State.sansSetup (fun _ _ => by rfl) _ unpinned
  exact ⟨emptied, hunstreamed.trans hunpinned, rfl⟩

end Alloc

/-- Settles O24: PART_ALLOC by the lemma on each answer, the clear by what it does to memory. -/
theorem partitionsAreAllocatedAndReleased : Obligations.PartitionsAreAllocatedAndReleased := by
  refine ⟨?accepted, ?refused, ?cleared, ?ringEnabled, ?released⟩
  case accepted =>
    intro s n hup _ hn hok
    obtain ⟨keyless, halloc⟩ := State.allocate_accepted hok
    refine ⟨_, execPartitionAlloc_up hup hn, ?_⟩
    rw [halloc]
    refine ⟨fun hparts => ?settings, fun hwindows => State.openWindow_window hwindows .., rfl⟩
    case settings =>
      rw [State.modPart_part_same (s := s.openWindow ..) hparts]
      exact ⟨rfl, rfl, rfl, rfl, rfl, rfl, rfl, rfl⟩
  case refused =>
    intro s n hup hn hbad
    exact (execPartitionAlloc_up hup hn).trans (congrArg _ (State.allocate_refused hbad))
  case cleared =>
    intro s n hup hclearing
    obtain ⟨hmem, hregs, hpages⟩ := s.allocDone_keeps n
    refine ⟨_, if_pos ⟨hup, hclearing⟩, State.allocDone_part, fun a hlo hhi => ⟨fun hwf => ?zero, ?unwritten⟩,
      fun a ha => ?outside, hregs, hpages⟩
    case zero =>
      rw [hmem, Mem.wipe_rd hwf, if_pos]
      simp only [Config.gib]
      omega
    case unwritten =>
      rw [hmem]
      have hgib (k : Nat) : devGranule ∣ k * Config.gib := Dvd.dvd.mul_left (by decide) k
      exact Mem.wipe_unwritten _ (hgib _) (hgib _) hlo (by rwa [← Nat.add_mul])
    case outside =>
      rw [hmem, Mem.rd_wipe_outside]
      rwa [← Nat.add_mul]
  case ringEnabled =>
    intro s n hup hready hn hring
    exact (execPartitionRelease_ready hup hready hn).trans (congrArg _ (State.release_refused hring))
  case released =>
    intro s n hup hready hn hring hheld
    obtain ⟨t, hkeep, hrelease⟩ := State.release_held hring hheld
    have keeps {α : Type} (p : State → α) : p t.sansSetup = p s.sansSetup := congrArg p hkeep
    refine ⟨_, execPartitionRelease_ready hup hready hn, ?_⟩
    rw [hrelease]
    refine ⟨fun hparts => ?settings, fun hwindows => ?window, keeps State.mem, keeps State.bricks, keeps State.fuses⟩
    case settings =>
      have hlen : n < (t.closeWindow n).parts.length := by
        rw [show (t.closeWindow n).parts = s.parts from keeps State.parts]
        exact hparts
      rw [State.modPart_part_same hlen]
      exact ⟨rfl, rfl, rfl, rfl⟩
    case window =>
      have hlen : n < t.windows.length := by
        rw [show t.windows = s.windows from keeps State.windows]
        exact hwindows
      simp [State.closeWindow, modAt, hlen]

end Sys2Proof.Machine
end

section
/-! SUPPORT. The sweep of a page on which a completion ring stands twice (R118, R121), and the statement that this refutes. -/

namespace Sys2Proof.Machine

/-- A device that is up, with one function page: its error ring is enabled, and its completion ring 0 stands twice in the sparse
map, the second time with consumer index 1. -/
def State.cqTwice : State :=
  { State.reset with
    phase := .up, boot := { BootS.reset with ready := true }, time := { TimeS.reset with now := 500 }
    pages := [{ Page.reset with errEnabled := true, cqs := [(0, Cq.reset), (0, { Cq.reset with consumer := 1 })] }] }

/-- A sweep is due. -/
theorem State.cqTwice_due : State.cqTwice.ringsOn 0 = true ∧ (State.cqTwice.page 0).anyRing = true ∧
    (State.cqTwice.page 0).sweepAt + (State.cqTwice.page 0).sweepInterval ≤ State.cqTwice.now := by
  decide

/-- The sweep of a block of zeros sets the consumer index 0 by dropping the first entry, now equal to the reset value, and so
uncovers the second. -/
theorem doorbellSweep_cqTwice : (((doorbellSweep 0 [] State.cqTwice).page 0).cq 0).consumer = 1 := by
  decide +kernel

/-- Refutes O20: where a sparse map lists a completion ring twice, the index that the sweep sets to 0 reads as the second entry's. -/
theorem not_sweepsAndFetches : ¬ Obligations.SweepsAndFetches := by
  rintro ⟨hsweep, -, -⟩
  obtain ⟨hon, hring, hdue⟩ := State.cqTwice_due
  obtain ⟨t, hrun, hindex, -⟩ := hsweep State.cqTwice 0 [] hon hring (by decide) (by decide) hdue
  have ht : doorbellSweep 0 [] State.cqTwice = t := Host.Outcome.next.inj hrun
  have hzero : ((t.page 0).cq 0).consumer = dbConsumer [] 0 := (hindex 0 (by decide)).2
  rw [← ht, doorbellSweep_cqTwice] at hzero
  exact absurd hzero (by decide)

end Sys2Proof.Machine
end

section
/-! SUPPORT. The control commands, the streams that wait and the start of a list (R163 to R168, R187 to R193, R200, R261, R490),
one lemma per case of the operation, and the statements on them. -/

namespace Sys2Proof.Machine

/-! ### The start of a list (R163, R166, R168) -/

section Start
variable {s : State} {f n : Nat} {d : Desc} {m : Bool}

theorem exec_listStart (f n : Nat) (s : State) : exec (.listStart f n) s = .next (listStart f n s) := rfl

/-- A list whose contexts are free and whose plan stands starts where there is room. -/
theorem listStart_starts {p : Plan} (hcur : (s.sq f n).cur = some { desc := d, out := none, missed := m })
    (htype : d.type = 1) (hon : s.ringsOn f = true) (hlist : s.list? (ownerOf f n) = none)
    (hfree : s.ctxFree d.bricks (d.f 0x1E 1) = true) (hplan : s.plan f d = .ok p) (hroom : s.roomFor d.bricks p.res = true) :
    listStart f n s = s.wakeUp.startList f n d p := by
  simp [listStart, hcur, htype, hon, hlist, hfree, hplan, hroom]

/-- A list whose contexts are free and whose plan fails ends with the plan's code. -/
theorem listStart_faults {code : Nat} (hcur : (s.sq f n).cur = some { desc := d, out := none, missed := m })
    (htype : d.type = 1) (hon : s.ringsOn f = true) (hlist : s.list? (ownerOf f n) = none)
    (hfree : s.ctxFree d.bricks (d.f 0x1E 1) = true) (hplan : s.plan f d = .error code) :
    listStart f n s = s.startFault f n d code := by
  simp [listStart, hcur, htype, hon, hlist, hfree, hplan]

/-- Without room on its bricks a list waits, whatever else holds. -/
theorem listStart_waits {p : Plan} (hcur : (s.sq f n).cur = some { desc := d, out := none, missed := m })
    (hplan : s.plan f d = .ok p) (hroom : s.roomFor d.bricks p.res = false) : listStart f n s = s := by
  simp [listStart, hcur, hplan, hroom]

end Start

/-- Settles O17: the branches of `listStart`. -/
theorem listsStart : Obligations.ListsStart := by
  refine ⟨?_, ?_, ?_⟩
  · intro s f n d p m hcur htype hon hlist hfree hplan hroom
    rw [exec_listStart, listStart_starts hcur htype hon hlist hfree hplan hroom]
  · intro s f n d code m hcur htype hon hlist hfree hplan
    rw [exec_listStart, listStart_faults hcur htype hon hlist hfree hplan]
  · intro s f n d p m hcur _ hplan hroom
    rw [exec_listStart, listStart_waits hcur hplan hroom]

/-! ### Streams that wait (R200, R261, R490, R495) -/

section Streams
variable {s : State} {l : Loc} {e : Env} {c : Cmd} {regs : List Nat}

/-- A held command goes on as its continuation says. -/
theorem State.resume_held {h : HeldOp} (henv : s.env l = some e) (hbusy : (e.c.stream l.stream).busy = .exec c regs h)
    (k : State → Env → Cmd → HeldOp → Option Ran) :
    s.resume l k = ((k s e c h).map fun r => r.settle e c regs c.last).getD s := by
  simp only [State.resume, henv, hbusy]
  cases k s e c h <;> rfl

/-- Blocks that wait for a full stream input go on waiting (R261). -/
theorem handOff_full {q : Nat} {bs : List BlockOut} {f : Option (Nat × Nat)} (henv : s.env l = some e)
    (hbusy : (e.c.stream l.stream).busy = .exec c regs (.e8 q bs f)) (hfull : e.c.cxRoom q = false) : handOff l s = s := by
  unfold handOff
  split
  · rfl
  · rw [State.resume_held henv hbusy]
    simp [hfull]

/-- The last block of a command goes to its stream, and the command completes (R260, R261). -/
theorem blocks_last {i : Instr} {b : BlockOut} {q last : Nat} {k : CxBlock} {x : Ctx} (hcx : b.cx = some k)
    (hctx : (s.blockDone e c i b).ctx e.key = some x) (hroom : x.cxRoom q = true)
    (hrem : (s.blockDone e c i b).remoteAt c.loc = none) :
    s.blocks e c i q none [b] last = .done ((s.blockDone e c i b).modCtx e.key (Ctx.pushCx q k)) := by
  have hrem' : ((s.blockDone e c i b).modCtx e.key (Ctx.pushCx q k)).remoteAt c.loc = none := by
    simpa [State.remoteAt] using hrem
  simp [State.blocks, hcx, hctx, hroom, hrem']

/-- A block held back goes to its stream once there is room. -/
theorem handOff_room {q : Nat} {b : BlockOut} {k : CxBlock} {x : Ctx} (hawake : s.awake = true) (henv : s.env l = some e)
    (hbusy : (e.c.stream l.stream).busy = .exec c regs (.e8 q [b] none)) (hin : e.c.cxRoom q = true) (hcx : b.cx = some k)
    (hctx : (s.blockDone e c (.epilogueStreamHandoff l) b).ctx e.key = some x) (hroom : x.cxRoom q = true)
    (hrem : (s.blockDone e c (.epilogueStreamHandoff l) b).remoteAt c.loc = none) :
    handOff l s = ((s.blockDone e c (.epilogueStreamHandoff l) b).modCtx e.key (Ctx.pushCx q k)).finish e c 6 regs c.last := by
  simp only [handOff, hawake, State.resume_held henv hbusy, hin, blocks_last hcx hctx hroom hrem]
  rfl

theorem execEpilogueStreamHandoff_asleep (h : s.awake = false) : execEpilogueStreamHandoff l s = .next s := by
  simp [execEpilogueStreamHandoff, h]

theorem execEpilogueStreamHandoff_cx (h : s.awake = true) (hcx : engineOf l.stream = 4) :
    execEpilogueStreamHandoff l s = .next (s.collGo l) := by
  simp [execEpilogueStreamHandoff, h, hcx]

theorem execEpilogueStreamHandoff_other (h : s.awake = true) (hcx : engineOf l.stream ≠ 4) :
    execEpilogueStreamHandoff l s = .next (handOff l s) := by
  simp [execEpilogueStreamHandoff, h, hcx]

theorem execCollTimeout_due {k : Coll} (hk : s.collAt l = some k) (h : s.awake = true)
    (hdue : k.progress + s.collLimit ≤ s.now) : execCollTimeout l s = .next (s.collFault k 0x3024) := by
  simp [execCollTimeout, hk, h, hdue]

theorem execCollTimeout_early {k : Coll} (hk : s.collAt l = some k) (h : s.now < k.progress + s.collLimit) :
    execCollTimeout l s = .next s := by
  simp [execCollTimeout, hk, h]

/-- A list none of whose streams can go on, and that has a stream left, is stuck (R200). -/
theorem execContextDeadlock_stuck {f n : Nat} {r : RunningList} (hlist : s.list? (ownerOf f n) = some r) (h : s.awake = true)
    (hstuck : ∀ k ∈ r.keys, ∀ x, s.ctx k = some x → ∀ t ∈ x.streams, t.stuck s.now r.lastActive = true)
    (hleft : ∃ k ∈ r.keys, ∃ x, s.ctx k = some x ∧ ∃ t ∈ x.streams, t.ended = false) :
    execContextDeadlock f n s =
      .next (s.faultList r.owner (ErrRec.mk0 s.now 0x1022 2 (r.bricks.headD 0) noUnit r.part)) := by
  have hall : (r.keys.filterMap s.ctx).all (fun x => x.streams.all (StreamS.stuck s.now r.lastActive)) = true := by
    simp only [List.all_eq_true, List.mem_filterMap]
    rintro x ⟨k, hk, hx⟩
    exact hstuck k hk x hx
  have hany : (r.keys.filterMap s.ctx).any (fun x => x.streams.any fun t => ! t.ended) = true := by
    obtain ⟨k, hk, x, hx, t, ht, hend⟩ := hleft
    simp only [List.any_eq_true, List.mem_filterMap]
    exact ⟨x, ⟨k, hk, hx⟩, t, ht, by simp [hend]⟩
  simp only [execContextDeadlock, hlist, h, hall, hany]
  rfl

end Streams

/-- Settles O16: the branches of the hand-off, of the collective's limit and of the deadlock test. -/
theorem streamsAndStuckLists : Obligations.StreamsAndStuckLists := by
  refine ⟨?_, ?_, ?_, ?_, ?_, ?_⟩
  · intro s l hawake hcx
    exact execEpilogueStreamHandoff_cx hawake hcx
  · intro s l e c regs q b k x hawake hcx henv hbusy hin hk _ s1 hctx hroom hrem
    exact (execEpilogueStreamHandoff_other hawake hcx).trans
      (congrArg _ (handOff_room hawake henv hbusy hin hk hctx hroom hrem))
  · intro s l e c regs q bs f henv hbusy hcx hfull
    cases hawake : s.awake
    · exact execEpilogueStreamHandoff_asleep hawake
    · exact (execEpilogueStreamHandoff_other hawake hcx).trans (congrArg _ (handOff_full henv hbusy hfull))
  · intro s l c hc hawake hdue
    exact execCollTimeout_due hc hawake hdue
  · intro s l c hc hearly
    exact execCollTimeout_early hc hearly
  · intro s f n l hlist hawake hstuck hleft
    exact execContextDeadlock_stuck hlist hawake hstuck hleft

/-! ### LOOP_BEGIN, LOOP_END, PRED_SET and FENCE (R184 to R193) -/

section Control
variable {s : State} {c : Cmd} {e : Env}

/-- LOOP_END that reaches C2, passes it and finds its waits met completes and steps its loop (R190). -/
theorem loopEnd_steps {lc : Nat} (h : Reaches s c e)
    (hc2 : cmdC2 c e (fitsCmd c && fitsW 3 lc) true [(0x101D, c.sel != 0), (0x101B, e.c.unmatched e.stream lc)] = none)
    (hw0 : e.c.waitOk e.stream c.wait0 = true) (hw1 : e.c.waitOk e.stream c.wait1 = true) :
    loopEnd c lc s = ((s.issued e c).finish (e.after c) c 6 [] (c.last && (e.after c).c.loopOver lc)).modCtx e.key
      (Ctx.loopStep e.stream lc) := by
  obtain ⟨henv, hawake, hready, hskip⟩ := h
  simp only [loopEnd, henv, hawake, hready, hskip, hc2, hw0, hw1]
  rfl

end Control

/-- Settles O8: a running control command is its operation, settled. -/
theorem controlCommandsComplete : Obligations.ControlCommandsComplete := by
  refine ⟨?_, ?_, ?_, ?_, ?_⟩
  · intro s c e lc src h
    refine congrArg Host.Outcome.next ((command_runs h rfl rfl).trans ?_)
    split <;> rfl
  · intro s c e lc h hc2 hw0 hw1
    exact congrArg Host.Outcome.next (loopEnd_steps h hc2 hw0 hw1)
  · intro s c e p src h
    exact congrArg Host.Outcome.next (command_runs h rfl rfl)
  · intro s c e h hrun
    refine congrArg Host.Outcome.next ((command_runs h rfl rfl).trans ?_)
    rw [if_pos hrun]
    rfl
  · intro s c e h hrun
    refine congrArg Host.Outcome.next ((command_runs h rfl rfl).trans ?_)
    rw [if_neg hrun]
    rfl

/-! ### The gates C1 to C5a (R178 to R184, R198, R201) -/

section Gates
variable {s : State} {c : Cmd} {e : Env} {fits : Bool} {engf : Nat → Bool} {ownf : Env → List (Nat × Bool)} {regs : List Nat}
  {pass : Ctx → Ctx} {body : State → Env → Ran}

/-- Nothing happens where no list runs the command, or the device sleeps. -/
theorem command_idle (h : s.env c.loc = none ∨ s.awake = false) : s.command c fits engf ownf regs pass body = s := by
  unfold State.command
  split
  · rfl
  next e he =>
    have hawake : s.awake = false := h.resolve_left (by simp [he])
    simp [hawake]

/-- The first failing C2 test faults the command. -/
theorem command_faults {code : Nat} (h : Reaches s c e)
    (hc2 : cmdC2 c e fits (engf (engineOf c.loc.stream)) (ownf e) = some code) :
    s.command c fits engf ownf regs pass body = s.faultCmd e c code 2 regs 0 0xFFFFFFFF := by
  obtain ⟨henv, hawake, hready, hskip⟩ := h
  simp [State.command, henv, hawake, hready, hskip, hc2]

/-- An unmet wait holds the stream at C3. -/
theorem command_holds (h : Reaches s c e) (hc2 : cmdC2 c e fits (engf (engineOf c.loc.stream)) (ownf e) = none)
    (hw : (e.c.waitOk e.stream c.wait0 && e.c.waitOk e.stream c.wait1) = false) :
    s.command c fits engf ownf regs pass body = s.modCtx e.key fun y => y.modStream e.stream fun t => t.hold s.now := by
  obtain ⟨henv, hawake, hready, hskip⟩ := h
  simp only [State.command, henv, hawake, hready, hskip, hc2, hw]
  rfl

/-- A predicate that is false passes the command through C7 without its operation. -/
theorem command_passes (h : Reaches s c e) (hc2 : cmdC2 c e fits (engf (engineOf c.loc.stream)) (ownf e) = none)
    (hw : (e.c.waitOk e.stream c.wait0 && e.c.waitOk e.stream c.wait1) = true) (hsel : (e.after c).c.runs c.sel = false) :
    s.command c fits engf ownf regs pass body =
      ((s.issued e c).modCtx e.key pass).finish (e.after c) c 5 regs c.last := by
  obtain ⟨henv, hawake, hready, hskip⟩ := h
  simp only [Env.after] at hsel
  simp only [State.command, henv, hawake, hready, hskip, hc2, hw, hsel]
  rfl

end Gates

/-- C5b and C6 of an engine command of `engineCmd`. -/
def engineBody : Instr → State → Env → Ran
  | .copy c o => copyBody c o
  | .predSet _ p src => fun s e => .done (s.modCtx e.key (Ctx.setPred p (e.c.predValue src)))
  | .fence _ => fun s e => if e.c.running = [] then .done s else .held s (.fence e.c.running)
  | .matmul c o => matBody (.matmul c o) c 0 o
  | .matmulAcc c o => matBody (.matmulAcc c o) c 1 o
  | .matmulGated c o => matBody (.matmulGated c o) c 2 o
  | .act c o => actBody c o
  | .normRow c o => normBody c o
  | .softmaxRow c o => softBody c o
  | .attnBlock c o => attnBody c o
  | .gatherPages c o => gatherBody c o
  | .scatterWrite c o => if formReserved o then scatterReserved o else writeBody c o
  | .scatterFork _ o => fun s e => if formReserved o then scatterReserved o s e
      else slotsBody true o s e fun s h => forkFrom o s e h o.firstSlot
  | .scatterFree _ o => fun s e => if formReserved o then scatterReserved o s e else slotsBody false o s e (freeRun o e)
  | .conv2d c o => convBody c o
  | .pool2d c o => poolBody c o
  | .resample c o => resampBody c o
  | .rngFill c o => rngBody c o
  | .amax c o => reduceBody (.amax c o) c o amaxOf fmax
  | .sumsq c o => reduceBody (.sumsq c o) c o sumsqOf fadd
  | .push c o => pushBody c o
  | .clip c o => clipBody c o
  | .product c o => productBody c o
  | .nonfiniteVote c o => voteBody c o
  | _ => fun s _ => .done s

/-- Every command of `engineCmd` is its passage of C1 to C7 around its body. -/
theorem exec_engineCmd {i : Instr} {x : Cmd × Bool × Nat × List Nat} (h : engineCmd i = some x) (s : State) :
    exec i s = .next (s.command x.1 x.2.1 (fun n => x.2.2.1 == 5 || n == x.2.2.1) (fun _ => []) x.2.2.2 id (engineBody i)) := by
  cases i <;> simp only [engineCmd, Option.some.injEq, reduceCtorEq] at h <;> subst h <;> rfl

/-- Settles O7: the gates of `State.command`, for every command that is one. -/
theorem engineCommandsPassTheirGates : Obligations.EngineCommandsPassTheirGates := by
  intro i x hi c regs
  refine ⟨?_, ?_, ?_, ?_⟩
  · intro s h
    rw [exec_engineCmd hi, command_idle h]
  · intro s e code h hc2
    exact (exec_engineCmd hi s).trans (congrArg _ (command_faults h hc2))
  · intro s e h hc2 hw
    exact (exec_engineCmd hi s).trans (congrArg _ (command_holds h hc2 hw))
  · intro s e h hc2 hw hsel
    exact (exec_engineCmd hi s).trans (congrArg _ (command_passes h hc2 hw hsel))

end Sys2Proof.Machine
end

section
/-! SUPPORT. The engine commands on operands of this chip (R194 to R197, R280 to R292, R334 to R358, R502 to R511): their bodies
with the checks passed, and the statements on what they complete with. -/

namespace Sys2Proof.Machine

@[simp] theorem Ran.checked_none (s : State) (k : Unit → Ran) : Ran.checked s none k = k () := rfl

section Ends
variable {s : State} {c : Cmd} {e : Env} {i : Instr} {reads : List (Nat × Nat × Nat)}

/-- The reads of a running command go through at once. -/
theorem reads_here (h : ReadsHere (siteOf s c e) reads) (k : State → Site → Ran) :
    withReads (s.issued e c) (e.after c) c i reads k = k (s.fetched c e reads) (siteAt s c e reads) :=
  withReads_here h

end Ends

/-! ### COPY, POOL_2D and RESAMPLE (R194 to R197, R334 to R340) -/

section Copy
variable {s : State} {c : Cmd} {o : CopyF} {e : Env} {a : Opnd}

theorem copyBody_tile {d : Opnd} (hkind : o.dstKind = 0) (ha : (e.site s).opnd o.src = some a)
    (hd : (e.site s).opnd o.dst = some d)
    (hok : (e.site s).check (copyNeeds o) [] (copyPair (some a) (some d)) [o.cvt] (copyOwn (e.site s) o a (some d)) = none) :
    copyBody c o s e = copyTile c o s e a d := by
  simp [copyBody, hkind, ha, hd, hok]

theorem copyBody_regs (hkind : o.dstKind = 1) (ha : (e.site s).opnd o.src = some a)
    (hok : (e.site s).check (copyNeeds o) [] false [] (copyOwn (e.site s) o a none) = none) :
    copyBody c o s e = copyRegs c o s e a := by
  have hpair : copyPair (some a) none = false := rfl
  simp [copyBody, hkind, ha, hpair, hok]

end Copy

theorem poolBody_run {s : State} {c : Cmd} {o : PoolF} {e : Env} {a y : Opnd} (ha : (e.site s).opnd o.x = some a)
    (hy : (e.site s).opnd o.y = some y)
    (hok : (e.site s).check (poolNeeds o) [(0x1019, (poolWin o).tooBig)] false [o.cvt] (poolOwn o a y) = none) :
    poolBody c o s e = poolRun c o s e a y := by
  simp [poolBody, ha, hy, hok]

theorem resampBody_run {s : State} {c : Cmd} {o : ResampF} {e : Env} {a y : Opnd} (ha : (e.site s).opnd o.x = some a)
    (hy : (e.site s).opnd o.y = some y)
    (hok : (e.site s).check (resampNeeds o) [] false [o.cvt] (resampOwn o a y) = none) :
    resampBody c o s e = resampRun c o s e a y := by
  simp [resampBody, ha, hy, hok]

/-- Settles O9: each command's body, with its reads and stores on this chip. -/
theorem copyAndWindowCommandsComplete : Obligations.CopyAndWindowCommandsComplete := by
  refine ⟨?_, ?_, ?_, ?_⟩
  · intro s c e o a d h hkind ha hd hok moves reads out hr hs
    refine congrArg Host.Outcome.next ((command_runs h rfl rfl).trans ?_)
    rw [copyBody_tile hkind ha hd hok, if_pos hkind, copyTile, reads_here hr]
    exact stores_done (r := out.2) _ hs
  · intro s c e o a h hkind ha hok rows reads hr
    refine congrArg Host.Outcome.next ((command_runs h rfl rfl).trans ?_)
    rw [copyBody_regs hkind ha hok, if_neg (by omega), copyRegs, reads_here hr]
    rfl
  · intro s c e o a y h ha hy hok w keys reads imgs rows out hr hs
    refine congrArg Host.Outcome.next ((command_runs h rfl rfl).trans ?_)
    rw [poolBody_run ha hy hok, poolRun, reads_here hr]
    exact stores_done (r := out.2) _ hs
  · intro s c e o a y h ha hy hok keys taps reads imgs rows out hr hs
    refine congrArg Host.Outcome.next ((command_runs h rfl rfl).trans ?_)
    rw [resampBody_run ha hy hok, resampRun, reads_here hr]
    exact stores_done (r := out.2) _ hs

end Sys2Proof.Machine
end

section
/-! SUPPORT. The vector row commands, the scale commands, RNG_FILL and NONFINITE_VOTE (R280 to R292, R348 to R358, R502 to
R511): their bodies with the checks passed, and the statements on what they complete with. -/

namespace Sys2Proof.Machine

/-! ### ACT, NORM_ROW and SOFTMAX_ROW (R280 to R292) -/

section Rows
variable {s : State} {c : Cmd} {e : Env} {a y : Opnd}

theorem actBody_run {o : ActF} (ha : (e.site s).opnd o.x = some a) (hy : (e.site s).opnd o.y = some y)
    (hok : (e.site s).check [Need.tile o.x o.batch, Need.tile o.y o.batch] [(0x1013, e.c.scaleBad o.scale)] false [o.cvt]
      (actOwn (e.site s) o a y) = none) : actBody c o s e = actRun c o s e a y := by
  simp [actBody, ha, hy, hok]

theorem normBody_run {o : NormF} (ha : (e.site s).opnd o.x = some a) (hy : (e.site s).opnd o.y = some y)
    (hok : (e.site s).check (normNeeds o) [] false [o.cvt] (normOwn (e.site s) o a y (o.gamma.bind (e.site s).opnd)
      (o.beta.bind (e.site s).opnd) (o.statT.bind (e.site s).opnd)) = none) :
    normBody c o s e = normRun c o s e a y (o.gamma.bind (e.site s).opnd) (o.beta.bind (e.site s).opnd)
      (o.statT.bind (e.site s).opnd) := by
  simp [normBody, ha, hy, hok]

theorem softBody_run {o : SoftF} {k : Option Mask} (ha : (e.site s).opnd o.x = some a) (hy : (e.site s).opnd o.y = some y)
    (hk : ((e.site s).opt (o.maskMode == 1) (some o.maskT)).map (fun t =>
      ({ o := t, rows := a.desc.rows, keys := a.desc.cols } : Mask)) = k)
    (hok : (e.site s).check (softNeeds o) ((0x1013, e.c.scaleBad o.c) :: (e.site s).maskShape k 1) false [o.cvt]
      (softOwn (e.site s) o a y k (o.statT.bind (e.site s).opnd)) = none) :
    softBody c o s e = softRun c o s e a y k (o.statT.bind (e.site s).opnd) := by
  subst hk
  simp [softBody, ha, hy, hok]

end Rows

/-- A command whose reads lie on this chip goes on from them at once. -/
theorem reads_settle {s : State} {c : Cmd} {e : Env} {i : Instr} {reads : List (Nat × Nat × Nat)} {k : State → Site → Ran}
    (regs : List Nat) (h : ReadsHere (siteOf s c e) reads) :
    (withReads (s.issued e c) (e.after c) c i reads k).settle (e.after c) c regs c.last =
      (k (s.fetched c e reads) (siteAt s c e reads)).settle (e.after c) c regs c.last := by
  rw [reads_here h]

/-- Settles O10: each command's body, with its reads and stores on this chip. -/
theorem vectorRowCommandsComplete : Obligations.VectorRowCommandsComplete := by
  refine ⟨?_, ?_, ?_⟩
  · intro s c e o a y h ha hy hok sc reads rows out hr hs
    refine congrArg Host.Outcome.next ((command_runs h rfl rfl).trans ?_)
    rw [actBody_run ha hy hok, actRun]
    refine (reads_settle _ hr).trans ?_
    exact stores_done (r := out.2) _ hs
  · intro s c e o a y h ha hy g b st hok reads rows vals out ss hr hs
    refine congrArg Host.Outcome.next ((command_runs h rfl rfl).trans ?_)
    rw [normBody_run ha hy hok, normRun]
    refine (reads_settle _ hr).trans ?_
    exact stores_done (r := out.2) _ hs
  · intro s c e o a y h ha hy x st k hok
    refine fun hr hs => congrArg Host.Outcome.next ((command_runs h rfl rfl).trans ?_)
    rw [softBody_run ha hy rfl hok]
    unfold softRun
    refine (reads_settle _ hr).trans ?_
    exact stores_settle _ hs (by simp [State.fetched, State.addVoids]) (by simp [State.fetched, State.addVoids])

/-! ### The scale commands, RNG_FILL and NONFINITE_VOTE (R348 to R358, R502 to R511) -/

theorem modeReserved_eq_false {o : ScaleF} (h : o.mode ≤ 4) : modeReserved o = false := by
  simpa [modeReserved] using h

/-- A command that reads and stores on this chip, and draws nothing. -/
theorem stores_plain {s : State} {c : Cmd} {e : Env} {i : Instr} {reads : List (Nat × Nat × Nat)} {ss : List Store}
    (regs : List Nat) (hs : StoresHere s c e ss) :
    (withStores (s.fetched c e reads) (e.after c) c i ss).settle (e.after c) c regs c.last =
      ((s.fetched c e reads).commit e.c.part ss).finish (e.after c) c 6 regs c.last :=
  stores_settle regs hs (by simp [State.fetched]) (by simp [State.fetched])

section Scale
variable {s : State} {c : Cmd} {e : Env} {o : ScaleF}

/-- What AMAX and SUMSQ read. -/
def reduceReads (o : ScaleF) (a r : Opnd) : List (Nat × Nat × Nat) :=
  a.allReads o.batch ++ (if o.acc = 1 then r.allReads 1 else [])

/-- The store of AMAX and SUMSQ: the sequence reduced, combined with R under ACC (R503). -/
def reduceStores (o : ScaleF) (f : List Nat → Nat) (op : Nat → Nat → Nat) (brick : Nat) (a r : Opnd) (x : Site) : List Store :=
  [r.storeRow brick 0 0 0 [if o.acc = 1 then op (x.word r 0) (f (x.elements a o.batch)) else f (x.elements a o.batch)]]

theorem reduceBody_run {i : Instr} {f : List Nat → Nat} {op : Nat → Nat → Nat} {a r : Opnd} (hm : o.mode ≤ 4)
    (ha : (e.site s).opnd o.x = some a) (hr : (e.site s).opnd o.r = some r)
    (hok : (e.site s).check [Need.tile o.x o.batch, Need.tile o.r 1] [] false []
      ((e.site s).farOwn [a, r] ++ [(0x1160, scalarBad (some r) 1 || o.batch == 0)]) = none) :
    reduceBody i c o f op s e = withReads s e c i (reduceReads o a r) fun s x =>
      withStores s e c i (reduceStores o f op e.brick a r x) := by
  simp [reduceBody, modeReserved_eq_false hm, ha, hr, hok, reduceReads, reduceStores]

/-- A reduction with its read and its store on this chip completes with the store. -/
theorem reduceBody_done {i : Instr} {f : List Nat → Nat} {op : Nat → Nat → Nat} {a r : Opnd} (regs : List Nat)
    (hm : o.mode ≤ 4) (ha : (siteOf s c e).opnd o.x = some a) (hr : (siteOf s c e).opnd o.r = some r)
    (hok : (siteOf s c e).check [Need.tile o.x o.batch, Need.tile o.r 1] [] false []
      ((siteOf s c e).farOwn [a, r] ++ [(0x1160, scalarBad (some r) 1 || o.batch == 0)]) = none)
    (hreads : ReadsHere (siteOf s c e) (reduceReads o a r))
    (hs : StoresHere s c e (reduceStores o f op e.brick a r (siteAt s c e (reduceReads o a r)))) :
    (reduceBody i c o f op (s.issued e c) (e.after c)).settle (e.after c) c regs c.last =
      ((s.fetched c e (reduceReads o a r)).commit e.c.part
        (reduceStores o f op e.brick a r (siteAt s c e (reduceReads o a r)))).finish (e.after c) c 6 regs c.last := by
  rw [reduceBody_run hm ha hr hok]
  exact (reads_settle _ hreads).trans (stores_plain _ hs)

theorem pushBody_run {a t : Opnd} (hm : o.mode ≤ 4) (ha : (e.site s).opnd o.src = some a)
    (ht : (e.site s).opnd o.recT = some t)
    (hok : (e.site s).check (pushNeeds o) [] false [] ((e.site s).farOwn ([a, t] ++ (o.out.bind (e.site s).opnd).toList) ++
      [(0x1160, scalarBad (some a) 1 || scalarBad (o.out.bind (e.site s).opnd) 2 || recBad t)]) = none) :
    pushBody c o s e = withReads s e c (.push c o) (t.allReads 1 ++ a.allReads 1) fun s' x =>
      if ! (parseScale ((x.memFor t).read t.base t.desc.rowBytes)).ok ((x.memFor t).read t.base t.desc.rowBytes) t.desc.cols
      then .fault s' 0x1161 5 0 0xFFFFFFFF
      else
        let p := (parseScale ((x.memFor t).read t.base t.desc.rowBytes)).push ((x.row t 0 0).drop 16)
          (fabs (widen 0 (x.word a 0)))
        withStores s' e c (.push c o) (pushStores t (o.out.bind (e.site s).opnd) e.brick p.1 p.2) := by
  simp only [pushBody, modeReserved_eq_false hm, ha, ht]
  rw [hok]
  rfl

theorem clipBody_run {a r : Opnd} (hm : o.mode ≤ 4) (ha : (e.site s).opnd o.src = some a)
    (hr : (e.site s).opnd o.r = some r)
    (hok : (e.site s).check [Need.tile o.src 1, Need.tile o.r 1] [] false [] ((e.site s).farOwn [a, r] ++
      [(0x1160, scalarBad (some a) 1 || scalarBad (some r) 1), (0x1163, ! ratioOk o.maxnorm)]) = none) :
    clipBody c o s e = withReads s e c (.clip c o) (a.allReads 1) fun s x =>
      withStores s e c (.clip c o) [r.storeRow e.brick 0 0 0 [clipOf o.maxnorm (x.word a 0)]] := by
  simp only [clipBody, modeReserved_eq_false hm, ha, hr]
  rw [hok]
  rfl

theorem productBody_run {a b r : Opnd} (hm : o.mode ≤ 4) (ha : (e.site s).opnd o.src = some a)
    (hb : (e.site s).opnd o.src2 = some b) (hr : (e.site s).opnd o.r = some r)
    (hok : (e.site s).check [Need.tile o.src 1, Need.tile o.src2 1, Need.tile o.r 1] [] false []
      ((e.site s).farOwn [a, b, r] ++ [(0x1160, [a, b, r].any fun t => scalarBad (some t) 1)]) = none) :
    productBody c o s e = withReads s e c (.product c o) (a.allReads 1 ++ b.allReads 1) fun s x =>
      withStores s e c (.product c o) [r.storeRow e.brick 0 0 0 [fmul (x.word a 0) (x.word b 0)]] := by
  simp only [productBody, modeReserved_eq_false hm, ha, hb, hr]
  rw [hok]
  rfl

end Scale

/-- RNG_FILL with its checks passed: the stores of its draws, from the generator state of the context (R350 to R356). -/
theorem rngBody_run {s : State} {c : Cmd} {e : Env} {o : RngF} {y : Opnd} (hy : (e.site s).opnd o.y = some y)
    (hok : (e.site s).check [Need.tile o.y o.batch] [] (o.dist == 0 && y.desc.fmt != 0) [o.cvt] (rngOwn (e.site s) o y)
      = none) :
    rngBody c o s e =
      let out := rngStores y e.brick o ((e.c.rngSrc o.seed).getD 0) ((e.c.rngSrc o.tid).getD 0) 0
        (rngKeys y o (rngBase e.c e.stream o)) (e.c.rnd e.stream)
      withStores (s.modCtx e.key (Ctx.withRnd out.2)) e c (.rngFill c o) out.1 := by
  simp [rngBody, hy, hok]

theorem voteBody_run {s : State} {c : Cmd} {e : Env} {o : VoteF} {a : Opnd} (ha : (e.site s).opnd o.x = some a)
    (hok : (e.site s).check [Need.tile o.x o.batch] [] false [] ((e.site s).farOwn [a]) = none) :
    voteBody c o s e = withReads s e c (.nonfiniteVote c o) (a.allReads o.batch) fun s x =>
      .done (s.modCtx e.key (Ctx.setPred o.pred ((e.c.preds.getD o.pred false && o.acc == 1) ||
        (x.elements a o.batch).any fun v => ! isFinite32 v))) := by
  simp [voteBody, ha, hok]

/-- Settles O11: each command's body, with its reads and stores on this chip. -/
theorem scaleAndRngCommandsComplete : Obligations.ScaleAndRngCommandsComplete := by
  refine ⟨?_, ?_, ?_, ?_, ?_, ?_⟩
  · intro s c e o a r h hm ha hr hok reads x peak sum st hreads
    refine ⟨fun hs => ?_, fun hs => ?_⟩ <;>
      refine congrArg Host.Outcome.next ((command_runs h rfl rfl).trans ?_)
    · exact reduceBody_done (f := amaxOf) (op := fmax) _ hm ha hr hok hreads hs
    · exact reduceBody_done (f := sumsqOf) (op := fadd) _ hm ha hr hok hreads hs
  · intro s c e o a t h hm ha ht out hok reads x b p ss hreads hvalid hs
    refine congrArg Host.Outcome.next ((command_runs h rfl rfl).trans ?_)
    rw [pushBody_run hm ha ht hok]
    refine (reads_settle _ hreads).trans ?_
    rw [if_neg (by simpa using hvalid)]
    exact stores_plain _ hs
  · intro s c e o a r h hm ha hr hok reads ss hreads hs
    refine congrArg Host.Outcome.next ((command_runs h rfl rfl).trans ?_)
    rw [clipBody_run hm ha hr hok]
    exact (reads_settle _ hreads).trans (stores_plain _ hs)
  · intro s c e o a b r h hm ha hb hr hok reads x ss hreads hs
    refine congrArg Host.Outcome.next ((command_runs h rfl rfl).trans ?_)
    rw [productBody_run hm ha hb hr hok]
    exact (reads_settle _ hreads).trans (stores_plain _ hs)
  · intro s c e o y h hy hok out hs
    refine congrArg Host.Outcome.next ((command_runs h rfl rfl).trans ?_)
    rw [rngBody_run hy hok]
    exact stores_settle (s1 := (s.issued e c).modCtx e.key (Ctx.withRnd out.2)) _ hs (by simp) (by simp)
  · intro s c e o a h ha hok reads bad hreads
    refine congrArg Host.Outcome.next ((command_runs h rfl rfl).trans ?_)
    rw [voteBody_run ha hok]
    exact reads_settle _ hreads

end Sys2Proof.Machine
end

section
/-! SUPPORT. The matrix commands (R235 to R275, R324 to R333): the run of their members, the blocks that become visible in
order, and the statement on what they complete with. -/

namespace Sys2Proof.Machine

/-- A block of this chip that becomes visible leaves the frames under way as they were. -/
theorem State.blockDone_remoteAt {s : State} {e : Env} {c : Cmd} {i : Instr} {o : BlockOut}
    (h : o.stores.filter Store.isFar = []) (q : Loc) : (s.blockDone e c i o).remoteAt q = s.remoteAt q := by
  have hsend : s.sendStores e c i o.stores = s.commit e.c.part o.stores := by simp [State.sendStores, h]
  simp [State.blockDone, State.remoteAt, hsend]

/-- Blocks of this chip that no stream takes become visible in order, and the command is done (R258). -/
theorem State.blocks_here {e : Env} {c : Cmd} {i : Instr} {q : Nat} :
    ∀ (os : List BlockOut) (s : State) (last : Nat), (∀ w ∈ os, w.cx = none ∧ w.stores.filter Store.isFar = []) →
      s.remoteAt c.loc = none →
      s.blocks e c i q none os last = .done (os.foldl (fun s w => s.blockDone e c i w) s)
  | [], s, last, _, hrem => by simp [State.blocks, hrem]
  | o :: os, s, last, ho, hrem => by
    obtain ⟨⟨hcx, hfar⟩, hos⟩ := List.forall_mem_cons.1 ho
    have hrem' : (s.blockDone e c i o).remoteAt c.loc = none := (s.blockDone_remoteAt hfar _).trans hrem
    simpa [State.blocks, hcx] using State.blocks_here os (s.blockDone e c i o) o.index hos hrem'

namespace MatJob
variable {j : MatJob} {s : State} {e : Env}

/-- The members of a job, one after another (R240). -/
def members (j : MatJob) (s : State) (e : Env) : MatRun :=
  (List.range j.batch).foldl (j.member e ((e.site s).scale j.e.proScale) ((e.site s).scale j.e.epiScale))
    { s := s, rnd := e.c.rnd e.stream, sums := [], red := [], outs := [], fail := none }

/-- The state before the first block becomes visible: the draws recorded, the reads of the reuse store charged. -/
def drawn (j : MatJob) (s : State) (e : Env) : State :=
  let s1 := s.modCtx e.key (Ctx.withRnd (j.members s e).rnd)
  if j.reuseBytes (j.members s e).outs = 0 then s1 else s1.charge e.c.part (j.reuseBytes (j.members s e).outs)

theorem drawn_remoteAt (q : Loc) : (j.drawn s e).remoteAt q = s.remoteAt q := by
  unfold drawn
  split <;> simp [State.remoteAt]

/-- A job without a reuse store reads none of it. -/
theorem drawn_of_no_store (h : j.t = none) : j.drawn s e = s.modCtx e.key (Ctx.withRnd (j.members s e).rnd) := by
  simp [drawn, reuseBytes, h]

/-- A job none of whose members fails, without a stream or a destination on another chip, makes every block visible. -/
theorem run_done (hscale : (e.site s).readsFault ((e.site s).scaleReads j.e.proScale ++ (e.site s).scaleReads j.e.epiScale) = none)
    (hfar : (j.dt.map fun t => t.o.chip).getD 0 = 0) (hfail : (j.members s e).fail = none)
    (houts : ∀ w ∈ (j.members s e).outs, w.cx = none ∧ w.stores.filter Store.isFar = [])
    (hrem : s.remoteAt j.c.loc = none) :
    j.run s e = .done ((j.members s e).outs.reverse.foldl (fun s w => s.blockDone e j.c j.instr w) (j.drawn s e)) := by
  have hrun : j.run s e = (j.drawn s e).blocks e j.c j.instr (bits j.e.stream 1 0) (j.members s e).fail
      (j.members s e).outs.reverse 0xFFFFFFFF := by
    unfold run
    simp only [hscale, hfar]
    rfl
  rw [hrun, hfail]
  exact State.blocks_here _ _ _ (fun w hw => houts w (List.mem_reverse.1 hw)) (drawn_remoteAt _ |>.trans hrem)

end MatJob

/-- A destination that is on this chip, when there is one, is on no other. -/
theorem chip_getD_zero {d : Option Opnd} (h : ∀ q, d = some q → q.chip = 0) : (d.map Opnd.chip).getD 0 = 0 := by
  cases d with
  | none => rfl
  | some q => simpa using h q rfl

section Bodies
variable {s : State} {c : Cmd} {e : Env}

theorem matBody_run {i : Instr} {kind : Nat} {o : MatF} {a b ct : Opnd} {bias g r d t : Option Opnd}
    (hbias : (e.site s).opt (kind == 0) o.epi.bias = bias) (hg : (e.site s).opt (kind == 2) o.epi.gateT = g)
    (hr : (e.site s).opt (epiRedOn o.epi) (some o.epi.redT) = r) (hd : (e.site s).opt true o.epi.d = d)
    (ht : (e.site s).opt (kind == 0 && o.epi.reuse == 1) (some o.epi.reuseT) = t)
    (ha : (e.site s).opnd o.a = some a) (hb : (e.site s).opnd o.b = some b) (hc : (e.site s).opnd o.c = some ct)
    (hok : (e.site s).check (matNeeds kind o)
      [(0x1013, e.c.scaleBad o.epi.proScale || e.c.scaleBad o.epi.epiScale),
       (0x1014, ct.desc.rows % 32 != 0 || ct.desc.cols % 32 != 0 || decide (Config.maxMN < ct.desc.rows) ||
         decide (Config.maxMN < ct.desc.cols)), (0x1015, a.desc.cols % 32 != 0)]
      ((decide (o.epi.proFmt ≤ 4) || o.epi.proFmt == 0xFF) &&
        ! pairOk (if o.epi.proFmt = 0xFF then a.desc.fmt else o.epi.proFmt) b.desc.fmt)
      (epiCvts o.epi) (matOwn (e.site s) kind o a b ct bias g r d t) = none) :
    matBody i c kind o s e = (matJob i c kind o s e a b ct bias g r d t).run s e := by
  subst hbias hg hr hd ht
  simp only [matBody, ha, hb, hc]
  rw [hok]
  rfl

theorem convBody_run {o : ConvF} {a f y : Opnd} {bias r d : Option Opnd}
    (hbias : (e.site s).opt (o.acc == 0) o.epi.bias = bias) (hr : (e.site s).opt (epiRedOn o.epi) (some o.epi.redT) = r)
    (hd : (e.site s).opt true o.epi.d = d) (ha : (e.site s).opnd o.x = some a) (hf : (e.site s).opnd o.f = some f)
    (hy : (e.site s).opnd o.y = some y)
    (hok : (e.site s).check (convNeeds (e.site s) o)
      [(0x1013, e.c.scaleBad o.epi.proScale || e.c.scaleBad o.epi.epiScale),
       (0x1014, y.desc.rows * y.desc.cols % 32 != 0 || f.desc.rows % 32 != 0 ||
         decide (Config.maxMN < y.desc.rows * y.desc.cols) || decide (Config.maxMN < f.desc.rows)),
       (0x1015, (o.fh * o.fw * o.cin) % 32 != 0), (0x1019, (convWin o).tooBig)]
      ((decide (o.epi.proFmt ≤ 4) || o.epi.proFmt == 0xFF) &&
        ! pairOk (if o.epi.proFmt = 0xFF then a.desc.fmt else o.epi.proFmt) f.desc.fmt)
      (epiCvts o.epi) (convOwn (e.site s) o a f y bias r d) = none) :
    convBody c o s e = (convJob c o a f y bias r d).run s e := by
  subst hbias hr hd
  simp only [convBody, ha, hf, hy]
  rw [hok]
  rfl

end Bodies

/-- Settles O12: the job of each command, run to its end on this chip. -/
theorem matrixCommandsComplete : Obligations.MatrixCommandsComplete := by
  refine ⟨?_, ?_⟩
  · intro s c e o kind i a b ct hi x f bias g r d t ha hb hct hok j run hscale hfail houts hd hrem s1 s2
    have hbody : matBody i c kind o (s.issued e c) (e.after c) = j.run (s.issued e c) (e.after c) :=
      matBody_run rfl rfl rfl rfl rfl ha hb hct hok
    have hfar : (j.dt.map fun t => t.o.chip).getD 0 = 0 := by
      simpa [j, matJob, Function.comp_def, Opnd.tens] using chip_getD_zero hd
    have hdrawn : j.drawn (s.issued e c) (e.after c) = s2 := by
      simp only [MatJob.drawn, Env.after_part]
      rfl
    have hdone := j.run_done (s := s.issued e c) (e := e.after c) hscale hfar hfail houts hrem
    rw [← hbody, hdrawn] at hdone
    obtain ⟨rfl, rfl, h⟩ | ⟨rfl, rfl, h⟩ | ⟨rfl, rfl, h⟩ := hi <;>
      refine congrArg Host.Outcome.next ((command_runs h rfl rfl).trans ?_) <;>
      rw [hdone] <;> rfl
  · intro s c e o a f y h x p bias r d m n ha hf hy hok j run hscale hfail houts hd hrem
    refine congrArg Host.Outcome.next ((command_runs h rfl rfl).trans ?_)
    have hfar : (j.dt.map fun t => t.o.chip).getD 0 = 0 := by
      simpa [j, convJob, Function.comp_def] using chip_getD_zero hd
    have hbody : convBody c o (s.issued e c) (e.after c) = j.run (s.issued e c) (e.after c) :=
      convBody_run rfl rfl rfl ha hf hy hok
    have hdone := j.run_done (s := s.issued e c) (e := e.after c) hscale hfar hfail houts hrem
    rw [hbody, hdone, MatJob.drawn_of_no_store rfl]
    rfl

end Sys2Proof.Machine
end

section
/-! SUPPORT. Attention and the page movers (R293 to R320): what a reader stores with its pages pinned, a command held on a
locked page that goes on, and the statements on what they complete with. -/

namespace Sys2Proof.Machine

/-! ### Readers with pinned pages (R310, R312) -/

section Pinned
variable {s s1 : State} {c : Cmd} {e : Env} {i : Instr} {ss : List Store}

/-- The end of a reader whose stores lie on this chip: its stores visible, its pins given back, then C7. -/
theorem storePinned_settle {spl : Nat} {pins : List Nat} (regs : List Nat) (hs : StoresHere s c e ss)
    (hw : s1.windows = (s.issued e c).windows) (hh : s1.haw = (s.issued e c).haw) :
    (storePinned s1 (e.after c) c i spl pins ss).settle (e.after c) c regs c.last =
      ((s1.commit e.c.part ss).unpinAll spl pins).finish (e.after c) c 6 regs c.last := by
  obtain ⟨h1, h2, h3⟩ := hs
  have w1 : ((e.after c).site s1).writesFault ss = none := by
    rw [← h1]
    apply writesFault_congr <;> simp [siteOf, Env.site, hw]
  have w3 : (s1.commit e.c.part ss).remoteAt c.loc = none := by simpa [State.remoteAt, hh] using h3
  have hsend : s1.sendStores (e.after c) c i ss = s1.commit e.c.part ss := by simp [State.sendStores, h2]
  simp [storePinned, w1, h2, hsend, w3, Ran.settle]

/-- A reader that finds no page locked goes on with its pages pinned (R310). -/
theorem pinFrom_done {h : SplH} {par seq n k : Nat} {pins ps : List Nat} {held : Nat → List Nat → HeldOp}
    {run : State → List Nat → Ran} {d : Dev} (hpin : Dev.pinSlots h seq n k pins s.dev = .done d ps) :
    pinFrom s h par seq n k pins held run = run (s.withDev (d.leavePin h par)) ps := by
  rw [pinFrom, hpin, pinned]

end Pinned

/-! ### ATTN_BLOCK (R293 to R301) -/

namespace AttnOps
variable (p : AttnOps) (o : AttnF) (x : Site) (h : Option SplH) (pages : List Nat)

/-- Everything an ATTN_BLOCK reads. -/
def reads : List (Nat × Nat × Nat) := x.scaleReads o.c ++ (List.range o.batch).flatMap (p.memberReads x o h pages)

/-- The rows of every member at the end: soft maximum and output. -/
def results : List (List (SoftState × List Nat)) := (List.range o.batch).map (p.member x o h pages (x.scale o.c))

/-- Y of every member and the draws it takes (R296). -/
def yStores (brick : Nat) (r : Rnd) (ms : List (List (SoftState × List Nat))) : List Store × Rnd :=
  match p.y with
  | some y => memberStores y brick o.yCvt 0 0 (ms.map (List.map attnY)) r
  | none => ([], r)

/-- O and the statistics of every member (R295, R297). -/
def oStores (brick : Nat) (ms : List (List (SoftState × List Nat))) : List Store :=
  (ms.zip (List.range ms.length)).flatMap fun m =>
    p.o.storeRows brick m.2 (m.1.map (·.2)) ++ pairStores p.st brick m.2 (m.1.map fun r => (r.1.m, r.1.l))

end AttnOps

/-- The void rows that a FINAL block counts (R290). -/
def attnVoids (o : AttnF) (ms : List (List (SoftState × List Nat))) : Nat :=
  if o.final = 1 then (ms.flatten.filter fun r => r.1.l == 0).length else 0

section Attention
variable {s s1 : State} {c : Cmd} {e : Env} {o : AttnF} {p : AttnOps}

/-- An ATTN_BLOCK with its pages pinned, reads and stores on this chip, stores its results and completes. -/
theorem attnRun_settle {x : Site} {h : Option SplH} {spl : Nat} {pages : List Nat} (regs : List Nat)
    (hr : x.readsFault (p.reads o x h pages) = none)
    (hs : StoresHere s c e (p.oStores e.brick (p.results o x h pages) ++
      (p.yStores o e.brick (e.rnd0 c) (p.results o x h pages)).1))
    (hw : s1.windows = (s.issued e c).windows) (hh : s1.haw = (s.issued e c).haw) :
    (attnRun c o s1 (e.after c) x p h spl pages).settle (e.after c) c regs c.last =
      ((((((s1.modCtx e.key (Ctx.withRnd (p.yStores o e.brick (e.rnd0 c) (p.results o x h pages)).2)).addVoids e.l.owner
        (attnVoids o (p.results o x h pages))).chargeReads e.c.part (p.reads o x h pages)).commit e.c.part
        (p.oStores e.brick (p.results o x h pages) ++
          (p.yStores o e.brick (e.rnd0 c) (p.results o x h pages)).1)).unpinAll spl pages).finish (e.after c) c 6 regs
        c.last) := by
  have hrun : attnRun c o s1 (e.after c) x p h spl pages =
      storePinned (((s1.modCtx e.key (Ctx.withRnd (p.yStores o e.brick (e.rnd0 c) (p.results o x h pages)).2)).addVoids
        e.l.owner (attnVoids o (p.results o x h pages))).chargeReads (e.after c).c.part (p.reads o x h pages))
        (e.after c) c (.attnBlock c o) spl pages (p.oStores e.brick (p.results o x h pages) ++
          (p.yStores o e.brick (e.rnd0 c) (p.results o x h pages)).1) := by
    unfold attnRun
    dsimp only
    rw [show x.readsFault (x.scaleReads o.c ++ (List.range o.batch).flatMap (p.memberReads x o h pages)) = none from hr]
    rfl
  rw [hrun, Env.after_part]
  exact storePinned_settle regs hs (by simp [State.addVoids, hw]) (by simp [State.addVoids, hh])

/-- Reads of another chip fault nothing here. -/
theorem readsFault_far (x : Site) (l : List (Nat × Nat × Nat)) :
    x.readsFault (l.filter fun r => r.1 == 2 && chipField r.2.1 != 0) = none := by
  refine List.findSome?_eq_none_iff.2 fun r hr => ?_
  obtain ⟨-, hfar⟩ := List.mem_filter.1 hr
  simp only [Bool.and_eq_true, beq_iff_eq, bne_iff_ne] at hfar
  simp [Site.readFault, hfar]

/-- Reads of another chip move no byte of this chip's device memory. -/
theorem chargeReads_far (s : State) (part : Nat) (l : List (Nat × Nat × Nat)) :
    s.chargeReads part (l.filter fun r => r.1 == 2 && chipField r.2.1 != 0) = s := by
  have hnone : ownBytes (l.filter fun r => r.1 == 2 && chipField r.2.1 != 0) = 0 := by
    unfold ownBytes
    rw [List.filter_filter, List.filter_eq_nil_iff.2]
    · rfl
    · intro r _
      simp only [Bool.and_eq_true, beq_iff_eq, bne_iff_ne]
      tauto
  simp [State.chargeReads, hnone]

@[simp] theorem farReads_filter_far (l : List (Nat × Nat × Nat)) :
    farReads (l.filter fun r => r.1 == 2 && chipField r.2.1 != 0) = farReads l := by
  simp [farReads]

theorem farReads_flatMap {α : Type} (f : α → List (Nat × Nat × Nat)) (l : List α) (h : ∀ a ∈ l, farReads (f a) = []) :
    farReads (l.flatMap f) = [] := by
  induction l with
  | nil => rfl
  | cons a l ih =>
    obtain ⟨ha, hl⟩ := List.forall_mem_cons.1 h
    simp only [farReads] at ha ih
    simp [farReads, ha, ih hl]

/-- The reads of the masks that an ATTN_BLOCK fetches from another chip before it starts (R480). -/
def attnFar (o : AttnF) (p : AttnOps) : List (Nat × Nat × Nat) :=
  ((p.mask.map fun k => (List.range o.batch).flatMap k.reads).getD []).filter fun r => r.1 == 2 && chipField r.2.1 != 0

/-- Masks of this chip are fetched from no other. -/
theorem withReads_attnFar {i : Instr} {k : State → Site → Ran}
    (hm : ∀ q, p.mask = some q → ∀ b ∈ List.range o.batch, farReads (q.reads b) = []) :
    withReads s e c i (attnFar o p) k = k s (e.site s) := by
  have hfar : farReads (attnFar o p) = [] := by
    rw [attnFar, farReads_filter_far]
    cases hp : p.mask with
    | none => rfl
    | some q => exact farReads_flatMap _ _ (hm q hp)
  rw [withReads_here (reads := attnFar o p) ⟨readsFault_far _ _, hfar⟩, attnFar, chargeReads_far]

theorem attnBody_dense (hkv : o.kvSrc = 0) (hp : (e.site s).attnOps o = some p)
    (hok : (e.site s).check (attnNeeds (e.site s) o) ((0x1013, e.c.scaleBad o.c) :: (e.site s).maskShape p.mask o.batch)
      (! pairOk p.q.desc.fmt (p.kFmt none)) (if o.final = 1 then [o.yCvt] else []) (attnOwn (e.site s) o p none) = none) :
    attnBody c o s e = withReads s e c (.attnBlock c o) (attnFar o p) fun s x => attnRun c o s e x p none 0 [] := by
  have hhdr : (e.site s).hdr (o.kvSrc == 1) o.splT = none := by simp [Site.hdr, hkv]
  simp only [attnBody, hp, hhdr]
  rw [show (decide (o.kvSrc ≤ 1) && true && ! pairOk p.q.desc.fmt (p.kFmt none)) = ! pairOk p.q.desc.fmt (p.kFmt none) by
    simp [hkv], hok]
  rfl

theorem attnBody_paged {h : SplH} {d : Dev} {ps : List Nat} (hkv : o.kvSrc = 1) (hp : (e.site s).attnOps o = some p)
    (hmask : p.mask = none) (hhdr : (e.site s).hdr true o.splT = some h)
    (hok : (e.site s).check (attnNeeds (e.site s) o) ((0x1013, e.c.scaleBad o.c) :: (e.site s).maskShape p.mask o.batch)
      ((e.site s).hdrOk h && ! pairOk p.q.desc.fmt (p.kFmt (some h))) (if o.final = 1 then [o.yCvt] else [])
      (attnOwn (e.site s) o p (some h)) = none)
    (hspl : (e.site s).splFault h (e.c.seqVal o.seqSrc o.seq) (slotsOf o.firstToken o.tokens) = none)
    (hpin : Dev.pinSlots h (e.c.seqVal o.seqSrc o.seq) (slotsOf o.firstToken o.tokens).length (o.firstToken / 256) []
      (s.dev.enterPin h).1 = .done d ps) :
    attnBody c o s e = attnRun c o (s.withDev (d.leavePin h (s.dev.enterPin h).2)) e
      (e.site (s.withDev (d.leavePin h (s.dev.enterPin h).2))) p (some h) h.at_ ps := by
  have hhdr' : (e.site s).hdr (o.kvSrc == 1) o.splT = some h := by simpa [hkv] using hhdr
  have hnone : ∀ q, p.mask = some q → ∀ b ∈ List.range o.batch, farReads (q.reads b) = [] := by simp [hmask]
  simp only [attnBody, hp, hhdr']
  rw [show (decide (o.kvSrc ≤ 1) && (e.site s).hdrOk h && ! pairOk p.q.desc.fmt (p.kFmt (some h))) =
    ((e.site s).hdrOk h && ! pairOk p.q.desc.fmt (p.kFmt (some h))) by simp [hkv], hok, Ran.checked_none]
  refine (withReads_attnFar hnone).trans ?_
  simp only [hspl]
  exact pinFrom_done (s := s.withDev (s.dev.enterPin h).1) hpin

end Attention

/-- Settles O13: dense keys and values are read where they lie, paged ones under pins that the end gives back. -/
theorem attentionCompletes : Obligations.AttentionCompletes := by
  refine ⟨?_, ?_⟩
  · intro s c e o p h hkv x hp hok reads ms out ss voids _ hmask hr hs
    refine congrArg Host.Outcome.next ((command_runs h rfl rfl).trans ?_)
    rw [attnBody_dense hkv hp hok, withReads_attnFar hmask]
    exact attnRun_settle _ hr hs rfl rfl
  · intro s c e o p h d ps hruns hkv _ x hp hmask hhdr hok seq slots hspl par hpin s1 y reads ms out ss voids hr hs
    refine congrArg Host.Outcome.next ((command_runs hruns rfl rfl).trans ?_)
    rw [attnBody_paged hkv hp hmask hhdr hok hspl hpin]
    exact attnRun_settle _ hr hs rfl rfl

/-! ### GATHER_PAGES and SCATTER (R301 to R317) -/

section Pages
variable {s : State} {c : Cmd} {e : Env} {o : PagesF} {h : SplH}

theorem formReserved_eq_false (hform : o.form ≠ 3) : formReserved o = false := by
  simpa [formReserved] using hform

/-- The pages of a gather are pinned, and its moves go on from there (R310, R313). -/
theorem gatherBody_pinned {d : Dev} {ps : List Nat} (hhdr : (e.site s).hdr true o.splT = some h)
    (hok : (e.site s).check (pagesNeeds o true) [] false [] (rowsOwn (e.site s) o h false) = none)
    (hspl : (e.site s).splFault h (e.c.seqVal o.seqSrc o.seq) (slotsOf o.firstToken o.tokens) = none)
    (hpin : Dev.pinSlots h (e.c.seqVal o.seqSrc o.seq) (slotsOf o.firstToken o.tokens).length (o.firstToken / 256) []
      (s.dev.enterPin h).1 = .done d ps) :
    gatherBody c o s e = gatherRun c o (s.withDev (d.leavePin h (s.dev.enterPin h).2)) e h ps := by
  simp only [gatherBody, hhdr, hok, Ran.checked_none, hspl]
  exact pinFrom_done (s := s.withDev (s.dev.enterPin h).1) hpin

/-- The reads of a gather with its pages pinned. -/
def gatherReads (ms : List (Nat × Nat × Opnd × Nat × Nat)) : List (Nat × Nat × Nat) := ms.map fun m => (2, m.1, m.2.1)

/-- The rows a gather stores (R313). -/
def gatherStores (s : State) (brick : Nat) (ms : List (Nat × Nat × Opnd × Nat × Nat)) : List Store :=
  ms.map fun m =>
    ({ mem := m.2.2.1.desc.mem, brick := brick, addr := m.2.2.1.rowAt m.2.2.2.1 m.2.2.2.2
       bytes := s.mem.read m.1 m.2.1 } : Store)

theorem gatherRun_reads {ps : List Nat} {ms : List (Nat × Nat × Opnd × Nat × Nat)}
    (hms : gatherMoves o h (rowTiles (e.site s) o).1 (rowTiles (e.site s) o).2 ps = ms)
    (hr : (e.site s).readsFault (gatherReads ms) = none) :
    gatherRun c o s e h ps =
      storePinned (s.chargeReads e.c.part (gatherReads ms)) e c (.gatherPages c o) h.at_ ps (gatherStores s e.brick ms) := by
  subst hms
  unfold gatherRun
  dsimp only
  rw [show (e.site s).readsFault ((gatherMoves o h (rowTiles (e.site s) o).1 (rowTiles (e.site s) o).2 ps).map
    fun m => (2, m.1, m.2.1)) = none from hr]
  rfl

/-- SCATTER WRITE with its row tiles on this chip writes its slots (R314). -/
theorem writeBody_here {reads : List (Nat × Nat × Nat)} (hhdr : (e.site s).hdr true o.splT = some h)
    (hok : (e.site s).check (pagesNeeds o true) [] false [] (rowsOwn (e.site s) o h true) = none)
    (hreads : ((rowTiles (e.site s) o).1.toList ++ (rowTiles (e.site s) o).2.toList).flatMap (fun t => t.allReads o.heads) =
      reads) (hr : ReadsHere (e.site s) reads)
    (hspl : (e.site (s.chargeReads e.c.part reads)).splFault h (e.c.seqVal o.seqSrc o.seq) (slotsOf o.firstToken o.tokens) =
      none) :
    writeBody c o s e = writeSlots (e.site (s.chargeReads e.c.part reads)) e o h (rowTiles (e.site s) o).1
      (rowTiles (e.site s) o).2 (e.c.seqVal o.seqSrc o.seq) (slotsOf o.firstToken o.tokens)
      (s.chargeReads e.c.part reads) := by
  subst hreads
  simp only [writeBody, hhdr, hok, Ran.checked_none]
  rw [withReads_here hr]
  simp only [hspl]

theorem slotsBody_run {fork : Bool} {run : State → SplH → Ran} (hhdr : (e.site s).hdr true o.splT = some h)
    (hok : (e.site s).check (pagesNeeds o false) [] false [] (slotsOwn (e.site s) o h fork) = none)
    (hspl : (e.site s).splFault h (e.c.seqVal o.seqSrc o.seq) (List.range' o.firstSlot o.slots) = none) :
    slotsBody fork o s e run = run s h := by
  have hspl' : (e.site s).splFault h (e.c.seqVal o.seqSrc o.seq) (forkSlotList o) = none := hspl
  simp only [slotsBody, hhdr, hok, Ran.checked_none, hspl']

theorem forkFrom_done {k : Nat} {d : Dev} {ps : List Nat}
    (hf : Dev.forkSlots h (e.c.seqVal o.srcSeqSrc o.srcSeq) (e.c.seqVal o.seqSrc o.seq) (o.firstSlot + o.slots - k) k s.dev =
      .done d ps) : forkFrom o s e h k = .done (s.withDev d) := by
  simp only [forkFrom, hf]

theorem freeRun_done {d : Dev} {ps : List Nat}
    (hf : Dev.freeSlots h (e.c.seqVal o.seqSrc o.seq) (List.range' o.firstSlot o.slots) s.dev = .done d ps) :
    freeRun o e s h = .done (s.withDev d) := by
  have hf' : Dev.freeSlots h (e.c.seqVal o.seqSrc o.seq) (forkSlotList o) s.dev = .done d ps := hf
  simp only [freeRun, hf']

end Pages

/-- Settles O14: each command on unlocked pages, and the two that go on from the slot that waited. -/
theorem pageCommandsComplete : Obligations.PageCommandsComplete := by
  refine ⟨?_, ?_, ?_, ?_, ?_⟩
  · intro s c e o h d ps hruns x hhdr hok seq slots hspl par hpin s1 y ms reads ss hr hs
    refine congrArg Host.Outcome.next ((command_runs hruns rfl rfl).trans ?_)
    have hbody : gatherBody c o (s.issued e c) (e.after c) = gatherRun c o s1 (e.after c) h ps :=
      gatherBody_pinned hhdr hok hspl hpin
    rw [hbody, gatherRun_reads (ms := ms) rfl hr, Env.after_part]
    exact storePinned_settle _ hs (by simp; rfl) (by simp; rfl)
  · intro s c e o h t hruns hform x hhdr hok tiles reads seq slots hreads hspl hw
    refine congrArg Host.Outcome.next ((command_runs hruns rfl rfl).trans ?_)
    have hbody : writeBody c o (s.issued e c) (e.after c) = .done t :=
      (writeBody_here hhdr hok rfl hreads hspl).trans hw
    rw [formReserved_eq_false hform, if_neg Bool.false_ne_true, hbody]
    rfl
  · intro s c e o h d ps hruns hform x seq src hhdr hspl
    refine ⟨fun hok hf => ?_, fun hok hf => ?_⟩ <;>
      refine congrArg Host.Outcome.next ((command_runs hruns rfl rfl).trans ?_) <;>
      rw [formReserved_eq_false hform, if_neg Bool.false_ne_true, slotsBody_run hhdr hok hspl]
    · rw [forkFrom_done (by simpa using hf)]
      rfl
    · rw [freeRun_done hf]
      rfl
  · intro s l e c regs o tiles spl par k ps d ps' hawake henv hbusy h e1 hpin s1
    refine congrArg Host.Outcome.next ?_
    unfold pinResume
    rw [hawake, State.resume_held henv hbusy]
    exact congrArg (fun r : Ran => r.settle e c regs c.last) (pinFrom_done hpin)
  · intro s l e c regs o spl k d ps hawake henv hbusy hf
    refine congrArg Host.Outcome.next ?_
    unfold forkResume
    rw [hawake, State.resume_held henv hbusy]
    exact congrArg (fun r : Ran => r.settle e c regs c.last) (forkFrom_done hf)

end Sys2Proof.Machine
end

section
/-! SUPPORT. The splice table keeps device memory canonical (R204, R301 to R319, R375): one lemma per operation on `Dev`. -/

namespace Sys2Proof.Machine

/-- Device memory of a splice table in its canonical form. -/
def Dev.Wf (d : Dev) : Prop := d.mem.wf = true

namespace Dev.Wf
variable {d d' : Dev} {h : SplH} {n a v p par code : Nat} {bs : List Byte} {ps : List Nat}

theorem put (hd : d.Wf) : (d.put a bs).Wf := by
  unfold Dev.put
  split
  · exact hd
  · exact Mem.put_wf hd ..

theorem w (hd : d.Wf) : (d.w n a v).Wf := hd.put

theorem retire (hd : d.Wf) : (d.retire h p).Wf := by
  unfold Dev.retire
  dsimp only
  split
  · exact hd.w
  · exact hd.w.w.w.w

theorem freePage (hd : d.Wf) : (d.freePage h p).Wf := hd.w.w.w.w

theorem reclaimFrom : ∀ (fuel : Nat) (prev : Option Nat) (p : Nat) (d : Dev), d.Wf → (Dev.reclaimFrom h fuel prev p d).Wf
  | 0, _, _, _, hd => hd
  | fuel + 1, prev, p, d, hd => by
    unfold Dev.reclaimFrom
    split
    · exact hd
    · dsimp only
      split
      · refine reclaimFrom fuel prev _ _ (freePage ?_)
        cases prev with
        | none => exact hd.w
        | some r => exact hd.w
      · exact reclaimFrom fuel _ _ d hd

theorem reclaim (hd : d.Wf) : (d.reclaim h).Wf := reclaimFrom _ _ _ d hd

theorem advance (hd : d.Wf) : (d.advance h).Wf := by
  unfold Dev.advance
  dsimp only
  split
  · exact hd.w.reclaim
  · exact hd

theorem unpin (hd : d.Wf) : (Dev.unpin h d p).Wf := by
  unfold Dev.unpin
  dsimp only
  split
  · exact hd.w.retire
  · exact hd.w

theorem unpins (hd : d.Wf) : (ps.foldl (Dev.unpin h) d).Wf :=
  List.foldlRecOn ps (Dev.unpin h) hd fun _ hd _ _ => hd.unpin

theorem release (hd : d.Wf) : (d.release h ps).Wf := hd.unpins.advance

theorem enterPin (hd : d.Wf) : (d.enterPin h).1.Wf := hd.w

theorem leavePin (hd : d.Wf) : (d.leavePin h par).Wf := hd.w.advance

theorem bump (hd : d.Wf) : (d.bump h n).Wf := hd.w

theorem pinFail (hd : d.Wf) : (d.pinFail h par code ps).Wf := by
  unfold Dev.pinFail
  dsimp only
  split
  · exact hd.release.leavePin.bump
  · exact hd.release.leavePin

theorem unref (hd : d.Wf) : (d.unref h p).Wf := by
  unfold Dev.unref
  dsimp only
  split
  · exact hd.w.retire
  · exact hd.w

/-- A page taken from the pool is wiped (R317). -/
theorem alloc (hd : d.Wf) {gen : Nat} (ha : d.alloc h = some (d', p, gen)) : d'.Wf := by
  unfold Dev.alloc at ha
  dsimp only at ha
  split at ha
  · cases ha
  · simp only [Option.some.injEq, Prod.mk.injEq] at ha
    obtain ⟨rfl, -, -⟩ := ha
    exact Mem.wipe_wf hd.reclaim.w.w.w.w.w ..

/-- The page a WRITE stores into is its own, a fresh one, or a copy (R316). -/
theorem writable (hd : d.Wf) {q k : Nat} (hw : d.writable h q k = .ok (d', p)) : d'.Wf := by
  unfold Dev.writable at hw
  dsimp only at hw
  split at hw
  · split at hw
    · cases hw
    · next ha =>
      simp only [Except.ok.injEq, Prod.mk.injEq] at hw
      obtain ⟨rfl, -⟩ := hw
      exact (hd.alloc ha).w.w.w
  · split at hw
    · cases hw
    · split at hw
      · simp only [Except.ok.injEq, Prod.mk.injEq] at hw
        obtain ⟨rfl, -⟩ := hw
        exact hd
      · split at hw
        · cases hw
        · next d1 _ _ ha =>
          simp only [Except.ok.injEq, Prod.mk.injEq] at hw
          obtain ⟨rfl, -⟩ := hw
          have hcopy : ∀ src dst n dirty, Dev.Wf { mem := d1.mem.copyPage src dst n, dirty := dirty } :=
            fun src dst n _ => Mem.copyPage_wf (hd.alloc ha) src dst n
          exact (hcopy _ _ _ _).w.w.w.unref.bump

end Dev.Wf

/-! ### Walks over slots -/

/-- The image of device memory a walk over slots came to. -/
def SplRes.dev : SplRes → Dev
  | .done d _ => d
  | .wait d _ _ => d
  | .fail d _ _ _ => d

namespace Dev.Wf

theorem pinSlots (h : SplH) (q : Nat) : ∀ (n k : Nat) (pins : List Nat) (d : Dev), d.Wf →
    (Dev.pinSlots h q n k pins d).dev.Wf
  | 0, _, _, _, hd => hd
  | n + 1, k, pins, d, hd => by
    unfold Dev.pinSlots
    dsimp only
    split
    · exact hd
    · split
      · exact hd
      · split
        · exact hd
        · exact pinSlots h q n _ _ _ hd.w

theorem forkSlot {d : Dev} (hd : d.Wf) (h : SplH) (src dst k : Nat) : (d.forkSlot h src dst k).dev.Wf := by
  unfold Dev.forkSlot
  dsimp only
  repeat' split
  · exact hd
  · exact hd
  · exact hd
  · exact hd
  · exact hd.w.w.w

theorem forkSlots (h : SplH) (src dst : Nat) : ∀ (n k : Nat) (d : Dev), d.Wf → (Dev.forkSlots h src dst n k d).dev.Wf
  | 0, _, _, hd => hd
  | n + 1, k, d, hd => by
    have hslot := hd.forkSlot h src dst k
    unfold Dev.forkSlots
    split
    · next hres =>
      rw [hres] at hslot
      exact forkSlots h src dst n _ _ hslot
    · exact hslot

theorem freeSlots (h : SplH) (q : Nat) : ∀ (ks : List Nat) (d : Dev), d.Wf → (Dev.freeSlots h q ks d).dev.Wf
  | [], _, hd => hd
  | k :: ks, d, hd => by
    unfold Dev.freeSlots
    dsimp only
    split
    · exact freeSlots h q ks d hd
    · split
      · exact hd
      · exact freeSlots h q ks _ hd.unref.w

/-! ### Readers that are dropped -/

theorem dropHeld {d : Dev} (hd : d.Wf) (h : HeldOp) : (d.dropHeld h).Wf := by
  unfold Dev.dropHeld
  split
  · exact hd.unpins.leavePin
  · exact hd.unpins.leavePin
  · split
    · exact hd
    · exact hd.release
  · exact hd

theorem dropCtx {d : Dev} (hd : d.Wf) (c : Ctx) : (d.dropCtx c).Wf := by
  unfold Dev.dropCtx
  refine List.foldlRecOn c.streams _ hd fun d hd t _ => ?_
  split
  · exact hd.dropHeld _
  · exact hd

end Dev.Wf

end Sys2Proof.Machine
end

section
/-! SUPPORT. What the shared operations keep (R181, R184, R204, R375): the memories in canonical form, and the set-up of the
device. One lemma per operation, over any demand on the two; the statements on every step and on the set-up instantiate it. -/

namespace Sys2Proof.Machine

/-- The part of the state that no engine command changes: plain registers, windows, fuses, partitions, boot state, security
engine, lock and device time. -/
abbrev SetUp := List (Nat × Word) × List Window × Fuses × List Partition × BootS × SecS × Bool × TimeS

def State.setUp (s : State) : SetUp := (s.regs, s.windows, s.fuses, s.parts, s.boot, s.sec, s.locked, s.time)

/-- OB and AM of a brick in their canonical form. -/
def BrickS.Wf (b : BrickS) : Prop := b.ob.wf = true ∧ b.am.wf = true

/-- What an operation is to keep: canonical memories where `m` asks for them, and the demand `v` on the set-up. -/
structure State.Sound (m : Prop) (v : SetUp → Prop) (s : State) : Prop where
  mem : m → s.mem.wf = true
  bricks : m → ∀ b ∈ s.bricks, b.Wf
  setUp : v s.setUp

theorem State.memOk_iff {s : State} : s.memOk = true ↔ s.mem.wf = true ∧ ∀ b ∈ s.bricks, b.Wf := by
  simp [State.memOk, BrickS.Wf]

theorem BrickS.fresh_wf : BrickS.reset.Wf := ⟨rfl, rfl⟩

namespace State.Sound
variable {m : Prop} {v : SetUp → Prop} {s t : State}

/-- An operation that touches no memory and no set-up. -/
theorem same (h : s.Sound m v) (hm : t.mem = s.mem) (hb : t.bricks = s.bricks) (hu : t.setUp = s.setUp) : t.Sound m v where
  mem hm' := hm ▸ h.mem hm'
  bricks hm' := hb ▸ h.bricks hm'
  setUp := hu ▸ h.setUp

theorem of_sansLink (h : s.Sound m v) (ht : t.sansLink = s.sansLink) : t.Sound m v :=
  h.same (congrArg State.mem ht :) (congrArg State.bricks ht :) (congrArg State.setUp ht :)

theorem ite {c : Prop} [Decidable c] (hs : s.Sound m v) (ht : t.Sound m v) : (if c then s else t).Sound m v := by
  split
  · exact hs
  · exact ht

theorem forAll {α : Type} {g : State → α → State} {l : List α} (h : s.Sound m v)
    (hg : ∀ s a, s.Sound m v → (g s a).Sound m v) : (forAll l g s).Sound m v :=
  List.foldlRecOn l g h fun s hs a _ => hg s a hs

theorem foldl {α : Type} {g : State → α → State} {l : List α} (h : s.Sound m v)
    (hg : ∀ s a, s.Sound m v → (g s a).Sound m v) : (l.foldl g s).Sound m v :=
  List.foldlRecOn l g h fun s hs a _ => hg s a hs

/-! ### Outputs, pages, contexts, lists -/

theorem emit {o : Out} (h : s.Sound m v) : (s.emit o).Sound m v := h.same rfl rfl rfl
theorem drew {n : Nat} (h : s.Sound m v) : (s.drew n).Sound m v := h.same rfl rfl rfl
theorem modPage {f : Nat} {g : Page → Page} (h : s.Sound m v) : (s.modPage f g).Sound m v := h.same rfl rfl rfl
theorem modSq {f n : Nat} {g : Sq → Sq} (h : s.Sound m v) : (s.modSq f n g).Sound m v := h.same rfl rfl rfl
theorem modList {o : Nat} {g : RunningList → RunningList} (h : s.Sound m v) : (s.modList o g).Sound m v := h.same rfl rfl rfl
theorem modPort {p : Nat} {g : HawPort → HawPort} (h : s.Sound m v) : (s.modPort p g).Sound m v := h.same rfl rfl rfl
theorem setConn {c : Conn} (h : s.Sound m v) : (s.setConn c).Sound m v := h.same rfl rfl rfl
theorem setUnit {u : UnitKey} {x : UnitState} (h : s.Sound m v) : (s.setUnit u x).Sound m v := h.same rfl rfl rfl
theorem bucketAdd {u : UnitKey} {n : Nat} (h : s.Sound m v) : (s.bucketAdd u n).Sound m v := h.same rfl rfl rfl
theorem bucketClear {u : UnitKey} (h : s.Sound m v) : (s.bucketClear u).Sound m v := h.same rfl rfl rfl
theorem rowSet {a b c : Nat} (h : s.Sound m v) : (s.rowSet a b c).Sound m v := h.same rfl rfl rfl
theorem freeSlots {p : Slot → Bool} (h : s.Sound m v) : (s.freeSlots p).Sound m v := h.same rfl rfl rfl
theorem putSlot {n : Nat} {x : Slot} (h : s.Sound m v) : (s.putSlot n x).Sound m v := h.same rfl rfl rfl
theorem addRemote {r : RemoteOp} (h : s.Sound m v) : (s.addRemote r).Sound m v := h.same rfl rfl rfl
theorem dropRemote {q : Loc} (h : s.Sound m v) : (s.dropRemote q).Sound m v := h.same rfl rfl rfl
theorem dropColl {k : CollKey} (h : s.Sound m v) : (s.dropColl k).Sound m v := h.same rfl rfl rfl
theorem addVoids {o n : Nat} (h : s.Sound m v) : (s.addVoids o n).Sound m v := h.modList
theorem charge {p n : Nat} (h : s.Sound m v) : (s.charge p n).Sound m v := h.same rfl rfl rfl
theorem wardenStop {p : Phase} {c a b d : Nat} {u : UnitKey} (h : s.Sound m v) : (s.wardenStop p c a b d u).Sound m v :=
  h.same rfl rfl rfl
theorem endDesc {f n : Nat} {e : Ending} (h : s.Sound m v) : (s.endDesc f n e).Sound m v := h.modSq

theorem modCtx {k : Nat} {g : Ctx → Ctx} (h : s.Sound m v) : (s.modCtx k g).Sound m v := by
  unfold State.modCtx
  split
  · exact h.same rfl rfl rfl
  · exact h

theorem msix {f n : Nat} (h : s.Sound m v) : (s.msix f n).Sound m v := by
  rw [State.msix_frame]
  exact h.same rfl rfl rfl

theorem deviceEvent (h : s.Sound m v) : s.deviceEvent.Sound m v := h.msix

/-! ### Memories -/

theorem dev (h : s.Sound m v) (hm : m) : s.dev.Wf := h.mem hm

theorem withDev {d : Dev} (h : s.Sound m v) (hd : m → d.Wf) : (s.withDev d).Sound m v where
  mem := hd
  bricks := h.bricks
  setUp := h.setUp

theorem storeDev {a : Nat} {bs : List Byte} (h : s.Sound m v) : (s.storeDev a bs).Sound m v := by
  unfold State.storeDev
  split
  · exact h
  · exact { mem := fun hm => Mem.put_wf (h.mem hm) .., bricks := h.bricks, setUp := h.setUp }

theorem wipeDev {a n : Nat} (h : s.Sound m v) : (s.wipeDev a n).Sound m v where
  mem hm := Mem.wipe_wf (h.mem hm) ..
  bricks := h.bricks
  setUp := h.setUp

/-- Where every element keeps a property, a list with one element changed keeps it. -/
theorem forall_mem_modAt {α : Type} {p : α → Prop} {g : α → α} (hg : ∀ a, p a → p (g a)) :
    ∀ {l : List α} {n : Nat}, (∀ a ∈ l, p a) → ∀ a ∈ modAt l n g, p a := by
  intro l n hl a ha
  obtain ⟨i, hi⟩ := List.mem_iff_getElem?.1 ha
  rw [modAt, List.getElem?_modify] at hi
  obtain ⟨b, hb, rfl⟩ := Option.map_eq_some_iff.1 hi
  have hmem := hl b (List.mem_of_getElem? hb)
  split
  · exact hg b hmem
  · exact hmem

theorem modBrick {b : Nat} {g : BrickS → BrickS} (h : s.Sound m v) (hg : ∀ k, k.Wf → (g k).Wf) :
    (s.modBrick b g).Sound m v where
  mem := h.mem
  bricks hm := forall_mem_modAt hg (h.bricks hm)
  setUp := h.setUp

theorem storeBrick {b n a : Nat} {bs : List Byte} (h : s.Sound m v) : (s.storeBrick b n a bs).Sound m v := by
  refine h.modBrick fun k hk => ?_
  split
  · exact ⟨Mem.put_wf hk.1 .., hk.2⟩
  · exact ⟨hk.1, Mem.put_wf hk.2 ..⟩

theorem store {w : Store} (h : s.Sound m v) : (s.store w).Sound m v := by
  unfold State.store
  split
  · exact h.storeDev
  · exact h.storeBrick

theorem stores {ws : List Store} (h : s.Sound m v) : (s.stores ws).Sound m v := h.foldl fun _ _ hs => hs.store

theorem chargeReads {p : Nat} {l : List (Nat × Nat × Nat)} (h : s.Sound m v) : (s.chargeReads p l).Sound m v := by
  unfold State.chargeReads
  split
  · exact h
  · exact h.charge

theorem commit {p : Nat} {ws : List Store} (h : s.Sound m v) : (s.commit p ws).Sound m v := by
  unfold State.commit
  dsimp only
  split
  · exact h.stores
  · exact h.stores.charge

theorem unpinAll {spl : Nat} {pins : List Nat} (h : s.Sound m v) : (s.unpinAll spl pins).Sound m v := by
  unfold State.unpinAll
  split
  · exact h
  · exact h.withDev fun hm => (h.dev hm).release

/-! ### Errors and frames to other chips -/

theorem raise {e : ErrEvt} (h : s.Sound m v) : (s.raise e).Sound m v := h.of_sansLink (s.raise_sansLink e)
theorem raise1 {code sev p : Nat} {u : UnitKey} (h : s.Sound m v) : (s.raise1 code sev u p).Sound m v := h.raise

theorem raiseW {u : UnitKey} {w p : Nat} {r : ErrRec} {c : ErrScope} (h : s.Sound m v) : (s.raiseW u w p r c).Sound m v := by
  rw [State.raiseW_frame]
  exact h.same rfl rfl rfl

theorem xmit {p c l t psn job : Nat} {op d : List Byte} (h : s.Sound m v) : (s.xmit p c l t psn job op d).Sound m v :=
  h.of_sansLink (s.xmit_sansLink ..)

theorem sendCtrl {c l t job : Nat} {op d : List Byte} (h : s.Sound m v) : (s.sendCtrl c l t job op d).Sound m v :=
  h.of_sansLink (s.sendCtrl_sansLink ..)

theorem sendAborts {c : Coll} {code : Nat} (h : s.Sound m v) : (s.sendAborts c code).Sound m v :=
  h.of_sansLink (s.sendAborts_sansLink ..)

theorem abortColls {ks : List Nat} (h : s.Sound m v) : (s.abortColls ks).Sound m v :=
  h.of_sansLink (s.abortColls_sansLink ks)

theorem sendSeq {c l t o tag job : Nat} {op d : List Byte} (h : s.Sound m v) : (s.sendSeq c l t o tag job op d).Sound m v := by
  unfold State.sendSeq
  dsimp only
  split
  · exact h
  · split
    · exact h.setConn
    · exact h.setConn.xmit

theorem sendAccess {t a o job n : Nat} {d : List Byte} (h : s.Sound m v) : (s.sendAccess t a o job n d).Sound m v :=
  sendSeq (h.same rfl rfl rfl)

theorem sendStores {e : Env} {c : Cmd} {i : Instr} {ws : List Store} (h : s.Sound m v) :
    (s.sendStores e c i ws).Sound m v := by
  unfold State.sendStores
  dsimp only
  split
  · exact h.commit
  · have hsent : ∀ l : List (Nat × List Byte), (l.foldl (fun s p =>
        s.sendAccess fWrite p.1 e.l.owner (s.job e.c.part) 0 p.2) (s.commit e.c.part ws)).Sound m v :=
      fun _ => h.commit.foldl fun _ _ hs => hs.sendAccess
    split
    · exact (hsent _).dropRemote.addRemote
    · exact (hsent _).addRemote

/-! ### Ends of lists and descriptors -/

theorem releasePins {ks : List Nat} (h : s.Sound m v) : (s.releasePins ks).Sound m v :=
  h.withDev fun hm => List.foldlRecOn _ _ (h.dev hm) fun _ hd p _ => hd.dropCtx p.2

theorem dropList {l : RunningList} (h : s.Sound m v) : (s.dropList l).Sound m v :=
  (h.releasePins (ks := l.keys)).same rfl rfl rfl

theorem endList {o : Nat} {e : Ending} (h : s.Sound m v) : (s.endList o e).Sound m v := by
  unfold State.endList
  split
  · exact h.endDesc
  · exact endDesc (ite (dropList (ite h h.abortColls)) (dropList (ite h h.abortColls)).emit)

theorem faultList {o : Nat} {r : ErrRec} (h : s.Sound m v) : (s.faultList o r).Sound m v := h.endList.raise

theorem faultCmd {e : Env} {c : Cmd} {code step a l : Nat} {rs : List Nat} (h : s.Sound m v) :
    (s.faultCmd e c code step rs a l).Sound m v := h.faultList

theorem missHeld {f p q i : Nat} (h : s.Sound m v) : (s.missHeld f p q i).Sound m v :=
  ite h.modSq (ite h.modSq h)

theorem abortRing {f q : Nat} (h : s.Sound m v) : (s.abortRing f q).Sound m v := modSq (ite h.endList h)

theorem abortChain {p i : Nat} (h : s.Sound m v) : (s.abortChain p i).Sound m v := h.same rfl rfl rfl

theorem missSlot {n : Nat} (h : s.Sound m v) : (s.missSlot n).Sound m v := by
  unfold State.missSlot
  split
  · exact h
  · next x hx =>
    extract_lets ls others r rings kept bound marked acted
    have hbound : bound.Sound m v := h.same rfl rfl rfl
    have hmarked : marked.Sound m v := by
      dsimp only [marked]
      split
      · exact hbound.abortChain
      · exact hbound
    have hacted : acted.Sound m v :=
      ite (hbound.forAll fun _ _ hs => hs.modSq) (ite (hmarked.forAll fun _ _ hs => hs.abortRing) hbound)
    clear_value acted
    cases acted.itemHeld x with
    | none => exact hacted.raise
    | some p => exact hacted.missHeld.raise

theorem deadlineTests : ∀ (n : Nat) {s : State}, s.Sound m v → (State.deadlineTests n s).Sound m v
  | 0, _, h => h
  | n + 1, s, h => by
    unfold State.deadlineTests
    split
    · exact h
    · exact deadlineTests n h.missSlot

theorem endSlots {p : Slot → Bool} (h : s.Sound m v) : (s.endSlots p).Sound m v := by
  unfold State.endSlots
  refine freeSlots ?_
  split
  · exact h.missSlot
  · exact h

/-! ### The end of a command (R162 to R182, R188) -/

theorem metEntries {o : Nat} (h : s.Sound m v) : (s.metEntries o).Sound m v := by
  unfold State.metEntries
  split
  · exact h
  · exact h.endSlots

theorem tryComplete {o : Nat} (h : s.Sound m v) : (s.tryComplete o).Sound m v := by
  unfold State.tryComplete
  split
  · exact h
  · split
    · exact h.endSlots.endList
    · exact h

theorem endStream {e : Env} {b : Bool} (h : s.Sound m v) : (s.endStream e b).Sound m v :=
  ite h.modCtx.tryComplete h.modCtx

theorem passed {e : Env} {c : Cmd} {b : Bool} (h : s.Sound m v) : (s.passed e c b).Sound m v := by
  unfold State.passed
  refine endStream ?_
  split
  · exact ite h.modList.metEntries h
  · exact h

theorem signals {l : RunningList} {o : Nat} {a b : Sig} (h : s.Sound m v) : (s.signals l o a b).Sound m v := h.modCtx.modCtx

theorem finish1 {e : Env} {c : Cmd} {n : Nat} {rs : List Nat} {b : Bool} (h : s.Sound m v) :
    (s.finish1 e c n rs b).Sound m v := ite h.faultCmd h.signals.modList.passed

theorem wakeFences {q : Loc} : ∀ (n : Nat) {s : State}, s.Sound m v → (State.wakeFences q n s).Sound m v
  | 0, _, h => h
  | n + 1, s, h => by
    unfold State.wakeFences
    split
    · exact h
    · dsimp only
      split
      · exact h
      · exact wakeFences n h.finish1

theorem finish {e : Env} {c : Cmd} {n : Nat} {rs : List Nat} {b : Bool} (h : s.Sound m v) :
    (s.finish e c n rs b).Sound m v := wakeFences _ h.finish1

end State.Sound

end Sys2Proof.Machine
end

section
/-! SUPPORT. What the engine commands keep, in every state and where they fault as well (R184, R201): the memories in canonical
form and the set-up of the device. -/

namespace Sys2Proof.Machine

/-- The outcome of C5b and C6 keeps what is asked. -/
def Ran.Sound (m : Prop) (v : SetUp → Prop) : Ran → Prop
  | .done s => s.Sound m v
  | .fault s _ _ _ _ => s.Sound m v
  | .held s _ => s.Sound m v

variable {m : Prop} {v : SetUp → Prop} {s : State} {e : Env} {c : Cmd} {i : Instr}

/-! ### The passage of a command -/

theorem Ran.Sound.settle {r : Ran} {rs : List Nat} {b : Bool} (h : r.Sound m v) : (r.settle e c rs b).Sound m v := by
  cases r with
  | done s => exact State.Sound.finish h
  | fault s code step addr last => exact State.Sound.faultCmd h
  | held s h' => exact State.Sound.modCtx h

theorem Ran.Sound.checked {code : Option Nat} {k : Unit → Ran} (h : s.Sound m v) (hk : (k ()).Sound m v) :
    (Ran.checked s code k).Sound m v := by
  cases code with
  | none => exact hk
  | some n => exact h

theorem Ran.Sound.ite {p : Prop} [Decidable p] {r r' : Ran} (h : r.Sound m v) (h' : r'.Sound m v) :
    (if p then r else r').Sound m v := by
  split
  · exact h
  · exact h'

theorem State.Sound.command {fits : Bool} {eng : Nat → Bool} {own : Env → List (Nat × Bool)} {rs : List Nat}
    {pass : Ctx → Ctx} {body : State → Env → Ran} (h : s.Sound m v)
    (hb : ∀ s e, s.Sound m v → (body s e).Sound m v) : (s.command c fits eng own rs pass body).Sound m v := by
  unfold State.command
  split
  · exact h
  · refine h.ite (h.modCtx.endStream.ite ?_)
    split
    · exact h.faultCmd
    · exact h.modCtx.ite (h.modCtx.modList.modCtx.finish.ite (hb _ _ h.modCtx.modList).settle)

theorem State.Sound.resume {q : Loc} {k : State → Env → Cmd → HeldOp → Option Ran} (h : s.Sound m v)
    (hk : ∀ e c x r, k s e c x = some r → r.Sound m v) : (s.resume q k).Sound m v := by
  unfold State.resume
  split
  · exact h
  · split
    · split
      · next hr => exact (hk _ _ _ _ hr).settle
      · exact h
    · exact h

/-! ### Reads and stores, here and on another chip (R181, R480, R483) -/

theorem withReads_sound {reads : List (Nat × Nat × Nat)} {k : State → Site → Ran} (h : s.Sound m v)
    (hk : ∀ s x, s.Sound m v → (k s x).Sound m v) : (withReads s e c i reads k).Sound m v := by
  unfold withReads
  split
  · exact h
  · extract_lets far own s1
    have h1 : s1.Sound m v := h.ite h.charge
    refine Ran.Sound.ite (hk _ _ h1) ?_
    split
    · exact hk _ _ h1.dropRemote
    · exact Ran.Sound.ite h (h.foldl fun _ _ hs => hs.sendAccess).addRemote

theorem withStores_sound {ws : List Store} (h : s.Sound m v) : (withStores s e c i ws).Sound m v := by
  unfold withStores
  split
  · exact h
  · exact Ran.Sound.ite h (Ran.Sound.ite h.sendStores h.sendStores)

theorem faultPinned_sound {spl code addr : Nat} {pins : List Nat} (h : s.Sound m v) :
    (faultPinned s spl pins code addr).Sound m v := State.Sound.unpinAll h

theorem storePinned_sound {spl : Nat} {pins : List Nat} {ws : List Store} (h : s.Sound m v) :
    (storePinned s e c i spl pins ws).Sound m v := by
  unfold storePinned
  split
  · exact faultPinned_sound h
  · split
    · exact faultPinned_sound h
    · exact Ran.Sound.ite h.sendStores h.sendStores.unpinAll

/-! ### COPY and the window commands (R194 to R197, R334 to R340) -/

section Bodies
variable {a y : Opnd} {g b st : Option Opnd}

theorem copyTile_sound {o : CopyF} (h : s.Sound m v) : (copyTile c o s e a y).Sound m v := by
  unfold copyTile
  refine withReads_sound h fun _ _ hs => ?_
  exact withStores_sound hs.modCtx

theorem copyRegs_sound {o : CopyF} (h : s.Sound m v) : (copyRegs c o s e a).Sound m v := by
  unfold copyRegs
  refine withReads_sound h fun _ _ hs => ?_
  exact hs.modCtx

theorem copyBody_sound {o : CopyF} (h : s.Sound m v) : (copyBody c o s e).Sound m v := by
  unfold copyBody
  refine Ran.Sound.checked h ?_
  split
  · exact copyTile_sound h
  · exact copyRegs_sound h
  · exact h

theorem poolRun_sound {o : PoolF} (h : s.Sound m v) : (poolRun c o s e a y).Sound m v := by
  unfold poolRun
  refine withReads_sound h fun _ _ hs => ?_
  exact withStores_sound hs.modCtx

theorem poolBody_sound {o : PoolF} (h : s.Sound m v) : (poolBody c o s e).Sound m v := by
  unfold poolBody
  dsimp only
  split
  · exact Ran.Sound.checked h (poolRun_sound h)
  · exact Ran.Sound.checked h h

theorem resampRun_sound {o : ResampF} (h : s.Sound m v) : (resampRun c o s e a y).Sound m v := by
  unfold resampRun
  refine withReads_sound h fun _ _ hs => ?_
  exact withStores_sound hs.modCtx

theorem resampBody_sound {o : ResampF} (h : s.Sound m v) : (resampBody c o s e).Sound m v := by
  unfold resampBody
  dsimp only
  split
  · exact Ran.Sound.checked h (resampRun_sound h)
  · exact Ran.Sound.checked h h

/-! ### The vector commands (R280 to R292, R348 to R358, R502 to R511) -/

theorem actRun_sound {o : ActF} (h : s.Sound m v) : (actRun c o s e a y).Sound m v := by
  unfold actRun
  refine withReads_sound h fun _ _ hs => ?_
  exact withStores_sound hs.modCtx

theorem actBody_sound {o : ActF} (h : s.Sound m v) : (actBody c o s e).Sound m v := by
  unfold actBody
  refine Ran.Sound.checked h ?_
  split
  · exact actRun_sound h
  · exact h

theorem normRun_sound {o : NormF} (h : s.Sound m v) : (normRun c o s e a y g b st).Sound m v := by
  unfold normRun
  refine withReads_sound h fun _ _ hs => ?_
  exact withStores_sound hs.modCtx

theorem normBody_sound {o : NormF} (h : s.Sound m v) : (normBody c o s e).Sound m v := by
  unfold normBody
  refine Ran.Sound.checked h ?_
  split
  · exact normRun_sound h
  · exact h

theorem softRun_sound {o : SoftF} {k : Option Mask} (h : s.Sound m v) : (softRun c o s e a y k st).Sound m v := by
  unfold softRun
  refine withReads_sound h fun _ _ hs => ?_
  exact withStores_sound hs.modCtx.addVoids

theorem softBody_sound {o : SoftF} (h : s.Sound m v) : (softBody c o s e).Sound m v := by
  unfold softBody
  dsimp only
  split
  · exact Ran.Sound.checked h (softRun_sound h)
  · exact Ran.Sound.checked h h

theorem rngBody_sound {o : RngF} (h : s.Sound m v) : (rngBody c o s e).Sound m v := by
  unfold rngBody
  refine Ran.Sound.checked h ?_
  split
  · exact h
  · exact withStores_sound h.modCtx

theorem scaleReserved_sound (h : s.Sound m v) : (scaleReserved s).Sound m v := Ran.Sound.checked h h

theorem reduceBody_sound {o : ScaleF} {f : List Nat → Nat} {op : Nat → Nat → Nat} (h : s.Sound m v) :
    (reduceBody i c o f op s e).Sound m v := by
  refine Ran.Sound.ite (scaleReserved_sound h) ?_
  dsimp only
  split
  · exact Ran.Sound.checked h (withReads_sound h fun _ _ hs => withStores_sound hs)
  · exact Ran.Sound.checked h h

theorem pushBody_sound {o : ScaleF} (h : s.Sound m v) : (pushBody c o s e).Sound m v := by
  refine Ran.Sound.ite (scaleReserved_sound h) ?_
  dsimp only
  split
  · exact Ran.Sound.checked h (withReads_sound h fun _ _ hs => Ran.Sound.ite hs (withStores_sound hs))
  · exact Ran.Sound.checked h h

theorem clipBody_sound {o : ScaleF} (h : s.Sound m v) : (clipBody c o s e).Sound m v := by
  refine Ran.Sound.ite (scaleReserved_sound h) ?_
  dsimp only
  split
  · exact Ran.Sound.checked h (withReads_sound h fun _ _ hs => withStores_sound hs)
  · exact Ran.Sound.checked h h

theorem productBody_sound {o : ScaleF} (h : s.Sound m v) : (productBody c o s e).Sound m v := by
  refine Ran.Sound.ite (scaleReserved_sound h) ?_
  dsimp only
  split
  · exact Ran.Sound.checked h (withReads_sound h fun _ _ hs => withStores_sound hs)
  · exact Ran.Sound.checked h h

theorem voteBody_sound {o : VoteF} (h : s.Sound m v) : (voteBody c o s e).Sound m v := by
  unfold voteBody
  dsimp only
  split
  · exact Ran.Sound.checked h (withReads_sound h fun _ _ hs => hs.modCtx)
  · exact Ran.Sound.checked h h

end Bodies

/-! ### The matrix commands (R235 to R275) -/

theorem State.Sound.blockDone {o : BlockOut} (h : s.Sound m v) : (s.blockDone e c i o).Sound m v := h.sendStores.modList

theorem blocks_sound {q : Nat} {fail : Option (Nat × Nat)} : ∀ (os : List BlockOut) (last : Nat) {s : State}, s.Sound m v →
    (s.blocks e c i q fail os last).Sound m v
  | [], _, _, h => by
    unfold State.blocks
    split
    · exact h
    · exact Ran.Sound.ite h h
  | o :: os, _, s, h => by
    unfold State.blocks
    dsimp only
    split
    · exact blocks_sound os _ h.blockDone
    · split
      · exact h.blockDone
      · exact Ran.Sound.ite (blocks_sound os _ h.blockDone.modCtx) h.blockDone

theorem MatJob.run_sound {j : MatJob} (h : s.Sound m v) : (j.run s e).Sound m v := by
  unfold MatJob.run
  dsimp only
  split
  · exact h
  · exact Ran.Sound.ite h (blocks_sound _ _ (State.Sound.ite h.modCtx h.modCtx.charge))

theorem matBody_sound {kind : Nat} {o : MatF} (h : s.Sound m v) : (matBody i c kind o s e).Sound m v := by
  unfold matBody
  dsimp only
  split
  · exact Ran.Sound.checked h (MatJob.run_sound h)
  · exact Ran.Sound.checked h h

theorem convBody_sound {o : ConvF} (h : s.Sound m v) : (convBody c o s e).Sound m v := by
  unfold convBody
  dsimp only
  split
  · exact Ran.Sound.checked h (MatJob.run_sound h)
  · exact Ran.Sound.checked h h

/-! ### Attention and the page movers (R293 to R317) -/

theorem attnRun_sound {o : AttnF} {x : Site} {p : AttnOps} {h' : Option SplH} {spl : Nat} {pages : List Nat}
    (h : s.Sound m v) : (attnRun c o s e x p h' spl pages).Sound m v := by
  unfold attnRun
  dsimp only
  split
  · exact faultPinned_sound h
  · exact storePinned_sound h.modCtx.addVoids.chargeReads

theorem pinFrom_sound {h' : SplH} {par seq n k : Nat} {pins : List Nat} {held : Nat → List Nat → HeldOp}
    {run : State → List Nat → Ran} (h : s.Sound m v) (hrun : ∀ s ps, s.Sound m v → (run s ps).Sound m v) :
    (pinFrom s h' par seq n k pins held run).Sound m v := by
  have hwalk : m → (Dev.pinSlots h' seq n k pins s.dev).dev.Wf := fun hm => Dev.Wf.pinSlots h' seq n k pins _ (h.dev hm)
  unfold pinFrom
  cases hres : Dev.pinSlots h' seq n k pins s.dev <;> rw [hres] at hwalk
  · exact hrun _ _ (h.withDev fun hm => (hwalk hm).leavePin)
  · exact h.withDev hwalk
  · exact h.withDev fun hm => (hwalk hm).pinFail

theorem State.Sound.enterPin {h' : SplH} (h : s.Sound m v) : (s.withDev (s.dev.enterPin h').1).Sound m v :=
  h.withDev fun hm => (h.dev hm).enterPin

theorem attnBody_sound {o : AttnF} (h : s.Sound m v) : (attnBody c o s e).Sound m v := by
  unfold attnBody
  dsimp only
  split
  · exact Ran.Sound.checked h h
  · refine Ran.Sound.checked h (withReads_sound h fun s x hs => ?_)
    split
    · exact attnRun_sound hs
    · split
      · exact hs
      · exact pinFrom_sound hs.enterPin fun _ _ ht => attnRun_sound ht

theorem gatherRun_sound {o : PagesF} {h' : SplH} {pages : List Nat} (h : s.Sound m v) :
    (gatherRun c o s e h' pages).Sound m v := by
  unfold gatherRun
  dsimp only
  split
  · exact faultPinned_sound h
  · exact storePinned_sound h.chargeReads

theorem gatherBody_sound {o : PagesF} (h : s.Sound m v) : (gatherBody c o s e).Sound m v := by
  unfold gatherBody
  dsimp only
  split
  · exact Ran.Sound.checked h h
  · refine Ran.Sound.checked h ?_
    split
    · exact h
    · exact pinFrom_sound h.enterPin fun _ _ ht => gatherRun_sound ht

theorem writeSlots_sound {x : Site} {o : PagesF} {h' : SplH} {kt vt : Option Opnd} {seq : Nat} :
    ∀ (ks : List Nat) {s : State}, s.Sound m v → (writeSlots x e o h' kt vt seq ks s).Sound m v
  | [], _, h => h
  | k :: ks, s, h => by
    unfold writeSlots
    split
    · exact h
    · next hw =>
      dsimp only
      split
      · exact h
      · exact writeSlots_sound ks (h.withDev fun hm => (h.dev hm).writable hw).commit

theorem writeBody_sound {o : PagesF} (h : s.Sound m v) : (writeBody c o s e).Sound m v := by
  unfold writeBody
  dsimp only
  split
  · exact Ran.Sound.checked h h
  · refine Ran.Sound.checked h (withReads_sound h fun s x hs => ?_)
    split
    · exact hs
    · exact writeSlots_sound _ hs

theorem scatterReserved_sound {o : PagesF} (h : s.Sound m v) : (scatterReserved o s e).Sound m v := by
  unfold scatterReserved
  exact Ran.Sound.checked h h

theorem forkFrom_sound {o : PagesF} {h' : SplH} {k : Nat} (h : s.Sound m v) : (forkFrom o s e h' k).Sound m v := by
  have hwalk : ∀ src dst n, m → (Dev.forkSlots h' src dst n k s.dev).dev.Wf :=
    fun src dst n hm => Dev.Wf.forkSlots h' src dst n k _ (h.dev hm)
  unfold forkFrom
  dsimp only
  cases hres : Dev.forkSlots h' (e.c.seqVal o.srcSeqSrc o.srcSeq) (e.c.seqVal o.seqSrc o.seq) (o.firstSlot + o.slots - k) k
    s.dev
  all_goals
    have hd := fun hm => hres ▸ hwalk _ _ _ hm
  · exact h.withDev hd
  · exact h.withDev hd
  · exact h.withDev fun hm => by
      split
      · exact (hd hm).bump
      · exact hd hm

theorem freeRun_sound {o : PagesF} {h' : SplH} (h : s.Sound m v) : (freeRun o e s h').Sound m v := by
  have hwalk : m → (Dev.freeSlots h' (e.c.seqVal o.seqSrc o.seq) (forkSlotList o) s.dev).dev.Wf :=
    fun hm => Dev.Wf.freeSlots h' _ _ _ (h.dev hm)
  unfold freeRun
  cases hres : Dev.freeSlots h' (e.c.seqVal o.seqSrc o.seq) (forkSlotList o) s.dev <;> rw [hres] at hwalk
  · exact h.withDev hwalk
  · exact h.withDev hwalk
  · exact h.withDev fun hm => by
      split
      · exact (hwalk hm).bump
      · exact hwalk hm

theorem slotsBody_sound {fork : Bool} {o : PagesF} {run : State → SplH → Ran} (h : s.Sound m v)
    (hrun : ∀ h', (run s h').Sound m v) : (slotsBody fork o s e run).Sound m v := by
  unfold slotsBody
  dsimp only
  split
  · exact Ran.Sound.checked h h
  · refine Ran.Sound.checked h ?_
    split
    · exact h
    · exact hrun _

/-! ### Every engine command -/

theorem engineBody_sound (h : s.Sound m v) : (engineBody i s e).Sound m v := by
  cases i
  case copy => exact copyBody_sound h
  case predSet => exact h.modCtx
  case fence => exact Ran.Sound.ite h h
  case matmul => exact matBody_sound h
  case matmulAcc => exact matBody_sound h
  case matmulGated => exact matBody_sound h
  case act => exact actBody_sound h
  case normRow => exact normBody_sound h
  case softmaxRow => exact softBody_sound h
  case attnBlock => exact attnBody_sound h
  case gatherPages => exact gatherBody_sound h
  case scatterWrite c o =>
    change (if formReserved o then scatterReserved o else writeBody c o : State → Env → Ran) s e |>.Sound m v
    split
    · exact scatterReserved_sound h
    · exact writeBody_sound h
  case scatterFork => exact Ran.Sound.ite (scatterReserved_sound h) (slotsBody_sound h fun _ => forkFrom_sound h)
  case scatterFree => exact Ran.Sound.ite (scatterReserved_sound h) (slotsBody_sound h fun _ => freeRun_sound h)
  case conv2d => exact convBody_sound h
  case pool2d => exact poolBody_sound h
  case resample => exact resampBody_sound h
  case rngFill => exact rngBody_sound h
  case amax => exact reduceBody_sound h
  case sumsq => exact reduceBody_sound h
  case push => exact pushBody_sound h
  case clip => exact clipBody_sound h
  case product => exact productBody_sound h
  case nonfiniteVote => exact voteBody_sound h
  all_goals exact h

/-- An engine command keeps canonical memories canonical and leaves the set-up alone, also where it faults. -/
theorem engineCmd_sound {x : Cmd × Bool × Nat × List Nat} {t : State} (hx : engineCmd i = some x)
    (ht : exec i s = .next t) (h : s.Sound m v) : t.Sound m v := by
  rw [exec_engineCmd hx] at ht
  cases ht
  exact h.command fun _ _ hs => engineBody_sound hs

/-- Settles O5: no step of a command's passage touches the set-up. -/
theorem engineCommandsKeepTheSetUp : Obligations.EngineCommandsKeepTheSetUp := by
  intro s i x t hx ht
  have hs : s.Sound False (· = s.setUp) := ⟨False.elim, False.elim, rfl⟩
  have hset : t.setUp = s.setUp := (engineCmd_sound hx ht hs).setUp
  simpa only [State.setUp, Prod.mk.injEq] using hset

end Sys2Proof.Machine
end

section
/-! SUPPORT. What collectives, waking and the Hawser links keep (R463 to R498, R541, R543): the memories in canonical form,
and the set-up where they do not change it. -/

namespace Sys2Proof.Machine

/-- No demand on the set-up. -/
abbrev Any : SetUp → Prop := fun _ => True

/-- The state that a step goes on to, where it goes on, keeps what is asked. -/
def Res.Sound (m : Prop) (v : SetUp → Prop) (r : Res) : Prop := ∀ t, r = .next t → t.Sound m v

theorem Res.Sound.next {m : Prop} {v : SetUp → Prop} {s : State} (h : s.Sound m v) : Res.Sound m v (.next s) := by
  intro t ht
  cases ht
  exact h

theorem Res.Sound.ite {m : Prop} {v : SetUp → Prop} {c : Prop} [Decidable c] {r r' : Res} (h : Res.Sound m v r)
    (h' : Res.Sound m v r') : Res.Sound m v (if c then r else r') := by
  split
  · exact h
  · exact h'

theorem BrickS.Wf.undoze {x : BrickS} (h : x.Wf) : x.undoze.Wf := by
  unfold BrickS.undoze
  split
  · exact h
  · exact h

namespace State.Sound
variable {m : Prop} {v : SetUp → Prop} {s t : State} {a b c d i j k l n p q : Nat} {up on : Bool} {e : Env} {cmd : Cmd}
  {u : UnitKey} {r : ErrRec} {key : CollKey} {h' : HawFrame} {bs : List Byte} {loc : Loc}

/-- Without a demand on the set-up only the memories count. -/
theorem kept (h : s.Sound m v) (hm : t.mem = s.mem) (hb : t.bricks = s.bricks) : t.Sound m Any :=
  ⟨fun hm' => hm ▸ h.mem hm', fun hm' => hb ▸ h.bricks hm', trivial⟩

/-! ### Collectives (R486 to R495) -/

theorem modColl {f : Coll → Coll} (h : s.Sound m v) : (s.modColl key f).Sound m v := h.same rfl rfl rfl

theorem collJoin {cs : List Nat} {x : CollMember} (h : s.Sound m v) : (s.collJoin key cs on x).Sound m v := by
  unfold State.collJoin
  split
  · exact h.modColl
  · exact h.same rfl rfl rfl

theorem collBody {x : CollKind} {o : CollF} (h : s.Sound m v) : (collBody x cmd o s e).Sound m v := by
  unfold Machine.collBody
  refine Ran.Sound.checked h (Ran.Sound.ite ?_ ?_)
  · exact h.forAll fun _ _ hs => hs.sendCtrl
  · exact h.collJoin.forAll fun _ _ hs => hs.sendCtrl

theorem collFault {x : Coll} (h : s.Sound m v) : (s.collFault x n).Sound m v := by
  have hclosed : ((s.sendAborts x n).dropColl x.key).Sound m v := h.sendAborts.dropColl
  unfold State.collFault
  dsimp only
  split
  · exact hclosed
  · refine forAll ?_ fun _ _ hs => hs.raise
    split
    · exact hclosed.faultCmd
    · exact hclosed

theorem sendNodes {x : Coll} {ns : List CollNode} (h : s.Sound m v) : (s.sendNodes x a b ns).Sound m v :=
  h.forAll fun _ _ hs => hs.forAll fun _ _ ht => ht.sendSeq

theorem giveOne (h : s.Sound m v) : (s.giveOne key i).Sound m v := by
  unfold State.giveOne
  split
  · exact h
  split
  · exact h
  split
  · exact h
  split
  · exact h
  refine ite h ?_
  dsimp only
  split
  · exact (h.forAll fun _ _ hs => hs.sendCtrl).modColl
  · split
    · exact h.faultCmd
    · exact h.chargeReads.sendNodes.modColl

theorem finishColl {x : CollMember} {rows : List (List Nat)} (h : s.Sound m v) : (s.finishColl x rows on).Sound m v := by
  unfold State.finishColl
  split
  · exact h
  · split
    · exact h
    · split
      · exact h.modCtx.finish
      · dsimp only
        split
        · exact h.modCtx.faultCmd
        · exact h.modCtx.commit.finish

theorem finishAll {x : Coll} {rows : List (List (List Nat))} (h : s.Sound m v) : (s.finishAll x rows on).Sound m v :=
  h.dropColl.forAll fun _ _ hs => hs.finishColl

theorem pump (h : s.Sound m v) : (s.pump key).Sound m v := by
  unfold State.pump
  split
  · exact h
  · refine ite h (ite h.collFault ?_)
    have hgiven : ∀ l : List Nat, (Machine.forAll l (fun s i => s.giveOne key i)
        (s.modColl key fun c => { c with agreed := true })).Sound m v :=
      fun _ => h.modColl.forAll fun _ _ hs => hs.giveOne
    dsimp only
    split
    · exact hgiven _
    · refine ite ?_ (hgiven _)
      split
      · exact ite (hgiven _).finishAll (hgiven _)
      · exact (hgiven _).finishAll
      · exact hgiven _

theorem takeBlocks (h : s.Sound m v) : (s.takeBlocks loc).Sound m v := by
  unfold State.takeBlocks
  split
  · split
    · exact ite h.faultCmd (ite h.modCtx h.modCtx.modList)
    · exact h
  · exact h

theorem collGo (h : s.Sound m v) : (s.collGo loc).Sound m v := by
  unfold State.collGo
  dsimp only
  split
  · exact h.takeBlocks.pump
  · exact h.takeBlocks

theorem collCommand {x : CollKind} {o : CollF} (h : s.Sound m v) : (collCommand x cmd o s).Sound m v :=
  (h.command fun _ _ hs => hs.collBody).collGo

/-! ### Waking (R541, R543) -/

theorem setPwr {x : PwrSt} (h : s.Sound m v) : (s.setPwr x).Sound m v := h.same rfl rfl rfl

theorem brick (h : s.Sound m v) (hm : m) (b : Nat) : (s.brick b).Wf := by
  unfold State.brick
  rw [List.getD_eq_getElem?_getD]
  cases hb : s.bricks[b]? with
  | none => exact BrickS.fresh_wf
  | some k => exact h.bricks hm k (List.mem_of_getElem? hb)

/-- Bricks that were off come back fresh, the others as they were or changed by `g` (R543). -/
theorem wakeBricks {g : BrickS → BrickS} (h : s.Sound m v) (hg : ∀ k, k.Wf → (g k).Wf) (hm : m) :
    ∀ k ∈ s.wakeBricks g, k.Wf := by
  intro k hk
  obtain ⟨b, -, rfl⟩ := List.mem_map.1 hk
  split
  · exact BrickS.fresh_wf
  · exact hg _ (h.brick hm b)

theorem leaveDoze (h : s.Sound m v) : s.leaveDoze.Sound m v where
  mem := h.mem
  bricks := h.wakeBricks fun _ hk => hk
  setUp := h.setUp

theorem wakeUp (h : s.Sound m v) : s.wakeUp.Sound m v := by
  unfold State.wakeUp
  split
  · refine ite (h.same rfl rfl rfl) ⟨h.mem, fun hm k hk => ?_, h.setUp⟩
    obtain ⟨x, hx, rfl⟩ := List.mem_map.1 hk
    exact (h.bricks hm x hx).undoze
  · exact h.leaveDoze
  · exact h

/-! ### Errors of units (R557, R588) -/

theorem readmitFails (h : s.Sound m v) : (s.readmitFails u).Sound m v := by
  have hout : ∀ x, State.Sound m v { s.setUnit u .retired with repair := x } := fun _ => h.same rfl rfl rfl
  exact raise1 (ite (hout _).modPort (hout _))

theorem unitErr (h : s.Sound m v) : (s.unitErr u n p r).Sound m v := by
  unfold State.unitErr
  dsimp only
  split
  · exact ite h.raiseW.readmitFails h.raiseW
  · exact h.raiseW

theorem portErr (h : s.Sound m v) : (s.portErr a b c d i j k l).Sound m v := h.unitErr

/-! ### Commands that go on after remote accesses (R181, R483) -/

theorem instrBody {x : Instr} (h : s.Sound m v) : (instrBody x s e).Sound m v := by
  unfold Machine.instrBody
  split
  · exact copyBody_sound h
  · exact matBody_sound h
  · exact matBody_sound h
  · exact matBody_sound h
  · exact actBody_sound h
  · exact normBody_sound h
  · exact softBody_sound h
  · exact attnBody_sound h
  · exact gatherBody_sound h
  · exact writeBody_sound h
  · exact convBody_sound h
  · exact poolBody_sound h
  · exact resampBody_sound h
  · exact rngBody_sound h
  · exact reduceBody_sound h
  · exact reduceBody_sound h
  · exact pushBody_sound h
  · exact clipBody_sound h
  · exact productBody_sound h
  · exact voteBody_sound h
  · exact h

theorem remoteDone {x : RemoteOp} (h : s.Sound m v) : (s.remoteDone x).Sound m v := by
  unfold State.remoteDone
  refine ite (h.dropRemote.resume fun _ _ y r hr => ?_) (h.resume fun _ _ y r hr => ?_)
  · split at hr
    · cases hr
      exact h.dropRemote.unpinAll
    · cases hr
  · split at hr
    · cases hr
      exact h.instrBody
    · cases hr

theorem answer (h : s.Sound m v) : (s.answer n bs).1.Sound m v := by
  unfold State.answer
  split
  · exact h
  · exact h.same rfl rfl rfl

theorem answered (h : s.Sound m v) : (s.answered n bs).Sound m v := by
  have ha := h.answer (n := n) (bs := bs)
  unfold State.answered
  split
  · next heq =>
    rw [heq] at ha
    exact ha.remoteDone
  · next heq =>
    rw [heq] at ha
    exact ha

theorem remoteFault (h : s.Sound m v) : (s.remoteFault n k).Sound m v := by
  unfold State.remoteFault
  split
  · exact h
  · split
    · exact h.faultCmd
    · exact h

/-! ### Connections and planes (R475 to R477, R492, R496) -/

theorem xmit1 {op : List Byte} (h : s.Sound m v) : (s.xmit1 on a b c d i j op bs).Sound m v := by
  have hadv : s.advanceTxc.Sound m v := h.of_sansLink s.advanceTxc_sansLink
  unfold State.xmit1
  dsimp only
  split
  · exact ite h h.modPort.emit
  · exact ite hadv hadv.modPort.emit

theorem ackUpTo (h : s.Sound m v) : (s.ackUpTo a b c).Sound m v := by
  unfold State.ackUpTo
  dsimp only
  split
  · exact h
  · exact h.setConn.modPort.forAll fun _ _ hs => hs.answered

theorem resend (h : s.Sound m v) : (s.resend a b c).Sound m v := by
  unfold State.resend
  dsimp only
  split
  · exact h
  · exact ite h.setConn (h.setConn.forAll fun _ _ hs => hs.xmit1)

theorem sendAck (h : s.Sound m v) : (s.sendAck a b).Sound m v := h.setConn.sendCtrl
theorem refuse (h : s.Sound m v) : (s.refuse h' a b).Sound m v := h.sendCtrl
theorem tellUp (h : s.Sound m v) : (s.tellUp p).Sound m v := h.forAll fun _ _ hs => hs.xmit
theorem tellDown (h : s.Sound m v) : (s.tellDown p).Sound m v :=
  h.forAll fun _ _ hs => hs.forAll fun _ _ ht => ht.xmit
theorem cutColls (h : s.Sound m v) : s.cutColls.Sound m v := h.forAll fun _ _ hs => hs.collFault

theorem portOut {x : PortSt} (h : s.Sound m v) : (s.portOut p x on).Sound m v :=
  ite h.modPort (h.modPort.tellDown.forAll fun _ _ hs => hs.resend).cutColls

theorem bound (h : s.Sound m v) : (s.bound p).Sound m v := by
  unfold State.bound
  split
  · refine ite ?_ h.modPort.tellUp
    refine forAll ?_ fun _ _ hs => hs.xmit
    exact h.same rfl rfl rfl
  · exact h.modPort.tellUp

theorem unbound (h : s.Sound m v) : (s.unbound p).Sound m v := ite h.readmitFails (ite h h.modPort.raise)

theorem startPort (h : s.Sound m v) : (s.startPort p).Sound m v := ite h.modPort h

/-! ### Frames that arrive (R474 to R485) -/

theorem receive {g : State → State} (h : s.Sound m v) (hg : ∀ s, s.Sound m v → (g s).Sound m v) :
    (s.receive h' g).Sound m v := ite h (ite h.modPort.portErr (hg _ h.ackUpTo))

theorem inOrder {g : State → State} (h : s.Sound m v) (hg : ∀ s, s.Sound m v → (g s).Sound m v) :
    (s.inOrder h' g).Sound m v := ite (ite (hg _ h.setConn).sendAck (hg _ h.setConn)) h.sendCtrl

theorem check2011 (h : s.Sound m v) : (s.check2011 a n).Sound m v := ite h.raise1 h

theorem serveWrite (h : s.Sound m v) : (serveWrite h' s).Sound m v := by
  unfold Machine.serveWrite
  dsimp only
  split
  · exact h.refuse
  · exact ite h.refuse.check2011 (ite h.storeDev h.storeDev.charge)

theorem serveRead (h : s.Sound m v) : (serveRead h' s).Sound m v := by
  unfold Machine.serveRead
  dsimp only
  split
  · exact h.refuse
  · exact ite h.refuse.check2011 (ite h.refuse (sendSeq (ite h h.charge)))

theorem serveCollData (h : s.Sound m v) : (serveCollData h' s).Sound m v := by
  unfold Machine.serveCollData
  dsimp only
  split
  · exact h
  · exact h.modColl.pump

theorem serveCollCtrl (h : s.Sound m v) : (serveCollCtrl h' s).Sound m v := by
  unfold Machine.serveCollCtrl
  dsimp only
  refine ite (ite h h.collJoin.pump) (ite ?_ (ite h.modColl.pump h))
  split
  · exact h.collFault
  · exact h

theorem replay (h : s.Sound m v) : (s.replay p).Sound m v := ite h (ite h.portOut.portErr h.modPort)

theorem serveNak (h : s.Sound m v) : (serveNak h' s).Sound m v :=
  ite (ite h.ackUpTo.resend h.ackUpTo) (ite h.remoteFault (ite h.replay h))

theorem serveProbe (h : s.Sound m v) : (serveProbe h' s).Sound m v := ite h.xmit h.modPort

theorem servePortState (h : s.Sound m v) : (servePortState h' s).Sound m v := by
  have hplanes : ∀ x, State.Sound m v { s with haw := { s.haw with planes := x } } := fun _ => h.same rfl rfl rfl
  exact ite (hplanes _) (cutColls ((hplanes _).forAll fun _ _ hs => hs.resend))

/-! ### Pauses and timers (R471, R475 to R477) -/

theorem unpause (h : s.Sound m v) : (s.unpause p k).Sound m v := by
  have hctrl : ∀ l : List TxHeld, (Machine.forAll l (fun s f => s.xmit p f.chip f.lane f.type 0 f.job f.op f.data)
      (s.modPort p fun q => { q with held := [] })).Sound m v := fun _ => h.modPort.forAll fun _ _ hs => hs.xmit
  unfold State.unpause
  dsimp only
  refine ite (forAll (ite (hctrl _) h) fun _ _ hs => ?_) (ite (hctrl _) h)
  exact hs.setConn.forAll fun _ _ ht => ht.xmit

theorem lostFrame {f : TxFrame} (h : s.Sound m v) : (s.lostFrame f).Sound m v := by
  refine ite h.remoteFault (ite ?_ h)
  split
  · exact h
  · split
    · exact h
    · split
      · exact h.faultCmd
      · exact h

end State.Sound

end Sys2Proof.Machine
end

section
/-! SUPPORT. What the events of the Hawser links, of memory errors, scrubbing, slices, pseudo-channels and regulators keep
(R359 to R407, R463 to R498, R558 to R560): the memories in canonical form. -/

namespace Sys2Proof.Machine

namespace State.Sound
variable {m : Prop} {v : SetUp → Prop} {s t : State} {a b c d i j k l n p q : Nat} {up on both : Bool} {u : UnitKey}
  {r : ErrRec} {h' : HawFrame} {x : EccSite} {ls : List Nat}

/-! ### Events of the links -/

theorem execLinkTrained (h : s.Sound m v) : Res.Sound m v (execLinkTrained p s) := .ite (.next h.modPort) (.next h)

theorem execLldpSend (h : s.Sound m v) : Res.Sound m v (execLldpSend p s) := .ite (.next h.emit) (.next h)

theorem execLldpReceived (h : s.Sound m v) : Res.Sound m v (execLldpReceived p a b on s) :=
  .ite (.ite (.ite (.next h.modPort) (.next h.modPort.bound)) (.next h.unbound)) (.next h)

theorem execBindingTimeout (h : s.Sound m v) : Res.Sound m v (execBindingTimeout p s) := .ite (.next h.unbound) (.next h)

theorem execHawserLinkLost (h : s.Sound m v) : Res.Sound m v (execHawserLinkLost p s) :=
  .ite (.next h.portOut.portErr) (.next h)

theorem execWrite (h : s.Sound m v) : Res.Sound m v (execWrite h' s) :=
  .next (h.receive fun _ hs => hs.wakeUp.inOrder fun _ ht => ht.serveWrite)

theorem execReadReq (h : s.Sound m v) : Res.Sound m v (execReadReq h' s) :=
  .next (h.receive fun _ hs => hs.wakeUp.inOrder fun _ ht => ht.serveRead)

theorem execReadResp (h : s.Sound m v) : Res.Sound m v (execReadResp h' s) :=
  .next (h.receive fun _ hs => hs.inOrder fun _ ht => ht.answered)

theorem execCollData (h : s.Sound m v) : Res.Sound m v (execCollData h' s) :=
  .next (h.receive fun _ hs => hs.wakeUp.inOrder fun _ ht => ht.serveCollData)

theorem execCollCtrl (h : s.Sound m v) : Res.Sound m v (execCollCtrl h' s) :=
  .next (h.receive fun _ hs => hs.wakeUp.serveCollCtrl)

theorem execAck (h : s.Sound m v) : Res.Sound m v (execAck h' s) := .next (h.receive fun _ hs => hs)

theorem execNak (h : s.Sound m v) : Res.Sound m v (execNak h' s) := .next (h.receive fun _ hs => hs.serveNak.ackUpTo)

theorem execProbe (h : s.Sound m v) : Res.Sound m v (execProbe h' s) := .next (h.receive fun _ hs => hs.serveProbe)

theorem execPortState (h : s.Sound m v) : Res.Sound m v (execPortState h' s) :=
  .next (h.receive fun _ hs => hs.servePortState)

theorem execHawserReservedFrame (h : s.Sound m v) : Res.Sound m v (execHawserReservedFrame p n s) :=
  .ite (.next (h.same rfl rfl rfl)) (.next h)

theorem execPfcPause (h : s.Sound m v) : Res.Sound m v (execPfcPause p k on s) :=
  .ite (.next h) (.ite (.next h.modPort) (.next h.modPort.unpause))

theorem execAckTimer (h : s.Sound m v) : Res.Sound m v (execAckTimer c l s) := .ite (.next h.sendAck) (.next h)

theorem execReplayTimer (h : s.Sound m v) : Res.Sound m v (execReplayTimer p s) := .ite (.next h.replay) (.next h)

theorem execRetransmitTimer (h : s.Sound m v) : Res.Sound m v (execRetransmitTimer c l s) := by
  unfold Machine.execRetransmitTimer
  dsimp only
  split
  · exact .next h
  · exact .ite (.next h) (.ite (.next h.resend) (.next (h.setConn.forAll fun _ _ hs => hs.lostFrame)))

theorem execHawserFcsFailure (h : s.Sound m v) : Res.Sound m v (execHawserFcsFailure p on s) :=
  .ite (.next (ite (ite h.portErr h).xmit (ite h.portErr h))) (.next h)

/-! ### Memory errors (R365, R366, R558 to R560, R646, R647) -/

theorem poisonDev (h : s.Sound m v) : (s.poisonDev a).Sound m v where
  mem hm := Mem.poisonAt_wf (h.mem hm) _
  bricks := h.bricks
  setUp := h.setUp

theorem hbmErr (h : s.Sound m v) : (s.hbmErr a b c d r).Sound m v := by
  have hbucket : ∀ (x : Prop) [Decidable x] (w : Nat),
      (if x then (s.rowSet a b w).bucketAdd (pcUnit a) d else s.rowSet a b w).Sound m v :=
    fun _ _ _ => ite (h.rowSet).bucketAdd h.rowSet
  exact ite (h.rowSet).unitErr (ite (hbucket _ _).raise (ite (hbucket _ _).drew.raise (hbucket _ _).drew.raise))

theorem execEccCorrected (h : s.Sound m v) : Res.Sound m v (execEccCorrected x s) :=
  .ite (.next h) (.ite (.next h.unitErr) (.next h.hbmErr))

theorem execEccUncorrectable (h : s.Sound m v) : Res.Sound m v (execEccUncorrectable x on s) :=
  .ite (.next h) (.ite (.ite (.next h.unitErr) (.next h.poisonDev.unitErr))
    (.ite (.next h.hbmErr) (.next h.poisonDev.hbmErr)))

theorem execTagCopyError (h : s.Sound m v) : Res.Sound m v (execTagCopyError n on s) :=
  .ite (.next h) (.ite (.next h.raise1) (.next h.unitErr))

theorem execObAmEccError (h : s.Sound m v) : Res.Sound m v (execObAmEccError b up on a s) := by
  refine .ite (.next h) (.ite (.next h.unitErr) (.next (unitErr (h.modBrick fun x hx => ?_))))
  split
  · exact ⟨hx.1, Mem.poisonAt_wf hx.2 _⟩
  · exact ⟨Mem.poisonAt_wf hx.1 _, hx.2⟩

theorem execEngineError {loc : Loc} (h : s.Sound m v) : Res.Sound m v (execEngineError b on loc s) := by
  unfold Machine.execEngineError
  refine .ite (.next h) ?_
  dsimp only
  split
  · exact .next h.unitErr
  · exact .ite (.next h.unitErr) (.next h.endList.raiseW)

theorem execPatrolScrub {x : ScrubResult} (h : s.Sound m v) : Res.Sound m v (execPatrolScrub x s) := by
  have hnext : ∀ y, State.Sound m v { s with mortar := y } := fun _ => h.same rfl rfl rfl
  unfold Machine.execPatrolScrub
  refine .ite (.next h) ?_
  dsimp only
  split
  · exact .next (hnext _)
  · exact .next (hnext _).hbmErr
  · refine .ite (.next (hnext _).hbmErr) (.next (hbmErr ?_))
    split
    · exact (hnext _).poisonDev
    · exact hnext _

/-! ### Slices and ways (R394 to R400, R560, R584) -/

theorem retiredRec (h : s.Sound m v) : (s.retiredRec n u p).Sound m v := h.raise

theorem endMove {x : SliceMove} (h : s.Sound m v) : (s.endMove x).Sound m v := by
  have hmoved : ∀ y, State.Sound m v { s with mortar := y } := fun _ => h.same rfl rfl rfl
  refine ite (hmoved _) (retiredRec (setUnit ?_))
  have hways : ∀ l : List Nat, State.Sound m v (Machine.forAll l (fun s w => s.setUnit (wayUnit x.slice w) .retired)
      { s with mortar := { s.mortar with moves := s.mortar.moves.tail } }) :=
    fun _ => (hmoved _).forAll fun _ _ hs => hs.setUnit
  exact (hways _).same rfl rfl rfl

theorem nodeMove (h : s.Sound m v) : (nodeMove ls s).Sound m v := by
  unfold Machine.nodeMove
  split
  · exact h
  · dsimp only
    split
    · exact h.endMove
    · split
      · exact h
      · have hmoved : ∀ (l : List Nat) y, State.Sound m v { s with
            mem := l.foldl (fun (q : Mem) l => (q.poisonAt (2 * l)).poisonAt (2 * l + 1)) s.mem, mortar := y } := by
          refine fun l _ => ⟨fun hm => ?_, h.bricks, h.setUp⟩
          exact List.foldlRecOn (motive := fun q : Mem => q.wf = true) l _ (h.mem hm) fun _ hq _ _ =>
            Mem.poisonAt_wf (Mem.poisonAt_wf hq _) _
        exact ite (hmoved _ _).endMove (hmoved _ _)

theorem execNodeMove (h : s.Sound m v) : Res.Sound m v (execNodeMove ls s) := .ite (.next h.nodeMove) (.next h)

theorem retireSlice (h : s.Sound m v) : (s.retireSlice k).Sound m v := ite h.raise1 (h.same rfl rfl rfl)

theorem retireWay (h : s.Sound m v) : (s.retireWay i).Sound m v := by
  have hout : ∀ w : UnitKey, ((s.setUnit w .retired).retiredRec 0x2032 w 0).Sound m v := fun _ => h.setUnit.retiredRec
  exact ite (ite (hout _).bucketAdd.retireSlice (hout _).bucketAdd) (hout _)

/-! ### Pseudo-channels and rows (R368 to R372) -/

theorem setMigr {x : List Migration} (h : s.Sound m v) : (s.setMigr n x).Sound m v := h.same rfl rfl rfl

theorem retirePc (h : s.Sound m v) : (s.retirePc p).Sound m v := ite h.raise1 h.setUnit.setMigr

theorem chunkCopyDone (h : s.Sound m v) : (chunkCopyDone n s).Sound m v := by
  unfold Machine.chunkCopyDone
  split
  · exact h
  · refine ite h ?_
    split
    · exact h.setMigr.setUnit.retiredRec
    · split
      · exact h
      · have hcopied : ∀ y l, (State.setMigr { s with mortar := y } n l).Sound m v := fun _ _ => h.same rfl rfl rfl
        exact ite (hcopied _ _).setMigr.setUnit.retiredRec (hcopied _ _)

theorem execChunkCopyDone (h : s.Sound m v) : Res.Sound m v (execChunkCopyDone n s) :=
  .ite (.next h.chunkCopyDone) (.next h)

theorem copyBackChunkDone (h : s.Sound m v) : (copyBackChunkDone n s).Sound m v := by
  unfold Machine.copyBackChunkDone
  split
  · exact h
  · refine ite h ?_
    split
    · exact h.setMigr
    · exact ite (h.same rfl rfl rfl) (h.same rfl rfl rfl)

theorem execCopyBackChunkDone (h : s.Sound m v) : Res.Sound m v (execCopyBackChunkDone n s) :=
  .ite (.next h.copyBackChunkDone) (.next h)

theorem repairRow (h : s.Sound m v) : (s.repairRow a b c).Sound m v := by
  have hrow : ∀ x y e, (State.raise (((State.drew { s with mortar := x, flash := y } 1).rowSet a b 0)) e).Sound m v :=
    fun _ _ _ => raise (h.same rfl rfl rfl)
  exact ite (ite (hrow ..).bucketAdd.retirePc (hrow ..).bucketAdd) (hrow ..)

theorem execBucketRefill (h : s.Sound m v) : Res.Sound m v (execBucketRefill n s) :=
  .ite (.next h) (.next (h.same rfl rfl rfl))

end State.Sound

end Sys2Proof.Machine
end

section
/-! SUPPORT. The memories stay canonical in the ingest ports, the fusion unit and the error rings (R408 to R462). -/

namespace Sys2Proof.Machine
namespace State.Sound
variable {m : Prop} {s : State} {n p q x y : Nat} {on : Bool} {hd : Strip} {src : SrcCfg} {bs : List Byte}

/-! ### Epochs (R428 to R431) -/

theorem modStr {g : IngStream → IngStream} (h : s.Sound m Any) : (s.modStr n g).Sound m Any := h.kept rfl rfl

theorem modIport {g : IngPort → IngPort} (h : s.Sound m Any) : (s.modIport q g).Sound m Any := h.kept rfl rfl

theorem modEpoch {g : Epoch → Epoch} (h : s.Sound m Any) : (s.modEpoch n x g).Sound m Any := h.kept rfl rfl

theorem armEpoch (h : s.Sound m Any) : (s.armEpoch p n x y).Sound m Any := h.kept rfl rfl

theorem abandon {g : Epoch → Bool} (h : s.Sound m Any) : (s.abandon n g).Sound m Any := h.kept rfl rfl

theorem abandonPart (h : s.Sound m Any) : (s.abandonPart p).Sound m Any := h.forAll fun _ _ hs => hs.abandon

theorem closeEpoch (h : s.Sound m Any) : (s.closeEpoch n x y).Sound m Any := by
  unfold State.closeEpoch
  split
  · exact h
  · exact ite h (wakeUp (modStr h.modEpoch))

theorem streamErr {a b c d e i : Nat} (h : s.Sound m Any) : (s.streamErr a b c d e i n).Sound m Any := h.raise

theorem iportErr {a b c : Nat} (h : s.Sound m Any) : (s.iportErr q a b c).Sound m Any := h.unitErr

/-! ### Packets (R409 to R421, R427 to R431) -/

theorem dropPkt (h : s.Sound m Any) : (s.dropPkt q n).Sound m Any := h.modIport

theorem storeStrip {f : Frame} (h : s.Sound m Any) : (s.storeStrip n hd src f bs).Sound m Any := h.stores.charge.modEpoch

theorem tabFull (h : s.Sound m Any) : (s.tabFull q n hd).Sound m Any :=
  ite h.dropPkt (streamErr (modStr h.dropPkt))

theorem acceptStrip (h : s.Sound m Any) : (s.acceptStrip q n on hd src bs).Sound m Any := by
  unfold State.acceptStrip
  extract_lets k frame done room
  have hdone : ∀ s f, s.Sound m Any → (done s f).Sound m Any := by
    intro s f hs
    have hstored : (s.storeStrip n hd src f bs).Sound m Any := hs.storeStrip
    dsimp only [done]
    split
    · exact ite (closeEpoch (ite hstored.modEpoch hstored)) (ite hstored.modEpoch hstored)
    · exact ite hstored.modEpoch hstored
  have hroom : room.Sound m Any := by
    refine ite h ?_
    split
    · exact h.closeEpoch
    · exact h
  clear_value frame room done
  split
  · exact hdone _ _ h
  · split
    · exact h.tabFull
    · exact ite (hdone _ _ h.modEpoch) (hdone _ _ (armEpoch hroom.modStr))

theorem epochStrip (h : s.Sound m Any) : (s.epochStrip q n on hd src bs).Sound m Any := by
  unfold State.epochStrip
  extract_lets k t z late
  have hz : z.Sound m Any := by
    dsimp only [z]
    split
    · exact h.modIport
    · exact h
  have hlate : late.Sound m Any := modStr hz.dropPkt
  split
  · exact ite hlate hz.acceptStrip
  · exact ite hlate (ite hz.dropPkt.modStr (ite hz.dropPkt (ite hz.dropPkt (ite hlate hz.acceptStrip))))

theorem classify {pk : Packet} (h : s.Sound m Any) : (s.classify pk hd).Sound m Any := by
  unfold State.classify
  refine ite h.dropPkt.raise ?_
  split
  · exact h.dropPkt
  · extract_lets r multi w z c
    have hz : z.Sound m Any := ite (h.kept rfl rfl) h
    exact ite hz.dropPkt (ite hz.dropPkt (ite hz.dropPkt hz.epochStrip))

theorem latchWake (h : s.Sound m Any) : s.latchWake.Sound m Any := ite h (h.kept rfl rfl)

theorem ingestPacket {pk : Packet} (h : s.Sound m Any) : (ingestPacket pk s).Sound m Any := by
  have hd : (s.dropPkt pk.port 11).Sound m Any := h.dropPkt
  unfold Machine.ingestPacket
  extract_lets asleep good z w w'
  have hw : w.Sound m Any := ite h.wakeUp h
  have hw' : w'.Sound m Any := ite hw.iportErr hw
  refine ite h (ite (ite h (ite hd.latchWake hd)) (ite h (ite (ite hd.wakeUp hd) (ite hw' ?_))))
  split
  · exact hw'.dropPkt
  · exact hw'.classify

theorem execArpRequest {r : ArpReq} (h : s.Sound m Any) : Res.Sound m Any (execArpRequest r s) :=
  .ite (.next h.emit) (.next h)

theorem execIngestLinkUp (h : s.Sound m Any) : Res.Sound m Any (execIngestLinkUp q s) :=
  .ite (.next h.modIport) (.next h)

theorem execIngestLinkLost (h : s.Sound m Any) : Res.Sound m Any (execIngestLinkLost q s) :=
  .ite (.next h.modIport.iportErr) (.next h)

theorem execGatherLimit (h : s.Sound m Any) : Res.Sound m Any (execGatherLimit n x s) := by
  unfold Machine.execGatherLimit
  split
  · exact .ite (.next h.closeEpoch) (.next h)
  · exact .next h

/-! ### Fusion (R432 to R456) -/

theorem fusionErrs {f : Fused} (h : s.Sound m Any) : (s.fusionErrs n x f).Sound m Any := by
  unfold State.fusionErrs
  extract_lets o z w
  have hz : z.Sound m Any := h.forAll fun _ _ hs => hs.streamErr
  have hw : w.Sound m Any := ite hz.streamErr (ite hz.streamErr (ite hz.streamErr hz))
  exact ite hw hw.streamErr

theorem fusionStart (h : s.Sound m Any) : (fusionStart n x s).Sound m Any := by
  unfold Machine.fusionStart
  split
  · exact h
  · refine ite h (fusionErrs (ite (abandon (modStr (modEpoch (ite h h.commit)))) (modEpoch (ite h h.commit))))

theorem epochWritten (h : s.Sound m Any) : (epochWritten n x s).Sound m Any := by
  unfold Machine.epochWritten
  split
  · exact h
  · split
    · exact h
    · extract_lets part ts kept drawn closed
      have hclosed : closed.Sound m Any := modStr (drew (ite h h.commit))
      exact hclosed.kept rfl rfl

theorem execEpochWritten (h : s.Sound m Any) : Res.Sound m Any (execEpochWritten n x s) :=
  .ite (.next h.epochWritten) (.next h)

end State.Sound
end Sys2Proof.Machine
end

section
/-! SUPPORT. The memories stay canonical over the host rings, the start of a list and the resets (R118 to R177, R582, R633). -/

namespace Sys2Proof.Machine
/-- A store whose locations do not count as written keeps the canonical form. -/
theorem Mem.put_unwritten_wf {m : Mem} (h : m.wf = true) (g a : Nat) (bs : List Byte) :
    Mem.wf { m.put g a bs with written := m.written } = true := by
  obtain ⟨hcells, hzero, -, hpoison⟩ := (Mem.wf_iff _).1 (Mem.put_wf h g a bs)
  exact (Mem.wf_iff _).2 ⟨hcells, hzero, ((Mem.wf_iff m).1 h).2.2.1, hpoison⟩

namespace State.Sound
variable {m : Prop} {s t : State} {a b c f k n p q x y : Nat} {on : Bool} {d : Desc} {e : Ending} {r : ErrRec} {u : UnitKey}
  {bs : List Byte}

/-! ### Error rings (R132, R144 to R146) -/

theorem putRec (h : s.Sound m Any) : (s.putRec f r).Sound m Any := msix (emit (h.kept rfl rfl))

theorem loseRec (h : s.Sound m Any) : (s.loseRec f).Sound m Any := h.modPage

theorem writeRec (h : s.Sound m Any) : (s.writeRec f r).1.Sound m Any := by
  unfold State.writeRec
  dsimp only
  split
  · exact h.loseRec
  · split
    · exact h.putRec
    · split
      · exact h.modPage
      · exact h.loseRec

theorem flushRecs : ∀ (k : Nat) {s : State}, s.Sound m Any → (State.flushRecs f k s).Sound m Any
  | 0, _, h => h
  | k + 1, s, h => by
    unfold State.flushRecs
    split
    · exact h
    · exact ite h (flushRecs k h.modPage.putRec)

/-! ### Sweeps and descriptors (R118 to R138) -/

theorem ringError (h : s.Sound m Any) : (s.ringError f n a b c k).Sound m Any := raise h.modSq

theorem sweepRing (h : s.Sound m Any) : (sweepRing f n p s).Sound m Any := by
  unfold Machine.sweepRing
  dsimp only
  split
  · exact h.modSq
  · exact ite h.modSq h.modSq
  · exact ite h.modSq.ringError h.modSq

theorem execDoorbellSweep (h : s.Sound m Any) : Res.Sound m Any (execDoorbellSweep f bs s) := by
  refine .next (ite h (forAll (flushRecs 16 (forAll h.modPage ?_)) fun _ _ hs => hs.sweepRing))
  exact fun _ _ hs => hs.modPage

theorem joinChain (h : s.Sound m Any) : (s.joinChain f n d).Sound m Any := ite h (ite (h.kept rfl rfl) (h.kept rfl rfl))

theorem dropChain (h : s.Sound m Any) : (s.dropChain f n).Sound m Any := h.kept rfl rfl

theorem bindSlot (h : s.Sound m Any) : (s.bindSlot f n d).Sound m Any := by
  unfold State.bindSlot
  split
  · exact h
  · exact h.putSlot

theorem execDescriptorFetch (h : s.Sound m Any) : Res.Sound m Any (execDescriptorFetch f n bs s) :=
  .next (ite h (modSq (ite h.wakeUp.joinChain.bindSlot h.wakeUp.joinChain)))

theorem letRun {x : Option Ending} (h : s.Sound m Any) : (s.letRun f n d x).Sound m Any := h.modSq

/-- The head of a ring that starts is only moved within its ring. -/
theorem starting {z : State × Desc} (h : s.Sound m Any) (hz : s.starting f n k = some z) : z.1.Sound m Any := by
  unfold State.starting at hz
  split at hz
  · split at hz
    · split at hz
      · cases hz
        exact h.letRun
      · cases hz
    · cases hz
  · cases hz

theorem okDesc (h : s.Sound m Any) : (s.okDesc f n k).Sound m Any := h.endDesc

theorem malDesc (h : s.Sound m Any) : (s.malDesc f n k).Sound m Any := h.endDesc

theorem faultDesc (h : s.Sound m Any) : (s.faultDesc f n r k).Sound m Any := by
  unfold State.faultDesc
  split
  · exact h
  · exact h.endDesc.raise

theorem execNop (h : s.Sound m Any) : Res.Sound m Any (execNop f n s) := by
  unfold Machine.execNop
  split
  · next hz => exact .next (h.starting hz).okDesc
  · exact .next h

theorem execRunList (h : s.Sound m Any) : Res.Sound m Any (execRunList f n s) := by
  unfold Machine.execRunList
  split
  · next hz => exact .ite (.next (h.starting hz).malDesc) (.next (h.starting hz))
  · exact .next h

/-! ### HOST_COPY (R135, R143) -/

theorem moveCopy (h : s.Sound m Any) : (s.moveCopy f d n bs).Sound m Any := by
  unfold State.moveCopy
  extract_lets z w v
  have hz : z.Sound m Any := h.forAll fun _ _ hs => hs.emit
  have hw : w.Sound m Any := h.forAll fun _ _ hs => hs.emit
  exact ite h (ite hz.storeDev.charge (charge (ite hw hw.emit)))

theorem failCopy (h : s.Sound m Any) : (s.failCopy f n d k bs a b).Sound m Any := faultDesc (ite h h.moveCopy)

theorem hostCopy (h : s.Sound m Any) : (s.hostCopy f n d bs).Sound m Any := by
  unfold State.hostCopy
  split
  · exact h.faultDesc
  · split
    · exact h.faultDesc
    · split
      · exact h.moveCopy.faultDesc
      · exact h.moveCopy.okDesc

theorem execHostCopy (h : s.Sound m Any) : Res.Sound m Any (execHostCopy f n bs s) := by
  unfold Machine.execHostCopy
  split
  · next hz => exact .next (h.starting hz).hostCopy
  · exact .next h

theorem failHio1 {ps : List Progress} (h : s.Sound m Any) : (s.failHio1 k ps).Sound m Any := by
  unfold State.failHio1
  extract_lets z
  have hz : z.Sound m Any := by
    refine h.forAll fun s x hs => ?_
    split
    · next hc => exact ite hs (hs.starting hc).failCopy
    · exact hs
  exact hz.kept rfl rfl

theorem hostFails {x : HostReq} (h : s.Sound m Any) : (s.hostFails f n x a b).Sound m Any := by
  unfold State.hostFails
  split
  · split
    · next hc => exact (h.starting hc).failCopy
    · split
      · next hz => exact (h.starting hz).faultDesc
      · exact h
  · exact ite h.ringError h
  · exact ite (h.forAll fun _ _ hs => hs.ringError) h

/-! ### Waits and completions (R131 to R142, R149, R456) -/

theorem execWaitRing (h : s.Sound m Any) : Res.Sound m Any (execWaitRing f n s) := by
  unfold Machine.execWaitRing
  split
  · next hz => exact .ite (.next (h.starting hz).malDesc) (.ite (.next (h.starting hz).okDesc) (.next (h.starting hz)))
  · exact .next h

theorem endWait {x : ClosedEpoch} (h : s.Sound m Any) : (s.endWait f n d x).Sound m Any := ite h.faultDesc h.endDesc

theorem execWaitEpoch (h : s.Sound m Any) : Res.Sound m Any (execWaitEpoch f n s) := by
  unfold Machine.execWaitEpoch
  split
  · next hz =>
    refine .ite (.next (h.starting hz).faultDesc) ?_
    split
    · exact .next (h.starting hz).endWait
    · exact .next (h.starting hz)
  · exact .next h

theorem execTimestamp (h : s.Sound m Any) : Res.Sound m Any (execTimestamp f n s) := by
  unfold Machine.execTimestamp
  split
  · next hz => exact .next (h.starting hz).emit.okDesc
  · exact .next h

theorem dueNow (h : s.Sound m Any) : (s.dueNow f n).Sound m Any := by
  unfold State.dueNow
  split
  · refine ite (ite h.okDesc h) (ite ?_ h)
    split
    · exact h.endWait
    · exact h
  · exact h
  · split
    · split
      · exact h.letRun
      · exact h
    · exact h

theorem signal (h : s.Sound m Any) : (s.signal f n).Sound m Any := h.modPage.msix

theorem putCompletion (h : s.Sound m Any) : (s.putCompletion f n d e on).Sound m Any :=
  ite h.emit.modPage (ite h.emit.modPage.signal h.emit.modPage)

theorem retireDesc (h : s.Sound m Any) : (s.retireDesc f n d e).Sound m Any := by
  unfold State.retireDesc
  extract_lets ended chained freed dropped
  have hfreed : freed.Sound m Any := freeSlots (ite h.modSq h.modSq.abortChain)
  have hdropped : dropped.Sound m Any := ite hfreed.dropChain hfreed
  exact hdropped.kept rfl rfl

theorem complete (h : s.Sound m Any) : (s.complete f n).Sound m Any := by
  unfold State.complete
  split
  · refine ite ?_ h
    extract_lets z
    have hz : z.Sound m Any := by
      dsimp only [z]
      split
      · exact h.missSlot
      · exact h
    clear_value z
    split
    · exact ite (retireDesc (ite hz hz.putCompletion)) hz
    · exact hz
  · exact h

theorem execCompletionWrite (h : s.Sound m Any) : Res.Sound m Any (execCompletionWrite f n s) :=
  .ite (.next h.dueNow.complete) (.next h)

theorem execIrqTimer (h : s.Sound m Any) : Res.Sound m Any (execIrqTimer f n s) := .ite (.next h.signal) (.next h)

theorem unmask (h : s.Sound m Any) : (s.unmask f n).Sound m Any := ite h.modPage.emit h.modPage

theorem execMsixUnmask (h : s.Sound m Any) : Res.Sound m Any (execMsixUnmask f n s) := .ite (.next h) (.next h.unmask)

/-! ### List start (R163 to R177) -/

theorem bindEntry {z : Nat × Nat × Nat} (h : s.Sound m Any) : (s.bindEntry f n k d z).Sound m Any := by
  unfold State.bindEntry
  split
  · exact h
  · exact h.putSlot

theorem startFault (h : s.Sound m Any) : (s.startFault f n d k).Sound m Any := h.faultList

theorem startList {z : Plan} (h : s.Sound m Any) : (s.startList f n d z).Sound m Any :=
  tryComplete (forAll (h.kept rfl rfl) fun _ _ hs => hs.bindEntry)

theorem listStart (h : s.Sound m Any) : (listStart f n s).Sound m Any := by
  unfold Machine.listStart
  split
  · refine ite h ?_
    split
    · exact h.startFault
    · exact ite h.wakeUp.startList h
  · exact h

/-! ### Partition resets and drains (R153 to R157, R543, R582, R584) -/

theorem modPart {g : Partition → Partition} (h : s.Sound m Any) : (s.modPart n g).Sound m Any := h.kept rfl rfl

theorem resetRing (h : s.Sound m Any) : (resetRing f n on s).Sound m Any := by
  unfold Machine.resetRing
  split
  · exact h
  · dsimp only
    split
    · exact ite h.endList.putCompletion h.endList
    · exact h.endList

theorem clearWork (h : s.Sound m Any) : (s.clearWork n).Sound m Any := (abandonPart (p := n) h).kept rfl rfl

theorem endReset (h : s.Sound m Any) : (s.endReset n).Sound m Any := ite (modPart (ite h.modPage h)) h

theorem partReset (h : s.Sound m Any) : (s.partReset n on).Sound m Any := by
  unfold State.partReset
  extract_lets rings cleared silenced drains
  have hrings : rings.Sound m Any := h.forAll fun _ _ hs => hs.resetRing
  have hcleared : cleared.Sound m Any := hrings.clearWork.modPage
  have hsilenced : silenced.Sound m Any := ite hcleared.modPage hcleared
  have hdrains : drains.Sound m Any := by
    refine hsilenced.forAll fun _ _ hs => hs.modBrick fun k hk => ?_
    split
    · exact hk
    · exact hk
  exact ite (ite h.modPart.modPage h) hdrains.modPart.endReset

theorem dozeDone (h : s.Sound m Any) : s.dozeDone.Sound m Any := ite (ite h.setPwr.leaveDoze h.setPwr) h

theorem brickGone (h : s.Sound m Any) : (s.brickGone b).Sound m Any := by
  have hgone : ((s.modBrick b fun k => { k.fresh with powered := false }).setUnit (brickUnit b) .retired).Sound m Any :=
    setUnit (h.modBrick fun _ _ => BrickS.fresh_wf)
  unfold State.brickGone
  dsimp only
  split
  · exact hgone.raise
  · exact hgone.forAll fun _ _ hs => hs.raise

theorem drained (h : s.Sound m Any) : (drained b s).Sound m Any := by
  unfold Machine.drained
  split
  · exact h
  · exact dozeDone (h.modBrick fun _ hk => hk)
  · exact endReset (h.modBrick fun _ _ => BrickS.fresh_wf)
  · exact h.brickGone

theorem execStoreDrain (h : s.Sound m Any) : Res.Sound m Any (execStoreDrain b s) := .ite (.next h.drained) (.next h)

/-- Locations of device memory are poisoned. -/
theorem poisonAll {ls : List Nat} (h : s.Sound m Any) : State.Sound m Any { s with mem := ls.foldl Mem.poisonAt s.mem } where
  mem hm := List.foldlRecOn ls Mem.poisonAt (h.mem hm) fun (w : Mem) (hw : w.wf = true) l _ => Mem.poisonAt_wf hw l
  bricks := h.bricks
  setUp := trivial

theorem dropStores {ls : List Nat} (h : s.Sound m Any) : (s.dropStores b ls).Sound m Any :=
  ite h.poisonAll h.poisonAll.raise1

theorem undozed (h : s.Sound m Any) : State.Sound m Any { s with bricks := s.wakeBricks BrickS.undoze } where
  mem := h.mem
  bricks hm := h.wakeBricks (fun _ hk => hk.undoze) hm
  setUp := trivial

theorem execDrainTimeout {ls : List Nat} (h : s.Sound m Any) : Res.Sound m Any (execDrainTimeout b ls s) := by
  refine .ite (.next ?_) (.next h)
  unfold Machine.drainTimeout
  split
  · exact h
  · exact raise1 (ite h.undozed.setPwr h.undozed.setPwr)
  · exact h.dropStores.drained

/-! ### The warm reset (R63, R582, R587, R611, R633) -/

/-- What a dropped line's bytes hold is written as if nothing had been. -/
theorem loseLine (h : s.Sound m Any) : (s.loseLine n).Sound m Any where
  mem hm := Mem.put_unwritten_wf (h.mem hm) _ _ _
  bricks := h.bricks
  setUp := trivial

theorem warmClear (h : s.Sound m Any) : s.warmClear.Sound m Any := h.forAll fun _ _ hs => hs.wipeDev

theorem unitBack (h : s.Sound m Any) : (s.unitBack u).Sound m Any := by
  unfold State.unitBack
  extract_lets z ws w
  have hw : w.Sound m Any := h.setUnit.bucketClear.forAll fun _ _ hs => hs.setUnit
  exact ite h.setUnit.bucketClear (hw.kept rfl rfl)

theorem warmUnits {us : List UnitKey} (h : s.Sound m Any) : (s.warmUnits us).Sound m Any :=
  h.forAll fun _ _ hs => ite hs.setUnit hs.unitBack

theorem warmReadmit (h : s.Sound m Any) : s.warmReadmit.Sound m Any := by
  unfold State.warmReadmit
  extract_lets z
  have hz : z.Sound m Any := by
    dsimp only [z]
    split
    · exact ite h.setUnit h
    · exact h
  exact hz.kept rfl rfl

theorem warmNodes (h : s.Sound m Any) : s.warmNodes.Sound m Any := by
  unfold State.warmNodes
  extract_lets x z
  have hz : z.Sound m Any := h.kept rfl rfl
  refine ite hz.raise1 (hz.forAll fun s k hs => ?_)
  split
  · exact hs.kept rfl rfl
  · exact hs

theorem warmState (h : s.Sound m Any) : (s.warmState n).Sound m Any where
  mem := h.mem
  bricks _ := List.forall_mem_map.2 fun _ _ => BrickS.fresh_wf
  setUp := trivial

theorem warmReset {w : WarmIn} (h : s.Sound m Any) : (warmReset w s).Sound m Any := by
  unfold Machine.warmReset
  extract_lets released lost lined ls cleared warmed told awake
  have hlined : lined.Sound m Any := h.releasePins.forAll fun _ _ hs => hs.loseLine
  have hcleared : cleared.Sound m Any := warmClear hlined.poisonAll
  have hwarmed : warmed.Sound m Any := hcleared.warmReadmit.warmUnits.warmState.warmNodes
  have htold : told.Sound m Any := ite hwarmed hwarmed.raise1
  exact deviceEvent (ite htold.latchWake htold.setPwr)

theorem warm {w : WarmIn} (h : s.Sound m Any) : (s.warm w).Sound m Any := ite h.warmReset h

end State.Sound
end Sys2Proof.Machine
end

section
/-! SUPPORT. The memories stay canonical over the error handler and the warden (R517 to R590). -/

namespace Sys2Proof.Machine
namespace State.Sound
variable {m : Prop} {s t : State} {a b c f i k n p q x y : Nat} {on : Bool} {r : ErrRec} {u : UnitKey} {w : Word}

/-! ### Records and the DEVICE sequence (R562, R572, R573) -/

theorem noteRec {x : ErrScope} {i : Option Nat} (h : s.Sound m Any) : (s.noteRec x i).Sound m Any := by
  unfold State.noteRec
  split
  · exact h
  · exact h.modSq
  · exact h.modSq

theorem deliver {x : ErrScope} (h : s.Sound m Any) : (s.deliver r x).Sound m Any :=
  noteRec (ite h.writeRec.writeRec h.writeRec)

theorem fatal (h : s.Sound m Any) : s.fatal.Sound m Any := h.kept rfl rfl

theorem halted {x : Phase} (h : s.Sound m Any) : (s.halted x).Sound m Any := h.kept rfl rfl

theorem lastGasp (h : s.Sound m Any) : (s.lastGasp a b c k u).Sound m Any := h.kept rfl rfl

theorem deviceEnd {l : RunningList} {is : List (Nat × Option Nat)} (h : s.Sound m Any) :
    (s.deviceEnd n is l).Sound m Any := by
  unfold State.deviceEnd
  dsimp only
  split
  · exact ite h.endList.putCompletion h.endList
  · exact h.endList

/-- The record of a DEVICE fault in every ring. -/
theorem writeRecs {g : Nat → ErrRec} {l : List Nat} {is : List (Nat × Option Nat)} (h : s.Sound m Any) :
    (l.foldl (fun (a : State × List (Nat × Option Nat)) n =>
      let w := a.1.writeRec n (g n)
      (w.1, a.2 ++ [(n, w.2)])) (s, is)).1.Sound m Any := by
  induction l generalizing s is with
  | nil => exact h
  | cons n l ih => exact ih h.writeRec

theorem device (h : s.Sound m Any) : (s.device r).Sound m Any := by
  unfold State.device
  extract_lets k ws ended
  have hws : ws.1.Sound m Any := writeRecs h
  have hended : ended.Sound m Any := hws.forAll fun _ _ hs => hs.deviceEnd
  exact halted (fatal (hended.forAll fun _ _ hs => hs.sendAborts.dropColl))

/-! ### Retirement and handling (R552 to R570, R584 to R586) -/

theorem retireBrick (h : s.Sound m Any) : (s.retireBrick b).Sound m Any := by
  unfold State.retireBrick
  extract_lets marked ended was drains
  have hended : ended.Sound m Any := h.setUnit.forAll fun _ _ hs => hs.endList
  have hdrains : drains.Sound m Any := hended.modBrick fun _ hk => hk
  clear_value was drains
  refine ite ?_ hended.brickGone
  split
  · exact hdrains.endReset
  · exact hdrains.dozeDone
  · exact hdrains

theorem dropReadmit (h : s.Sound m Any) : (s.dropReadmit u).Sound m Any := by
  unfold State.dropReadmit
  split
  · exact ite (h.kept rfl rfl) h
  · exact h

theorem retire (h : s.Sound m Any) : (s.retire u x p).Sound m Any := by
  have hd : (s.dropReadmit u).Sound m Any := h.dropReadmit
  exact ite hd.retireBrick (ite hd.retireWay (ite hd.retireSlice (ite hd.repairRow (ite hd.retirePc
    (ite hd.setUnit.portOut.retiredRec (ite hd.setUnit.modIport.retiredRec hd))))))

theorem consequence {e : ErrEvt} (h : s.Sound m Any) : (s.consequence e).Sound m Any := by
  have hr := ite (c := s.retires e = true) (h.retire (u := e.unit) (x := e.row) (p := e.rec0.part)) h
  have hu := ite (c := e.unit.kind = 1 ∧ e.rec0.permanent = true) (hr.setUnit (u := e.unit) (x := .retired)) hr
  refine ite ?_ hr
  split
  · exact ite hu.partReset hu
  · exact hu

theorem nextError (h : s.Sound m Any) : s.nextError.Sound m Any := h.kept rfl rfl

theorem errorHandle (h : s.Sound m Any) : (errorHandle s).Sound m Any := by
  unfold Machine.errorHandle
  split
  · exact h
  · exact ite h.device h.deliver.nextError.consequence

theorem execErrorHandle (h : s.Sound m Any) : Res.Sound m Any (execErrorHandle s) := .ite (.next h.errorHandle) (.next h)

theorem execHandlerTimeout (h : s.Sound m Any) : Res.Sound m Any (execHandlerTimeout s) := by
  unfold Machine.execHandlerTimeout
  split
  · exact .next h
  · exact .ite (.next h.lastGasp.fatal.halted) (.next h)

theorem execBucketLeak (h : s.Sound m Any) : Res.Sound m Any (execBucketLeak u x s) := .ite (.next h.rowSet) (.next h.bucketAdd)

theorem setStatus (h : s.Sound m Any) : (s.setStatus n).Sound m Any := h.kept rfl rfl

theorem retireReq (h : s.Sound m Any) : (s.retireReq w).Sound m Any :=
  ite h.setStatus (ite h.setStatus (ite h.setStatus (ite h.setStatus h.setStatus.retire)))

theorem readmitReq (h : s.Sound m Any) : (s.readmitReq w).Sound m Any :=
  ite h.setStatus (ite h.setStatus (ite h.setStatus (ite h.setStatus (h.kept rfl rfl))))

/-! ### Readmission (R587 to R590) and deadlines -/

theorem setReadmit {x : Option Readmit} (h : s.Sound m Any) : (s.setReadmit x).Sound m Any := h.kept rfl rfl

theorem advanceTxc (h : s.Sound m Any) : s.advanceTxc.Sound m Any := h.of_sansLink s.advanceTxc_sansLink

theorem zeroise (h : s.Sound m Any) : (s.zeroise u).Sound m Any :=
  ite (setReadmit (h.modBrick fun _ _ => BrickS.fresh_wf)) (ite h.modPort.advanceTxc.setReadmit h.setReadmit)

theorem execSelfTestDone (h : s.Sound m Any) : Res.Sound m Any (execSelfTestDone on s) := by
  unfold Machine.execSelfTestDone
  split
  · exact .ite (.next h) (.ite (.next h.zeroise) (.next h.readmitFails))
  · exact .next h

theorem execProbationEnd (h : s.Sound m Any) : Res.Sound m Any (execProbationEnd on s) := by
  refine .ite (.next ?_) (.next h)
  unfold Machine.probationEnd
  split
  · exact ite h.readmitFails (ite h (ite h.readmitFails h.setReadmit))
  · exact h

theorem offer (h : s.Sound m Any) : (s.offer u).Sound m Any := by
  unfold State.offer
  extract_lets z ways back y st cs
  have hback : back.Sound m Any := h.forAll fun _ _ hs => hs.setUnit
  exact ite (h.kept rfl rfl) (ite (hback.kept rfl rfl) (ite h.setMigr (ite h.modPort.tellUp (ite h.modIport h))))

theorem execHandOver (h : s.Sound m Any) : Res.Sound m Any (execHandOver s) := by
  refine .ite (.next ?_) (.next h)
  unfold Machine.handOver
  split
  · exact ite h h.setReadmit.setUnit.bucketClear.offer.raise1
  · exact h

theorem execDeadlineTest (h : s.Sound m Any) : Res.Sound m Any (execDeadlineTest s) :=
  .ite (.next (h.deadlineTests _)) (.next h)

theorem execFlrVf (h : s.Sound m Any) : Res.Sound m Any (execFlrVf n s) := .ite (.next h.partReset) (.next h)

/-! ### Sensors (R521 to R533) -/

theorem alert (h : s.Sound m Any) : s.alert.Sound m Any := by
  unfold State.alert
  extract_lets x z
  have hz : z.Sound m Any := deviceEvent (h.kept rfl rfl)
  exact ite hz.wakeUp hz

theorem wardenErr (h : s.Sound m Any) : (s.wardenErr r).Sound m Any := h.alert.raise

theorem modSensor {g : Sensor → Sensor} (h : s.Sound m Any) : (s.modSensor i g).Sound m Any := h.kept rfl rfl

theorem sensorFails (h : s.Sound m Any) : (s.sensorFails i).Sound m Any := ite h.modSensor.wardenErr h.modSensor

theorem modBp {g : BrickPower → BrickPower} (h : s.Sound m Any) : (s.modBp b g).Sound m Any := h.kept rfl rfl

theorem setRails (h : s.Sound m Any) : (s.setRails n).Sound m Any := ite h (h.kept rfl rfl)

theorem emergency (h : s.Sound m Any) : (s.emergency c r).Sound m Any :=
  setRails (wardenStop (h.forAll fun _ _ hs => hs.writeRec))

theorem droop (h : s.Sound m Any) : (s.droop x y).Sound m Any :=
  wardenErr (ite (h.modSensor.forAll fun _ _ hs => hs.modBp) h.modSensor)

theorem liftVolt (h : s.Sound m Any) : (s.liftVolt c).Sound m Any := h.forAll fun _ _ hs => hs.modBp

theorem checkVolt (h : s.Sound m Any) : (s.checkVolt x).Sound m Any :=
  ite h.modSensor.emergency (ite (ite h.modSensor.droop h.modSensor).liftVolt (ite h.modSensor.droop h.modSensor))

theorem execSensorSample (h : s.Sound m Any) : Res.Sound m Any (execSensorSample i x s) := by
  refine .next ?_
  unfold Machine.sensorSample
  refine ite h ?_
  split
  · exact ite h.modSensor h.modSensor.checkVolt
  · exact ite h.modSensor.sensorFails h.modSensor

/-! ### Pairs (R525 to R529) -/

theorem modPair {g : Pair → Pair} (h : s.Sound m Any) : (s.modPair p g).Sound m Any := h.kept rfl rfl

theorem noTrust (h : s.Sound m Any) : (s.noTrust n).Sound m Any := h.wardenErr

theorem testPair (h : s.Sound m Any) : (s.testPair p).Sound m Any := by
  unfold State.testPair
  dsimp only
  split
  · exact h.modPair.noTrust
  · exact ite h.modPair.sensorFails (ite h.modPair.sensorFails h.modPair.noTrust)

theorem stepPair (h : s.Sound m Any) : (s.stepPair p).Sound m Any :=
  ite h.modPair (ite (ite h.modPair.testPair h.modPair) h.modPair.modPair)

/-! ### Levels and power (R530 to R539, R550) -/

theorem avsWrite (h : s.Sound m Any) : (s.avsWrite x y).Sound m Any := h.kept rfl rfl

theorem lowerRails (h : s.Sound m Any) : s.lowerRails.Sound m Any := by
  unfold State.lowerRails
  split
  · exact h
  · split
    · exact h.avsWrite
    · exact h

theorem startChange (h : s.Sound m Any) : (s.startChange b n).Sound m Any :=
  ite h.modBp (ite (ite h.modBp (ite h.modBp.avsWrite h)) h)

theorem execLevelChange (h : s.Sound m Any) : Res.Sound m Any (execLevelChange b s) := by
  refine .ite (.next ?_) (.next h)
  unfold Machine.levelChange
  dsimp only
  split
  · exact h
  · exact ite h.modBp.lowerRails (ite h.modBp.lowerRails h)

theorem execAvsResponse (h : s.Sound m Any) : Res.Sound m Any (execAvsResponse on s) := by
  have hwdn : ∀ x, State.Sound m Any { s with wdn := x } := fun _ => h.kept rfl rfl
  refine .ite (.next ?_) (.next h)
  unfold Machine.avsResponse
  split
  · exact h
  · exact ite (hwdn _) (ite (hwdn _).emit (wardenErr (ite ((hwdn _).forAll fun _ _ hs => hs.modBp) (hwdn _))))

theorem railFails {rs : List RailRead} (h : s.Sound m Any) : (s.railFails rs).Sound m Any :=
  h.forAll fun _ _ hs => hs.wardenErr

theorem spike (h : s.Sound m Any) : s.spike.Sound m Any := wardenErr (h.forAll fun _ _ hs => hs.modBp.startChange)

theorem execPowerEstimate {rs : List RailRead} (h : s.Sound m Any) : Res.Sound m Any (execPowerEstimate rs n s) := by
  have hwdn : ∀ x, State.Sound m Any { s with wdn := x } := fun _ => h.kept rfl rfl
  exact .ite (.next (ite (hwdn _).railFails.spike (hwdn _).railFails)) (.next h)

/-! ### The decision period (R531) -/

theorem tellDies {l : List Nat} (h : s.Sound m Any) : (s.tellDies a b c l).Sound m Any := h.forAll fun _ _ hs => hs.wardenErr

theorem thermalStep (h : s.Sound m Any) : (s.thermalStep b).Sound m Any := h.modBp

theorem thermal (h : s.Sound m Any) : s.thermal.Sound m Any := by
  have hmarked : ∀ x y, State.Sound m Any { s with wdn := x, mortar := y } := fun _ _ => h.kept rfl rfl
  exact tellDies (tellDies (tellDies ((hmarked _ _).forAll fun _ _ hs => hs.thermalStep)))

theorem powerStep (h : s.Sound m Any) : s.powerStep.Sound m Any :=
  ite h (ite h.modBp (ite (h.forAll fun _ _ hs => hs.modBp) h))

theorem budgetStep (h : s.Sound m Any) : s.budgetStep.Sound m Any := by
  have hwdn : ∀ x, State.Sound m Any { s with wdn := x } := fun _ => h.kept rfl rfl
  exact ite (hwdn _).wardenErr (hwdn _)

theorem levels (h : s.Sound m Any) : s.levels.Sound m Any := by
  unfold State.levels
  extract_lets g z
  have hz : z.Sound m Any := h.forAll fun _ _ hs => hs.startChange
  exact hz.lowerRails

theorem decisionPeriod (h : s.Sound m Any) : (decisionPeriod s).Sound m Any := by
  unfold Machine.decisionPeriod
  extract_lets pairs none0 w1 temps told w2 hot
  have hpairs : pairs.Sound m Any := h.forAll fun _ _ hs => hs.stepPair
  clear_value pairs
  have htemps : temps.Sound m Any := hpairs.kept rfl rfl
  have htold : told.Sound m Any := htemps.forAll fun _ _ hs => hs.noTrust
  clear_value told
  have hhot : hot.Sound m Any := htold.kept rfl rfl
  clear_value hot
  split
  · exact hhot.emergency
  · exact ite hhot.thermal.powerStep.levels.budgetStep hhot

theorem execDecisionPeriod (h : s.Sound m Any) : Res.Sound m Any (execDecisionPeriod s) :=
  .ite (.next h.decisionPeriod) (.next h)

theorem execWardenWatchdog (h : s.Sound m Any) : Res.Sound m Any (execWardenWatchdog s) :=
  .ite (.next (wardenErr (h.forAll fun _ _ hs => hs.modBp))) (.next h)

/-! ### Power states (R540 to R548) -/

theorem execIdleTimeout (h : s.Sound m Any) : Res.Sound m Any (execIdleTimeout s) := .ite (.next h.setPwr) (.next h)

theorem enterDoze (h : s.Sound m Any) : s.enterDoze.Sound m Any := by
  refine dozeDone ⟨h.mem, fun hm => List.forall_mem_map.2 fun k hk => ?_, trivial⟩
  split
  · exact h.bricks hm k hk
  · exact h.bricks hm k hk

theorem execDozeTimeout (h : s.Sound m Any) : Res.Sound m Any (execDozeTimeout s) := .ite (.next h.enterDoze) (.next h)

theorem setTime {x : TimeSt} (h : s.Sound m Any) : (s.setTime x p).Sound m Any := by
  have htime : ∀ y, (State.deviceEvent { s with time := y }).Sound m Any := fun _ => deviceEvent (h.kept rfl rfl)
  exact ite h (ite (htime _).raise (ite (htime _).raise (htime _)))

theorem loseSync (h : s.Sound m Any) : s.loseSync.Sound m Any := by
  have htime : (s.setTime s.time.st.toWarden 0).Sound m Any := h.setTime
  exact htime.kept rfl rfl

theorem enterWarden (s : State) : s.enterWarden.Sound m Any :=
  setRails (setPwr ⟨fun _ => Mem.empty_wf, fun _ => List.forall_mem_map.2 fun _ _ => BrickS.fresh_wf, trivial⟩)

theorem execWardenTimeout (h : s.Sound m Any) : Res.Sound m Any (execWardenTimeout s) :=
  .ite (.next (enterWarden s)) (.next h)

theorem enterOff (h : s.Sound m Any) : s.enterOff.Sound m Any := by
  have hoff : ((s.setPwr .off).setRails 0).Sound m Any := h.setPwr.setRails
  exact hoff.kept rfl rfl

theorem powerReq (h : s.Sound m Any) : (s.powerReq on).Sound m Any := by
  have hwdn : ∀ x, State.Sound m Any { s with wdn := x } := fun _ => h.kept rfl rfl
  exact ite (hwdn _) (ite (hwdn _).enterOff (ite (hwdn _) (enterWarden _)))

theorem execHostWakeRequest (h : s.Sound m Any) : Res.Sound m Any (execHostWakeRequest p on s) :=
  .ite (.next h) (.ite (.next (ite h.latchWake h)) (.ite (.next h.wakeUp) (.next h)))

theorem execWakeTime (h : s.Sound m Any) : Res.Sound m Any (execWakeTime s) :=
  .ite (.next (ite h.latchWake (ite h.wakeUp h))) (.next h)

theorem execThermTrip (h : s.Sound m Any) : Res.Sound m Any (execThermTrip n s) := .ite (.next h) (.next (h.kept rfl rfl))

theorem execPowerLoss (h : s.Sound m Any) : Res.Sound m Any (execPowerLoss s) :=
  .ite (.next (h.kept rfl rfl))
    (.next ⟨fun _ => Mem.empty_wf, fun _ => List.forall_mem_map.2 fun _ _ => BrickS.fresh_wf, trivial⟩)

end State.Sound
end Sys2Proof.Machine
end

section
/-! SUPPORT. The memories stay canonical over the boot sequence and the return from WARDEN (R63 to R97, R467 to R469, R547,
R594). -/

namespace Sys2Proof.Machine
namespace State.Sound
variable {m : Prop} {s t : State} {a b c d f i k n p q x y : Nat} {on up : Bool} {r : ErrRec} {u : UnitKey} {w : Word}
  {bk : Bank} {bi : BootIn} {wi : WarmIn} {ps : List Progress} {bs : List Byte} {sg : Signer}

/-! ### Images and banks (R68 to R82, R594, R648) -/

theorem extendMr (h : s.Sound m Any) : (s.extendMr i bs).Sound m Any := h.kept rfl rfl

theorem logFlash {e : LogEntry} (h : s.Sound m Any) : (s.logFlash e).Sound m Any := h.kept rfl rfl

theorem logBoot (h : s.Sound m Any) : s.logBoot.Sound m Any := h.logFlash

theorem copyGasps (h : s.Sound m Any) : s.copyGasps.Sound m Any := by
  unfold State.copyGasps
  extract_lets fresh z
  have hz : z.Sound m Any := h.forAll fun _ _ hs => hs.logFlash
  exact hz.kept rfl rfl

theorem stage (h : s.Sound m Any) : (s.stage n).Sound m Any := h.kept rfl rfl

theorem loadImages : ∀ (l : List Nat) {s t : State}, s.Sound m Any → loadImages bk l s = (t, on) → t.Sound m Any
  | [], _, _, h, hz => by
    cases hz
    exact h
  | _ :: l, _, _, h, hz => by
    unfold Machine.loadImages at hz
    split at hz
    · split at hz
      · exact loadImages l h.extendMr hz
      · cases hz
        exact h
    · cases hz
      exact h

theorem tryBank (h : s.Sound m Any) : (s.tryBank on up bk).1.Sound m Any := by
  unfold State.tryBank
  extract_lets z1 z2 z
  have hz : z.Sound m Any := h.kept rfl rfl
  clear_value z
  split
  · exact hz
  split
  · exact hz
  split
  · exact hz
  split
  next hfirst =>
  have h1 := loadImages _ hz.extendMr.stage hfirst
  split
  · exact h1
  split
  next hrest =>
  have h2 := loadImages _ h1.stage hrest
  dsimp only
  split
  · exact h2
  split
  · exact h2.stage
  split
  · exact h2.stage
  · exact h2.stage

theorem chooseBank (h : s.Sound m Any) : (s.chooseBank bi).1.Sound m Any := by
  unfold State.chooseBank
  extract_lets dir tryB
  have hB : ∀ s, s.Sound m Any → (tryB s).1.Sound m Any := by
    intro s hs
    have hb := hs.tryBank (on := dir) (up := true) (bk := bi.bankB)
    dsimp only [tryB]
    split
    · exact hb.kept rfl rfl
    · exact hb.kept rfl rfl
  clear_value tryB
  split
  · exact hB _ (h.kept rfl rfl)
  split
  · exact hB _ (h.kept rfl rfl)
  have ha := h.tryBank (on := dir) (up := false) (bk := bi.bankA)
  dsimp only
  split
  · exact ha
  · exact hB _ (ha.kept rfl rfl)

theorem applyOverride {o : OverrideRec} (h : s.Sound m Any) : (s.applyOverride o).Sound m Any := h.kept rfl rfl

theorem adopt (h : s.Sound m Any) : (s.adopt bk).Sound m Any := by
  unfold State.adopt
  extract_lets f ds ctl fw opba y z measured told z'
  have hmeasured : measured.Sound m Any := h.kept rfl rfl
  have htold : told.Sound m Any := ite hmeasured.raise1 hmeasured
  clear_value told
  refine deviceEvent ?_
  dsimp only [z']
  split
  · exact htold.applyOverride
  · exact htold

/-! ### Training and self-test (R92 to R95, R547, R560) -/

theorem placeChunk {z : Nat × Nat} (h : s.Sound m Any) : (s.placeChunk n z).Sound m Any := by
  unfold State.placeChunk
  split
  · exact h
  · exact h.kept rfl rfl

theorem trainStack {l : List Nat} (h : s.Sound m Any) : (State.trainStack l s n).Sound m Any := by
  unfold State.trainStack
  extract_lets fresh retired hosted y placed chunks
  have hretired : retired.Sound m Any := h.forAll fun _ _ hs => hs.setUnit
  clear_value retired
  have hplaced : placed.Sound m Any := hretired.kept rfl rfl
  exact hplaced.forAll fun _ _ hs => hs.placeChunk

theorem train {x : TrainIn} (h : s.Sound m Any) (hz : s.train x = some t) : t.Sound m Any := by
  unfold State.train at hz
  dsimp only at hz
  split at hz
  · cases hz
  · have htrained : (Machine.forAll (List.range 8) (State.trainStack (x.failedPcs.filter fun p => decide (p < 512)).dedup)
        s).Sound m Any := h.forAll fun _ _ hs => hs.trainStack
    generalize Machine.forAll (List.range 8) _ s = z at hz htrained
    cases hz
    exact htrained.kept rfl rfl

theorem sliceOut (h : s.Sound m Any) : (s.sliceOut k).Sound m Any := by
  unfold State.sliceOut
  extract_lets held retired y
  have hretired : retired.Sound m Any := h.forAll fun _ _ hs => hs.setUnit
  clear_value retired
  exact hretired.kept rfl rfl

theorem selfTests {us : List UnitKey} (h : s.Sound m Any) (hz : s.selfTests us = some t) : t.Sound m Any := by
  unfold State.selfTests at hz
  split at hz
  · cases hz
  · extract_lets bs ks off out at hz
    have hoff : off.Sound m Any := h.forAll fun _ _ hs => setUnit hs |>.modBrick fun _ hk => hk
    have hout : out.Sound m Any := hoff.forAll fun _ _ hs => hs.sliceOut
    split at hz
    · cases hz
      exact hout.warmNodes
    · cases hz

/-! ### The boot sequence (R63, R83, R88, R92, R467 to R469, R547) -/

theorem bootFails (h : s.Sound m Any) : s.bootFails.Sound m Any :=
  deviceEvent (h.kept rfl rfl)

theorem readInst {x : Option InstRec} (h : s.Sound m Any) : (s.readInst x).Sound m Any := by
  have hhaw : ∀ y, State.Sound m Any { s with haw := y } := fun _ => h.kept rfl rfl
  unfold State.readInst
  dsimp only
  refine ite ?_ (ite (hhaw _) (hhaw _).raise1)
  split
  · exact h.kept rfl rfl
  · exact hhaw _

theorem reserveTxc (h : s.Sound m Any) : s.reserveTxc.Sound m Any := by
  have hhaw : ∀ y, State.Sound m Any { s with haw := y } := fun _ => h.kept rfl rfl
  unfold State.reserveTxc
  dsimp only
  split
  · exact h.kept rfl rfl
  · exact (hhaw _).raise1

/-- A cold reset leaves the memories never written (R63). -/
theorem coldClear (s : State) : s.coldClear.Sound m Any where
  mem _ := Mem.empty_wf
  bricks _ _ hk := List.eq_of_mem_replicate hk ▸ BrickS.fresh_wf
  setUp := trivial

theorem setCourse (h : s.Sound m Any) : s.setCourse.Sound m Any := by
  unfold State.setCourse
  extract_lets p v y z courses rails
  have hz : z.Sound m Any := h.kept rfl rfl
  have hrails : rails.Sound m Any := emit (emit (hz.forAll fun _ _ hs => hs.emit))
  exact ite hrails hrails.emit

theorem setReady (h : s.Sound m Any) : s.setReady.Sound m Any := deviceEvent (h.kept rfl rfl)

theorem enterRecovery (h : s.Sound m Any) : s.enterRecovery.Sound m Any := by
  have hlost : ∀ x y, State.Sound m Any { s with phase := x, boot := y } := fun _ _ => h.kept rfl rfl
  exact deviceEvent (logBoot (setRails (setPwr (hlost _ _))))

theorem bringUp (h : s.Sound m Any) : (s.bringUp bi).Sound m Any := by
  have hstage : ((s.stage 7).copyGasps).Sound m Any := h.stage.copyGasps
  unfold State.bringUp
  refine ite hstage.bootFails ?_
  have hcourse : ((s.stage 7).copyGasps.setCourse.stage 8).Sound m Any := hstage.setCourse.stage
  dsimp only
  split
  · exact hcourse.bootFails
  · next hz =>
    have ht := hcourse.train hz
    split
    · exact ht.stage.bootFails
    · next hz' =>
      have hpassed := ht.stage.selfTests hz'
      exact ite hpassed.logBoot hpassed.readInst.reserveTxc.setReady

theorem boot (s : State) : (Machine.boot bi s).Sound m Any := by
  have hb : ((((s.coldClear.setRails s.runRails).stage 2).extendMr 0 (leBytes 4 s.fuses.romVersion)).chooseBank
      bi).1.Sound m Any := ((coldClear s).setRails.stage.extendMr).chooseBank
  unfold Machine.boot
  dsimp only
  split
  · next hz =>
    rw [hz] at hb
    exact hb.enterRecovery
  · next hz =>
    rw [hz] at hb
    exact hb.adopt.bringUp

theorem execColdReset (h : s.Sound m Any) : Res.Sound m Any (execColdReset bi s) :=
  .next (ite (boot _) (h.kept rfl rfl))

theorem execPwrGoodRise (h : s.Sound m Any) : Res.Sound m Any (execPwrGoodRise bi s) :=
  .next (ite (boot _) (h.kept rfl rfl))

theorem execColdResetNAssert (h : s.Sound m Any) : Res.Sound m Any (execColdResetNAssert s) := .next (h.kept rfl rfl)

theorem execSeizeExit (h : s.Sound m Any) : Res.Sound m Any (execSeizeExit bi s) := .next (ite (boot _) h)

theorem ignoreTop (h : s.Sound m Any) : (s.ignoreTop a b).Sound m Any := h.kept rfl rfl

theorem execSetupColdReq (h : s.Sound m Any) : Res.Sound m Any (execSetupColdReq w bi s) :=
  .next (ite h (ite (boot _) h.ignoreTop))

/-- Device memory that lost its power was never written (R374). -/
theorem powerLost (h : s.Sound m Any) : State.Sound m Any { s with mem := Mem.empty } :=
  ⟨fun _ => Mem.empty_wf, h.bricks, trivial⟩

theorem railsUp {x : TrainIn} {us : List UnitKey} (h : s.Sound m Any) : (railsUp x us s).Sound m Any := by
  unfold Machine.railsUp
  refine ite h ?_
  split
  · exact h.bootFails
  · next hz =>
    have ht := h.train hz
    split
    · exact ht.bootFails
    · next hz' =>
      have hpassed := ht.powerLost.selfTests hz'
      refine forAll (forAll (setPwr ⟨hpassed.mem, fun _ => List.forall_mem_map.2 fun _ _ => BrickS.fresh_wf, trivial⟩)
        fun _ _ hs => hs.startPort) fun _ _ hs => hs.raise1

end State.Sound
end Sys2Proof.Machine
end

section
/-! SUPPORT. The memories stay canonical over device time, the pins and security (R40 to R51, R153 to R158, R591 to R628). -/

namespace Sys2Proof.Machine
namespace State.Sound
variable {m : Prop} {s t : State} {a b c d f i k n p q x y : Nat} {on up : Bool} {r : ErrRec} {u : UnitKey} {w : Word}
  {bi : BootIn} {wi : WarmIn} {ps : List Progress} {bs : List Byte} {sg : Signer}

theorem execRailsInRegulation {x : TrainIn} {us : List UnitKey} (h : s.Sound m Any) :
    Res.Sound m Any (execRailsInRegulation x us s) := .next h.railsUp

/-! ### Device time (R42 to R51) -/

theorem execPtpAnnounce {z : PtpMaster} (h : s.Sound m Any) : Res.Sound m Any (execPtpAnnounce p d z s) := by
  have hptp : ∀ x, State.Sound m Any { s with ptp := x } := fun _ => h.kept rfl rfl
  refine .next ?_
  unfold Machine.ptpAnnounce
  refine ite h ?_
  split
  · exact hptp _
  · exact ite (hptp _) (ite (hptp _) h)

theorem stepTime (h : s.Sound m Any) : (s.stepTime d).Sound m Any := setTime (h.kept rfl rfl)

theorem slew {z : Int} (h : s.Sound m Any) : (s.slew z).Sound m Any := h.kept rfl rfl

theorem measured {z : Int} (h : s.Sound m Any) : (s.measured p z).Sound m Any := by
  have htime : ∀ x, State.Sound m Any { s with time := x } := fun _ => h.kept rfl rfl
  unfold State.measured
  split
  · exact ite h.setTime (ite (htime _).setTime h.stepTime)
  · exact ite (htime _).setTime (htime _)
  · exact ite h.setTime h.slew
  · exact ite h.setTime h.setTime.slew
  · exact h

theorem execPtpSync (h : s.Sound m Any) : Res.Sound m Any (execPtpSync p d i x s) := by
  refine .next ?_
  unfold Machine.ptpSync
  extract_lets y z
  have hz : z.Sound m Any := h.kept rfl rfl
  refine ite h (ite hz.setTime ?_)
  split
  · exact hz
  · exact hz.measured

theorem execDelayResp (h : s.Sound m Any) : Res.Sound m Any (execDelayResp p d i x s) :=
  .ite (.next (h.kept rfl rfl)) (.next h)

theorem execSyncTimeout (h : s.Sound m Any) : Res.Sound m Any (execSyncTimeout s) := .ite (.next h.loseSync) (.next h)

theorem execDeviceTimeStep (h : s.Sound m Any) : Res.Sound m Any (execDeviceTimeStep s) :=
  .ite (.next h.stepTime) (.next h)

theorem execPpsInEdge (h : s.Sound m Any) : Res.Sound m Any (execPpsInEdge s) := .ite (.next (h.kept rfl rfl)) (.next h)

theorem execPpsOut (h : s.Sound m Any) : Res.Sound m Any (execPpsOut s) := .ite (.next (h.kept rfl rfl)) (.next h)

theorem execPpsOutFall (h : s.Sound m Any) : Res.Sound m Any (execPpsOutFall s) := .ite (.next (h.kept rfl rfl)) (.next h)

/-! ### Reset pins and host links (R63, R67, R143, R155 to R158) -/

theorem execWarmResetN (h : s.Sound m Any) : Res.Sound m Any (execWarmResetN wi s) := .next h.warm

theorem execI3cWarmResetRequest {v z : Byte} (h : s.Sound m Any) : Res.Sound m Any (execI3cWarmResetRequest v z wi s) :=
  .next (ite h.warm h)

theorem hio0Lost (h : s.Sound m Any) : s.hio0Lost.Sound m Any := h.kept rfl rfl

theorem execPerst0N (h : s.Sound m Any) : Res.Sound m Any (execPerst0N wi s) := by
  exact .next (ite (h.kept rfl rfl) (warm (h.kept rfl rfl)))

theorem execHio0LinkLoss (h : s.Sound m Any) : Res.Sound m Any (execHio0LinkLoss wi s) := .next (ite h h.hio0Lost.warm)

theorem execFlrPf0 (h : s.Sound m Any) : Res.Sound m Any (execFlrPf0 wi s) := .next (ite h (warm (h.kept rfl rfl)))

theorem hio1Lost (h : s.Sound m Any) : (s.hio1Lost ps).Sound m Any := ite h h.failHio1

theorem execPerst1N (h : s.Sound m Any) : Res.Sound m Any (execPerst1N ps s) := .next (hio1Lost (h.kept rfl rfl))

theorem execHio1LinkLoss (h : s.Sound m Any) : Res.Sound m Any (execHio1LinkLoss ps s) := .next h.hio1Lost

theorem execFlrPf1 (h : s.Sound m Any) : Res.Sound m Any (execFlrPf1 ps s) := .next (ite h h.failHio1)

theorem execPf1FlrReadiness (h : s.Sound m Any) : Res.Sound m Any (execPf1FlrReadiness s) := .next (ite (h.kept rfl rfl) h)

theorem execPerstNDeassert (h : s.Sound m Any) : Res.Sound m Any (execPerstNDeassert n s) := .next (h.kept rfl rfl)

theorem execPcieLinkTrained (h : s.Sound m Any) : Res.Sound m Any (execPcieLinkTrained n s) :=
  .next (ite h (ite (ite h (h.kept rfl rfl)) (ite h (h.kept rfl rfl))))

/-! ### References and mesh links (R30, R40, R41) -/

theorem linkClockOut (h : s.Sound m Any) : (linkClockOut s p).Sound m Any := ite h h.portOut.portErr

theorem ingClockOut (h : s.Sound m Any) : (ingClockOut s q).Sound m Any := ite h.modIport.iportErr h

theorem execReferenceLost {z : RefClk} (h : s.Sound m Any) : Res.Sound m Any (execReferenceLost z ps wi s) := by
  have hpins : ∀ x, State.Sound m Any { s with pins := x } := fun _ => h.kept rfl rfl
  refine .next (ite (hpins _) ?_)
  split
  · exact (hpins _).wardenStop
  · exact (hpins _).hio0Lost.warm
  · exact (hpins _).hio1Lost
  · exact ite (hpins _) ((hpins _).forAll fun _ _ hs => hs.linkClockOut)
  · exact ite (hpins _) (loseSync ((hpins _).forAll fun _ _ hs => hs.ingClockOut))
  · exact (hpins _).alert

theorem execMeshLinkFail (h : s.Sound m Any) : Res.Sound m Any (execMeshLinkFail n s) := .next (ite h.raise1 h)

/-! ### The flash mailbox (R68, R75, R636) -/

theorem gated {g : State → State} (h : s.Sound m Any) (hg : s.Sound m Any → (g s).Sound m Any) :
    (s.gated n g).Sound m Any := ite h (ite (hg h) h.ignoreTop)

theorem flashResult (h : s.Sound m Any) : (s.flashResult n).Sound m Any := h.kept rfl rfl

theorem flashFree {g : State → State} (h : s.Sound m Any) (hg : s.Sound m Any → (g s).Sound m Any) :
    (s.flashFree g).Sound m Any := h.gated fun hs => ite hs.flashResult (hg hs)

theorem flashStart {z : FlashCmd} (h : s.Sound m Any) : (s.flashStart z).Sound m Any := h.kept rfl rfl

theorem flashWritable {g : State → State} (h : s.Sound m Any) (hg : s.Sound m Any → (g s).Sound m Any) :
    (s.flashWritable g).Sound m Any := ite (hg h) (ite h.flashResult.raise1 h.flashResult)

theorem execFlashRead (h : s.Sound m Any) : Res.Sound m Any (execFlashRead s) := .next (h.flashFree fun hs => hs.flashStart)

theorem execFlashErase (h : s.Sound m Any) : Res.Sound m Any (execFlashErase s) :=
  .next (h.flashFree fun hs => hs.flashWritable fun ht => ht.flashStart)

theorem execFlashProgram (h : s.Sound m Any) : Res.Sound m Any (execFlashProgram s) :=
  .next (h.flashFree fun hs => hs.flashWritable fun ht => ht.flashStart)

theorem putFlash {z : List Host.Cell} (h : s.Sound m Any) : (s.putFlash a z).Sound m Any := h.kept rfl rfl

theorem execFlashCommandDone (h : s.Sound m Any) : Res.Sound m Any (execFlashCommandDone on s) := by
  have hflash : ∀ x, State.Sound m Any { s with flash := x } := fun _ => h.kept rfl rfl
  refine .next (ite h ?_)
  unfold Machine.flashCommandDone
  split
  · exact h
  · refine ite (hflash _) ?_
    split
    · exact hflash _
    · exact (hflash _).putFlash
    · exact (hflash _).putFlash

/-! ### The security mailbox and its records (R75, R86, R597 to R616, R642) -/

theorem mailbox {g : State → State} (h : s.Sound m Any) (hg : s.Sound m Any → (g s).Sound m Any) :
    (s.mailbox g).Sound m Any := h.gated fun hs => ite hs.ignoreTop (hg hs)

theorem mboxAnswer (h : s.Sound m Any) : (s.mboxAnswer n).Sound m Any := h.kept rfl rfl

theorem secRefuse (h : s.Sound m Any) : (s.secRefuse a b c d).Sound m Any := h.raise

theorem execOverride {z : OverrideRec} (h : s.Sound m Any) : Res.Sound m Any (execOverride z s) := by
  refine .next (h.mailbox fun hs => ite ?_ hs.raise1.mboxAnswer)
  have hanswered : ∀ x, ((State.applyOverride { s with flash := x } z).reclass.mboxAnswer 0).Sound m Any :=
    fun _ => hs.kept rfl rfl
  exact ite (hanswered _) (hanswered _).deviceEvent

theorem execGoldenUpdate {z : GoldenRec} (h : s.Sound m Any) : Res.Sound m Any (execGoldenUpdate z s) :=
  .next (h.mailbox fun hs => ite (mboxAnswer (hs.kept rfl rfl)) hs.raise1.mboxAnswer)

theorem eraseSecrets (h : s.Sound m Any) : (s.eraseSecrets on).Sound m Any := h.kept rfl rfl

theorem execLifecycleRecord (h : s.Sound m Any) : Res.Sound m Any (execLifecycleRecord sg s) := by
  refine .next (h.mailbox fun hs => ?_)
  dsimp only
  split
  · exact hs.secRefuse.mboxAnswer
  · refine mboxAnswer (extendMr (kept (ite hs.eraseSecrets hs) rfl rfl))

theorem execLinkSecretRecord (h : s.Sound m Any) : Res.Sound m Any (execLinkSecretRecord sg on n s) :=
  .next (h.mailbox fun hs => ite (mboxAnswer (hs.kept rfl rfl)) hs.secRefuse.mboxAnswer)

/-! ### Debug levels (R601 to R607) -/

theorem execDebugToken (h : s.Sound m Any) : Res.Sound m Any (execDebugToken on bs sg s) :=
  .next (ite (ite h (h.kept rfl rfl)) (h.mailbox fun hs => mboxAnswer (hs.kept rfl rfl)))

theorem zeroKey (h : s.Sound m Any) : (s.zeroKey i).Sound m Any := ite h (h.kept rfl rfl)

theorem enterInvasive (h : s.Sound m Any) : s.enterInvasive.Sound m Any :=
  forAll (forAll (h.forAll fun _ _ hs => hs.partReset.raise) fun _ _ hs => hs.modPart) fun _ _ hs => hs.zeroKey

theorem setLevel {z : Option Token} (h : s.Sound m Any) : (s.setLevel n z).Sound m Any := by
  unfold State.setLevel
  extract_lets entered taken measured
  have hentered : entered.Sound m Any := ite h.enterInvasive h
  clear_value entered
  have htaken : taken.Sound m Any := by
    dsimp only [taken]
    split
    · exact hentered.extendMr
    · exact hentered
  clear_value taken
  exact htaken.kept rfl rfl

theorem tokenRefused (h : s.Sound m Any) : (s.tokenRefused a b c).Sound m Any := secRefuse (h.kept rfl rfl)

theorem withToken (h : s.Sound m Any) : (s.withToken on n).Sound m Any := by
  unfold State.withToken
  split
  · exact h.tokenRefused
  · exact ite h.setLevel h.tokenRefused

theorem levelRequest (h : s.Sound m Any) : (s.levelRequest on n).Sound m Any :=
  ite h (ite h.setLevel (ite (ite h.setLevel h.secRefuse) (ite h.setLevel h.withToken)))

theorem execDebugLevelRequest (h : s.Sound m Any) : Res.Sound m Any (execDebugLevelRequest on w s) :=
  .next (ite (ite h h.levelRequest) (h.gated fun hs => hs.levelRequest))

theorem execSecMboxDone (h : s.Sound m Any) : Res.Sound m Any (execSecMboxDone bi s) := by
  refine .next ?_
  unfold Machine.secMboxDone
  split
  · exact h
  · exact ite h (ite (boot _) (h.kept rfl rfl))

/-! ### Seizing and triggers (R618 to R624) -/

theorem seizeRefused (h : s.Sound m Any) : s.seizeRefused.Sound m Any := by
  unfold State.seizeRefused
  exact logFlash (h.secRefuse.kept rfl rfl)

theorem seized (h : s.Sound m Any) : s.seized.Sound m Any := h.kept rfl rfl

theorem seizeTrigger (h : s.Sound m Any) : s.seizeTrigger.Sound m Any := ite h (ite h.seized h.seizeRefused)

theorem execSeizeN (h : s.Sound m Any) : Res.Sound m Any (execSeizeN s) := .next h.seizeTrigger

theorem execJtagSeize (h : s.Sound m Any) : Res.Sound m Any (execJtagSeize s) := .next h.seizeTrigger

theorem countEdges {es : List MuxSig} (h : s.Sound m Any) : (s.countEdges es n).Sound m Any := h.kept rfl rfl

theorem execDebugTrigger {es : List MuxSig} (h : s.Sound m Any) : Res.Sound m Any (execDebugTrigger es s) := by
  refine .next ?_
  unfold Machine.debugTrigger
  extract_lets act fires counted y traced shot told
  have hcounted : counted.Sound m Any := h.forAll fun _ _ hs => hs.countEdges
  clear_value counted
  have hdbg : ∀ x, State.Sound m Any { counted with dbg := x } := fun _ => hcounted.kept rfl rfl
  have htraced : traced.Sound m Any := ite (hdbg _).emit (ite (hdbg _).emit hcounted)
  have hshot : shot.Sound m Any := ite htraced.emit htraced
  have htold : told.Sound m Any := ite hshot.deviceEvent hshot
  exact ite h (ite hcounted.seizeTrigger (ite htold.seizeTrigger htold))

/-! ### Attestation (R595, R596) -/

theorem spdmSend (h : s.Sound m Any) : (s.spdmSend n bs).Sound m Any := ite h.emit h

theorem execGetVersion (h : s.Sound m Any) : Res.Sound m Any (execGetVersion s) := .next h.spdmSend

theorem execGetCapabilities (h : s.Sound m Any) : Res.Sound m Any (execGetCapabilities s) := .next h.spdmSend

theorem execGetDigests (h : s.Sound m Any) : Res.Sound m Any (execGetDigests s) := .next h.spdmSend

theorem execSpdmUnsupportedRequest (h : s.Sound m Any) : Res.Sound m Any (execSpdmUnsupportedRequest n s) := .next h.spdmSend

theorem execNegotiateAlgorithms (h : s.Sound m Any) : Res.Sound m Any (execNegotiateAlgorithms on up s) :=
  .next (ite h.spdmSend h.spdmSend)

theorem execGetCertificate (h : s.Sound m Any) : Res.Sound m Any (execGetCertificate i x y s) :=
  .next (ite h.spdmSend (ite h.spdmSend h.spdmSend))

theorem execChallenge (h : s.Sound m Any) : Res.Sound m Any (execChallenge i x s) :=
  .next (ite h.spdmSend (ite h.spdmSend h.spdmSend.drew))

theorem execGetMeasurements (h : s.Sound m Any) : Res.Sound m Any (execGetMeasurements i x s) :=
  .next (ite h.spdmSend (ite h.spdmSend.drew (ite h.spdmSend.drew (ite h.spdmSend.drew h.spdmSend))))

end State.Sound
end Sys2Proof.Machine
end

section
/-! SUPPORT. The memories stay canonical over register accesses (R108 to R117, R377 to R426, R629 to R644). -/

namespace Sys2Proof.Machine
namespace State.Sound
variable {m : Prop} {s t : State} {a b c d e f i k n o p q v x y z : Nat} {on : Bool} {w : Word} {wi : WarmIn} {fn : Func}

/-! ### Windows, partitions, pin areas (R113 to R116, R378, R389) -/

theorem openWindow (h : s.Sound m Any) : (s.openWindow a b c d on).Sound m Any := h.kept rfl rfl

theorem closeWindow (h : s.Sound m Any) : (s.closeWindow i).Sound m Any := h.kept rfl rfl

theorem setReg (h : s.Sound m Any) : (s.setReg o w).Sound m Any := h.kept rfl rfl

theorem setPlain (h : s.Sound m Any) : (s.setPlain o v).Sound m Any := h.setReg

theorem allocate (h : s.Sound m Any) : (s.allocate n).Sound m Any := ite h.modPart h.openWindow.modPart

theorem allocDone (h : s.Sound m Any) : (s.allocDone n).Sound m Any := by
  unfold State.allocDone
  extract_lets part wiped blanked y full
  have hblanked : blanked.Sound m Any := h.wipeDev.forAll fun _ _ hs => hs.modBrick fun _ _ => BrickS.fresh_wf
  have hfull : full.Sound m Any := ⟨hblanked.mem, hblanked.bricks, trivial⟩
  exact hfull.modPart

theorem execAllocClearDone (h : s.Sound m Any) : Res.Sound m Any (execAllocClearDone n s) :=
  .ite (.next h.allocDone) (.next h)

theorem pinWrite (h : s.Sound m Any) : (s.pinWrite n e on).Sound m Any := by
  unfold State.pinWrite
  extract_lets o z y laid r judged
  have hlaid : laid.Sound m Any := h.kept rfl rfl
  exact ite hlaid (ite hlaid.modPart.setReg hlaid.modPart)

theorem pinMoved (h : s.Sound m Any) : (s.pinMoved n e).Sound m Any := ite h.pinWrite h

theorem strStop (h : s.Sound m Any) : (s.strStop n).Sound m Any := h.setReg.abandon

theorem release (h : s.Sound m Any) : (s.release n).Sound m Any := by
  unfold State.release
  extract_lets unpinned stopped y dropped
  have hstopped : stopped.Sound m Any := (h.forAll fun _ _ hs => hs.pinWrite).forAll fun _ _ hs => hs.strStop
  have hdropped : dropped.Sound m Any := ⟨hstopped.mem, hstopped.bricks, trivial⟩
  exact ite h.modPart (ite h.modPart hdropped.closeWindow.modPart)

/-! ### Reserved windows and ingest tables (R378, R417 to R426, R640, R641) -/

theorem reserve (h : s.Sound m Any) : (s.reserve k v).Sound m Any :=
  ite (h.kept rfl rfl) (ite (h.kept rfl rfl) (ite (h.kept rfl rfl) (h.kept rfl rfl)))

theorem ingCtrl (h : s.Sound m Any) : (s.ingCtrl v).Sound m Any :=
  ite (ite h.closeWindow.setReg h) (ite h (ite (h.kept rfl rfl) (h.kept rfl rfl)))

theorem srcWord (h : s.Sound m Any) : (s.srcWord n v).Sound m Any := ite h.setReg.setReg h.setReg

theorem ruleWord (h : s.Sound m Any) : (s.ruleWord n v).Sound m Any := ite (h.kept rfl rfl) (h.kept rfl rfl)

theorem strReason (h : s.Sound m Any) : (s.strReason n k).Sound m Any := h.modStr

theorem strWord (h : s.Sound m Any) : (s.strWord n v).Sound m Any :=
  ite (ite h.strReason (strReason (setReg (ite h.strStop h))))
    (ite h.setReg.strReason (ite h.strReason h.setReg.setReg.strReason))

/-! ### Hawser set-up and ports (R408, R472, R481) -/

theorem jobWrite (h : s.Sound m Any) : (s.jobWrite n v).Sound m Any := ite (h.kept rfl rfl) (h.kept rfl rfl)

theorem portCtrl (h : s.Sound m Any) : (s.portCtrl p v).Sound m Any :=
  ite h.setReg.startPort (ite h.setReg h.setReg.portOut)

theorem ingPortCtrl (h : s.Sound m Any) : (s.ingPortCtrl q v).Sound m Any := ite h.setReg h.setReg.modIport

/-! ### Words of PF0 BAR0 (R630 to R644) -/

theorem flashCmd (h : s.Sound m Any) : (s.flashCmd v).Sound m Any :=
  h.flashFree fun hs => ite hs.flashStart (hs.flashWritable fun ht => ht.flashStart)

theorem setupEffect (h : s.Sound m Any) : (setupEffect o v s).Sound m Any :=
  ite (h.kept rfl rfl) (ite h.flashCmd (ite h (ite (h.kept rfl rfl) (ite (h.kept rfl rfl) (ite h.partReset h.setPlain)))))

theorem partEffect (h : s.Sound m Any) : (partEffect o v s).Sound m Any :=
  ite (ite h.allocate (ite h.release h)) (ite h.setPlain (ite h.pinWrite h.setPlain.pinMoved))

theorem ingEffect (h : s.Sound m Any) : (ingEffect o v s).Sound m Any :=
  ite h.reserve (ite h.ingCtrl (ite h.setPlain (ite (ite h.ingPortCtrl h.setPlain) (ite (ite h.srcWord h.setPlain)
    (ite (ite h.ruleWord h.setPlain) (ite h.strWord (ite h.modStr h.setPlain)))))))

theorem controlEffect (h : s.Sound m Any) : (controlEffect o v s).Sound m Any :=
  ite h.setPlain (ite h.jobWrite (ite h.portCtrl (ite h.powerReq (ite h.levelRequest (ite h (ite (h.kept rfl rfl)
    (ite h.retireReq (ite h.readmitReq (ite (h.kept rfl rfl) h.setPlain)))))))))

theorem topEffect (h : s.Sound m Any) : (topEffect o v s).Sound m Any :=
  ite h.setupEffect (ite h.partEffect (ite h.ingEffect h.controlEffect))

theorem takeTop (h : s.Sound m Any) : (s.takeTop o x y).Sound m Any := by
  have htaken : ∀ z, ((State.setPlain { s with lowWords := z } o x).setPlain (o + 4) y).Sound m Any := fun _ => h.kept rfl rfl
  exact ite (htaken _).pinMoved (htaken _)

theorem writeTop (h : s.Sound m Any) : (writeTop o v s).Sound m Any := by
  unfold Machine.writeTop
  refine ite h ?_
  dsimp only
  split
  · exact ite (h.kept rfl rfl) (ite h.takeTop h.topEffect)
  · exact h.ignoreTop

/-! ### Words of a function page (R98 to R102, R126, R144 to R151) -/

theorem ignorePage (h : s.Sound m Any) : (s.ignorePage f a b).Sound m Any := h.modPage

theorem sqCtrl (h : s.Sound m Any) : (s.sqCtrl f n v).Sound m Any := by
  unfold State.sqCtrl
  refine ite h.modSq ?_
  split
  · exact h.modSq
  · exact h.modSq

theorem cqCtrl (h : s.Sound m Any) : (s.cqCtrl f n v).Sound m Any := h.modPage

theorem errCtrl (h : s.Sound m Any) : (s.errCtrl f v).Sound m Any := h.modPage

theorem msixWord (h : s.Sound m Any) : (s.msixWord f o v).Sound m Any := by
  unfold State.msixWord
  dsimp only
  split
  · exact h.modPage
  · exact h.modPage
  · exact h.modPage
  · exact ite h.modPage h.unmask

theorem pageEffect (h : s.Sound m Any) : (pageEffect f o v s).Sound m Any :=
  ite h.modPage (ite h.modPage (ite h.errCtrl (ite (ite h.sqCtrl h.modSq) (ite h.cqCtrl (ite h.modPage h.msixWord)))))

theorem vfEnabled (h : s.Sound m Any) : State.Sound m Any { s with vfEnable := true } := h.kept rfl rfl

theorem writePage (h : s.Sound m Any) : (writePage f o v s).Sound m Any := by
  have hseen : (if f = 0 then s else { s with vfEnable := true }).Sound m Any := ite h h.vfEnabled
  unfold Machine.writePage
  refine ite h ?_
  dsimp only
  split
  · exact ite hseen.modPage (ite hseen.modPage hseen.pageEffect)
  · exact hseen.ignorePage

/-! ### Register accesses -/

theorem ignore (h : s.Sound m Any) : (s.ignore fn a b).Sound m Any := by
  unfold State.ignore
  split
  · exact ite h.ignorePage h.ignoreTop
  · exact ite h.ignorePage.vfEnabled h
  · exact h.ignoreTop

theorem writeFour (h : s.Sound m Any) : (write4 fn o v s).Sound m Any := by
  unfold Machine.write4
  split
  · exact ite h.writePage h.writeTop
  · exact ite h h.writePage
  · exact ite h h.ignoreTop

theorem execRegisterWrite {w : DWord} (h : s.Sound m Any) : Res.Sound m Any (execRegisterWrite fn o n w s) :=
  .next (ite h (ite h.ignore (ite h.writeFour (ite h.writeFour.writeFour (ite h.writeFour.writeFour h.ignore)))))

theorem writePart (h : s.Sound m Any) : (writePart n o v s).Sound m Any := ite h.writeTop h

theorem writeRing (h : s.Sound m Any) : (writeRing f n o v s).Sound m Any := ite h.writePage h

theorem writeStr (h : s.Sound m Any) : (writeStr n o v s).Sound m Any := ite h.writeTop h

theorem latchPut {z : Option Nat} (h : s.Sound m Any) : (s.latchPut fn o z).Sound m Any := by
  unfold State.latchPut
  dsimp only
  split
  · exact ite h.modPage (h.kept rfl rfl)
  · exact h.modPage
  · exact h.kept rfl rfl

theorem execRegisterRead (h : s.Sound m Any) : Res.Sound m Any (execRegisterRead fn o n s) := by
  refine .next ?_
  unfold Machine.registerRead
  extract_lets seen plain
  have hseen : seen.Sound m Any := by
    dsimp only [seen]
    split
    · exact ite h.vfEnabled h
    · exact h
  have hplain : ∀ s, s.Sound m Any → (plain s).Sound m Any := fun _ hs => hs.emit
  clear_value seen plain
  refine ite hseen (ite (hplain _ hseen.latchPut) (ite ?_ (hplain _ hseen)))
  split
  · exact hseen.latchPut.emit
  · exact hplain _ hseen

end State.Sound
end Sys2Proof.Machine
end

section
/-! SUPPORT and O4. Every command, the tick and so every step keep the memories canonical (R204, R375, R646). -/

namespace Sys2Proof.Machine
namespace State.Sound
variable {m : Prop} {s : State} {f k n : Nat} {c : Cmd} {i : Instr} {loc : Loc} {x : CollKind} {o : CollF}

/-! ### Commands of a list outside `engineCmd`, and what goes on with a held one (R188 to R193, R260, R310, R490) -/

theorem engine {z : Cmd × Bool × Nat × List Nat} (h : s.Sound m Any) (hz : engineCmd i = some z) :
    Res.Sound m Any (exec i s) :=
  fun _ ht => engineCmd_sound hz ht h

theorem execLoopBegin {z : CountSrc} (h : s.Sound m Any) : Res.Sound m Any (execLoopBegin c n z s) :=
  .next (h.command fun _ _ hs => Ran.Sound.ite hs.modCtx hs.modCtx)

theorem execLoopEnd (h : s.Sound m Any) : Res.Sound m Any (execLoopEnd c n s) := by
  refine .next ?_
  unfold Machine.loopEnd
  split
  · exact h
  · refine ite h (ite h.modCtx.endStream ?_)
    split
    · exact h.faultCmd
    · exact ite h.modCtx h.modCtx.modList.finish.modCtx

theorem execContextDeadlock (h : s.Sound m Any) : Res.Sound m Any (execContextDeadlock f n s) := by
  unfold Machine.execContextDeadlock
  split
  · exact .next h
  · exact .ite (.next h.faultList) (.next h)

theorem execPinResume (h : s.Sound m Any) : Res.Sound m Any (execPinResume loc s) := by
  refine .next (ite h (h.resume fun e c held r hr => ?_))
  split at hr
  · dsimp only at hr
    split at hr
    · cases hr
    · cases hr
      exact pinFrom_sound h fun _ _ hs => attnRun_sound hs
  · cases hr
    exact pinFrom_sound h fun _ _ hs => gatherRun_sound hs
  · cases hr

theorem execForkResume (h : s.Sound m Any) : Res.Sound m Any (execForkResume loc s) := by
  refine .next (ite h (h.resume fun e c held r hr => ?_))
  split at hr
  · cases hr
    exact forkFrom_sound h
  · cases hr

theorem handOff (h : s.Sound m Any) : (handOff loc s).Sound m Any := by
  refine ite h (h.resume fun e c held r hr => ?_)
  split at hr
  · split at hr
    · cases hr
      exact blocks_sound _ _ h
    · cases hr
  · cases hr

theorem execEpilogueStreamHandoff (h : s.Sound m Any) : Res.Sound m Any (execEpilogueStreamHandoff loc s) :=
  .ite (.next h) (.ite (.next h.collGo) (.next h.handOff))

theorem execCollTimeout (h : s.Sound m Any) : Res.Sound m Any (execCollTimeout loc s) := by
  unfold Machine.execCollTimeout
  split
  · exact .ite (.next h.collFault) (.next h)
  · exact .next h

/-! ### Every command, and the step -/

theorem exec (h : s.Sound m Any) : ∀ i : Instr, Res.Sound m Any (exec i s)
  | .pwrGoodRise .. => h.execPwrGoodRise
  | .coldReset .. => h.execColdReset
  | .setupColdReq .. => h.execSetupColdReq
  | .warmResetN .. => h.execWarmResetN
  | .setupReset .. => .next (ite h.warm h.writeTop)
  | .i3cWarmResetRequest .. => h.execI3cWarmResetRequest
  | .perst0N .. => h.execPerst0N
  | .perst1N .. => h.execPerst1N
  | .hio0LinkLoss .. => h.execHio0LinkLoss
  | .hio1LinkLoss .. => h.execHio1LinkLoss
  | .flrVf .. => h.execFlrVf
  | .flrPf0 .. => h.execFlrPf0
  | .flrPf1 .. => h.execFlrPf1
  | .setupPartReset .. => .next h.writeTop
  | .powerLoss => h.execPowerLoss
  | .thermTrip .. => h.execThermTrip
  | .referenceLost .. => h.execReferenceLost
  | .meshLinkFail .. => h.execMeshLinkFail
  | .ptpSync .. => h.execPtpSync
  | .ptpAnnounce .. => h.execPtpAnnounce
  | .syncTimeout => h.execSyncTimeout
  | .deviceTimeStep => h.execDeviceTimeStep
  | .ppsInEdge => h.execPpsInEdge
  | .ppsOut => h.execPpsOut
  | .seizeN => h.execSeizeN
  | .jtagSeize => h.execJtagSeize
  | .seizeExit .. => h.execSeizeExit
  | .flashRead => h.execFlashRead
  | .flashErase => h.execFlashErase
  | .flashProgram => h.execFlashProgram
  | .flashCommandDone .. => h.execFlashCommandDone
  | .override .. => h.execOverride
  | .goldenUpdate .. => h.execGoldenUpdate
  | .lifecycleRecord .. => h.execLifecycleRecord
  | .debugToken .. => h.execDebugToken
  | .linkSecretRecord .. => h.execLinkSecretRecord
  | .debugLevelRequest .. => h.execDebugLevelRequest
  | .partDrvIfver .. => .next h.writePage
  | .setupLock .. => .next h.writeTop
  | .functionSetupLock .. => .next h.writePage
  | .registerWrite .. => h.execRegisterWrite
  | .partitionAlloc .. => .next h.writePart
  | .allocClearDone .. => h.execAllocClearDone
  | .partitionRelease .. => .next h.writePart
  | .pinEntryWrite .. => .next (ite h.writePart h)
  | .reservedRegionWrite .. => .next (ite h.writeTop h)
  | .sqEnable .. => .next h.writeRing
  | .sqDisable .. => .next h.writeRing
  | .cqEnable .. => .next h.writeRing
  | .cqDisable .. => .next h.writeRing
  | .errRingEnable .. => .next h.writePage
  | .errRingDisable .. => .next h.writePage
  | .ringSqnRestart .. => .next h.writeRing
  | .doorbellSweep .. => h.execDoorbellSweep
  | .descriptorFetch .. => h.execDescriptorFetch
  | .nop .. => h.execNop
  | .runList .. => h.execRunList
  | .hostCopy .. => h.execHostCopy
  | .waitRing .. => h.execWaitRing
  | .waitEpoch .. => h.execWaitEpoch
  | .timestamp .. => h.execTimestamp
  | .pcieErrorResponse .. => .next h.hostFails
  | .pcieCompletionTimeout .. => .next h.hostFails
  | .completionWrite .. => h.execCompletionWrite
  | .irqTimer .. => h.execIrqTimer
  | .msixUnmask .. => h.execMsixUnmask
  | .listStart .. => .next h.listStart
  | .contextDeadlock .. => h.execContextDeadlock
  | .copy .. => h.engine rfl
  | .loopBegin .. => h.execLoopBegin
  | .loopEnd .. => h.execLoopEnd
  | .predSet .. => h.engine rfl
  | .fence .. => h.engine rfl
  | .matmul .. => h.engine rfl
  | .matmulAcc .. => h.engine rfl
  | .matmulGated .. => h.engine rfl
  | .epilogueStreamHandoff .. => h.execEpilogueStreamHandoff
  | .act .. => h.engine rfl
  | .normRow .. => h.engine rfl
  | .softmaxRow .. => h.engine rfl
  | .attnBlock .. => h.engine rfl
  | .pinResume .. => h.execPinResume
  | .gatherPages .. => h.engine rfl
  | .scatterWrite .. => h.engine rfl
  | .scatterFork .. => h.engine rfl
  | .scatterFree .. => h.engine rfl
  | .conv2d .. => h.engine rfl
  | .pool2d .. => h.engine rfl
  | .resample .. => h.engine rfl
  | .rngFill .. => h.engine rfl
  | .allReduce .. => .next h.collCommand
  | .reduceScatter .. => .next h.collCommand
  | .vetoOr .. => .next h.collCommand
  | .allGather .. => .next h.collCommand
  | .broadcast .. => .next h.collCommand
  | .collTimeout .. => h.execCollTimeout
  | .amax .. => h.engine rfl
  | .sumsq .. => h.engine rfl
  | .push .. => h.engine rfl
  | .clip .. => h.engine rfl
  | .product .. => h.engine rfl
  | .nonfiniteVote .. => h.engine rfl
  | .eccCorrected .. => h.execEccCorrected
  | .eccUncorrectable .. => h.execEccUncorrectable
  | .tagCopyError .. => h.execTagCopyError
  | .obAmEccError .. => h.execObAmEccError
  | .engineError .. => h.execEngineError
  | .patrolScrub .. => h.execPatrolScrub
  | .chunkCopyDone .. => h.execChunkCopyDone
  | .copyBackChunkDone .. => h.execCopyBackChunkDone
  | .nodeMove .. => h.execNodeMove
  | .bucketRefill .. => h.execBucketRefill
  | .ingestPortEnable .. => .next (ite h.writeTop h)
  | .ingestEnable => .next h.writeTop
  | .sourceWrite .. => .next (ite h.writeTop h)
  | .ruleWrite .. => .next (ite h.writeTop h)
  | .streamEnable .. => .next h.writeStr
  | .streamDisable .. => .next h.writeStr
  | .ingStrmnResume .. => .next h.writeStr
  | .ingestPacket .. => .next h.ingestPacket
  | .arpRequest .. => h.execArpRequest
  | .gatherLimit .. => h.execGatherLimit
  | .fusionStart .. => .next h.fusionStart
  | .epochWritten .. => h.execEpochWritten
  | .ingestLinkLost .. => h.execIngestLinkLost
  | .hawserPortEnable .. => .next (ite h.writeTop h)
  | .linkTrained .. => h.execLinkTrained
  | .lldpSend .. => h.execLldpSend
  | .lldpReceived .. => h.execLldpReceived
  | .bindingTimeout .. => h.execBindingTimeout
  | .hawserLinkLost .. => h.execHawserLinkLost
  | .write .. => h.execWrite
  | .readReq .. => h.execReadReq
  | .readResp .. => h.execReadResp
  | .collData .. => h.execCollData
  | .collCtrl .. => h.execCollCtrl
  | .ack .. => h.execAck
  | .nak .. => h.execNak
  | .probe .. => h.execProbe
  | .portState .. => h.execPortState
  | .hawserReservedFrame .. => h.execHawserReservedFrame
  | .pfcPause .. => h.execPfcPause
  | .ackTimer .. => h.execAckTimer
  | .replayTimer .. => h.execReplayTimer
  | .retransmitTimer .. => h.execRetransmitTimer
  | .hawJobWrite .. => .next (ite h.writeTop h)
  | .sensorSample .. => h.execSensorSample
  | .decisionPeriod => h.execDecisionPeriod
  | .levelChange .. => h.execLevelChange
  | .powerEstimate .. => h.execPowerEstimate
  | .avsResponse .. => h.execAvsResponse
  | .wardenWatchdog => h.execWardenWatchdog
  | .idleTimeout => h.execIdleTimeout
  | .dozeTimeout => h.execDozeTimeout
  | .wardenTimeout => h.execWardenTimeout
  | .enterWarden => .next h.writeTop
  | .enterOff => .next h.writeTop
  | .hostWakeRequest .. => h.execHostWakeRequest
  | .wakeTime => h.execWakeTime
  | .railsInRegulation .. => h.execRailsInRegulation
  | .storeDrain .. => h.execStoreDrain
  | .drainTimeout .. => h.execDrainTimeout
  | .errorHandle => h.execErrorHandle
  | .handlerTimeout => h.execHandlerTimeout
  | .bucketLeak .. => h.execBucketLeak
  | .errRetireReq .. => .next h.writeTop
  | .errReadmitReq .. => .next h.writeTop
  | .selfTestDone .. => h.execSelfTestDone
  | .probationEnd .. => h.execProbationEnd
  | .handOver => h.execHandOver
  | .deadlineTest => h.execDeadlineTest
  | .debugTrigger .. => h.execDebugTrigger
  | .getVersion => h.execGetVersion
  | .getCapabilities => h.execGetCapabilities
  | .negotiateAlgorithms .. => h.execNegotiateAlgorithms
  | .getDigests => h.execGetDigests
  | .getCertificate .. => h.execGetCertificate
  | .challenge .. => h.execChallenge
  | .getMeasurements .. => h.execGetMeasurements
  | .spdmUnsupportedRequest .. => h.execSpdmUnsupportedRequest
  | .coldResetNAssert => h.execColdResetNAssert
  | .perstNDeassert .. => h.execPerstNDeassert
  | .pcieLinkTrained .. => h.execPcieLinkTrained
  | .pf1FlrReadiness => h.execPf1FlrReadiness
  | .ingestLinkUp .. => h.execIngestLinkUp
  | .delayResp .. => h.execDelayResp
  | .hawserFcsFailure .. => h.execHawserFcsFailure
  | .forkResume .. => h.execForkResume
  | .secMboxDone .. => h.execSecMboxDone
  | .registerRead .. => h.execRegisterRead
  | .ppsOutFall => h.execPpsOutFall

theorem tick (h : s.Sound m Any) : s.tick.Sound m Any := by
  unfold State.tick
  split
  · exact h.kept rfl rfl
  · exact h.kept rfl rfl
  · exact h.kept rfl rfl
  · exact h.kept rfl rfl
  · exact h

theorem step (h : s.Sound m Any) : Res.Sound m Any (step s) := by
  unfold Machine.step
  split
  · exact .next h.tick
  · next c rest _ =>
    have hrest : State.Sound m Any { s with pending := rest } := h.kept rfl rfl
    exact hrest.exec c

end State.Sound

/-- Settles O4: `State.Sound` holds of the state, with the demand on the memories only, and every step keeps it. -/
theorem stepKeepsMemoryCanonical : Obligations.StepKeepsMemoryCanonical := by
  intro s t hs ht
  obtain ⟨hmem, hbricks⟩ := State.memOk_iff.1 hs
  have hsound : s.Sound True Any := ⟨fun _ => hmem, fun _ => hbricks, trivial⟩
  have htsound : t.Sound True Any := hsound.step t ht
  exact State.memOk_iff.2 ⟨htsound.mem trivial, htsound.bricks trivial⟩

end Sys2Proof.Machine
end

section
/-! SUPPORT. Engine errors, patrol scrubbing, chunk migration and node moves (R229, R365 to R372, R396 to R398, R553, R559):
detected errors leave the memory, the remap table and the node table alone; each event by its equation; the statement on
them. -/

namespace Sys2Proof.Machine

/-! ### What detected errors leave alone (R557, R562, R588) -/

section Errors
variable {s : State} {u : UnitKey}

/-- Device memory and the Mortar caches' state: what the error operations do not touch. -/
def State.memView (s : State) : Mem × MortarS := (s.mem, s.mortar)

theorem State.raise_memView (e : ErrEvt) : (s.raise e).memView = s.memView := by rw [State.raise_frame]; rfl

theorem State.raiseW_memView (w p : Nat) (r : ErrRec) (c : ErrScope) : (s.raiseW u w p r c).memView = s.memView := by
  rw [State.raiseW_frame]; rfl

theorem State.readmitFails_memView : (s.readmitFails u).memView = s.memView := by
  refine (State.raise_memView _).trans ?_
  dsimp only
  split <;> rfl

theorem State.unitErr_memView (w p : Nat) (r : ErrRec) : (s.unitErr u w p r).memView = s.memView := by
  have hraised : (s.raiseW u w p r .none).memView = s.memView := State.raiseW_memView ..
  unfold State.unitErr
  dsimp only
  split
  · split
    · exact State.readmitFails_memView.trans hraised
    · exact hraised
  · exact hraised

theorem State.hbmErr_memView (pc row wr wp : Nat) (r : ErrRec) : (s.hbmErr pc row wr wp r).memView = s.memView := by
  have hcounted : ∀ (x : Prop) [Decidable x] (t : State), t.memView = s.memView →
      (if x then t.bucketAdd (pcUnit pc) wp else t).memView = s.memView := by
    intro x _ t ht
    split <;> exact ht
  unfold State.hbmErr
  extract_lets u c0 t rowPerm pcPerm counts t1 spare
  have ht1 : t1.memView = s.memView := hcounted _ t rfl
  split
  · exact State.unitErr_memView ..
  · split
    · exact (State.raise_memView _).trans ht1
    · split
      · exact (State.raise_memView _).trans ht1
      · exact (State.raise_memView _).trans ht1

theorem State.raise_units (e : ErrEvt) : (s.raise e).repair.units = s.repair.units := by
  unfold State.raise State.await State.overflow
  simp only
  repeat' split
  all_goals rfl

theorem State.raise_unit (e : ErrEvt) : (s.raise e).unit u = s.unit u := by
  simp only [State.unit, State.raise_units]

theorem State.unit_setUnit_same {x : UnitState} (hx : x ≠ .inService) : (s.setUnit u x).unit u = x := by
  simp [State.unit, State.setUnit, Machine.setUnit, hx]

end Errors

/-! ### ENGINE_ERROR (R229, R553, R559) -/

theorem ErrRec.ofOwner_code (s : State) (r : ErrRec) (o : Nat) : (ErrRec.ofOwner s r o).code = r.code := by
  unfold ErrRec.ofOwner
  split <;> rfl

section Engine
variable {s : State} {b : Nat} {l : Loc} {e : Env}

theorem execEngineError_recomputed (hon : s.memoryOn = true) (hb : b < 16) (hl : l.brick = b) (he : s.env l = some e) :
    ∃ r : ErrRec, r.code = 0x1060 ∧ r.severity = 0 ∧
      execEngineError b true l s = .next (s.unitErr (brickUnit b) 4 ((s.brickOwner b).getD 0) r) := by
  have hlive : ¬ (! s.memoryOn || decide (16 ≤ b)) = true := by simp [hon, hb]
  simp only [execEngineError, if_neg hlive, if_pos hl, he]
  refine ⟨_, ?code, ?severity, rfl⟩
  case code => exact ErrRec.ofOwner_code ..
  case severity => rfl

theorem execEngineError_faulted (hon : s.memoryOn = true) (hb : b < 16) (hl : l.brick = b) (he : s.env l = some e) :
    ∃ r : ErrRec, r.code = 0x1060 ∧ r.severity = 2 ∧ execEngineError b false l s =
      .next ((s.endList e.l.owner (Ending.faulted 0x1060 0 s.now)).raiseW (brickUnit b) 16 ((s.brickOwner b).getD 0) r
        (.desc (e.l.owner / 32) (e.l.owner % 32))) := by
  have hlive : ¬ (! s.memoryOn || decide (16 ≤ b)) = true := by simp [hon, hb]
  simp only [execEngineError, if_neg hlive, if_pos hl, he]
  refine ⟨_, ?code, ?severity, rfl⟩
  case code => exact ErrRec.ofOwner_code ..
  case severity => rfl

end Engine

/-! ### PATROL_SCRUB (R365 to R367) -/

section Scrub
variable {s : State}

/-- The scrubber stands at the location after the one read. -/
def State.scrubbed (s : State) : State :=
  { s with mortar := { s.mortar with scrubAt := (s.mortar.scrubAt + 1) % 6442450944 } }

theorem execPatrolScrub_clean (h : s.awake = true) : execPatrolScrub .clean s = .next s.scrubbed :=
  if_neg (by simp [h])

theorem execPatrolScrub_corrected (h : s.awake = true) (row sy : Nat) :
    ∃ r, execPatrolScrub (.corrected row sy) s = .next (s.scrubbed.hbmErr s.scrubLoc.1 row 1 1 r) :=
  ⟨_, if_neg (by simp [h])⟩

/-- The location of device space that cannot be read is poisoned. -/
theorem execPatrolScrub_uncorrectable {pc d : Nat} (h : s.awake = true) (hloc : s.scrubLoc = (pc, some d)) (row sy : Nat) :
    ∃ r, execPatrolScrub (.uncorrectable false row sy) s = .next ((s.scrubbed.poisonDev d).hbmErr pc row 8 4 r) := by
  have hawake : ¬ (! s.awake) = true := by simp [h]
  simp only [execPatrolScrub, if_neg hawake, hloc]
  exact ⟨_, rfl⟩

end Scrub

/-! ### CHUNK_COPY_DONE and COPY_BACK_CHUNK_DONE (R369, R370, R372, R584) -/

section Chunks
variable {s : State} {st j k : Nat} {m : Migration} {ms : List Migration} {js : List Nat}

/-- The migration in hand is over: its pseudo-channel is RETIRED. -/
def State.endMigration (s : State) (st : Nat) (m : Migration) (ms : List Migration) : State :=
  ((s.setMigr st ms).setUnit (pcUnit (st * 64 + m.pc)) .retired).retiredRec 0x2030 (pcUnit (st * 64 + m.pc)) 0

theorem State.endMigration_memView : (s.endMigration st m ms).memView = (s.setMigr st ms).memView := State.raise_memView _

theorem State.endMigration_unit : (s.endMigration st m ms).unit (pcUnit (st * 64 + m.pc)) = .retired :=
  (State.raise_unit _).trans (State.unit_setUnit_same (by decide))

theorem chunkCopyDone_last (hmigr : s.migrOf st = m :: ms) (hout : m.back = false) (hleft : s.chunksLeft st m = []) :
    chunkCopyDone st s = s.endMigration st m ms := by
  simp [chunkCopyDone, State.endMigration, hmigr, hout, hleft]

/-- The chunk in hand takes the free reserve slot. -/
def State.chunkPlaced (s : State) (st k j : Nat) (m : Migration) (ms : List Migration) : State :=
  State.setMigr { s with mortar := { s.mortar with
    remap := s.mortar.remap ++ [{ stack := st, slot := k, src := m.pc, chunk := j }] } } st
    ({ m with chunks := m.chunks.filter (· != j) } :: ms)

theorem chunkCopyDone_placed (hmigr : s.migrOf st = m :: ms) (hout : m.back = false) (hleft : s.chunksLeft st m = j :: js)
    (hfree : s.freeReserve st = some k) (hj : j ≠ 31) :
    chunkCopyDone st s = s.chunkPlaced st k j m ms ∨
      chunkCopyDone st s =
        (s.chunkPlaced st k j m ms).endMigration st { m with chunks := m.chunks.filter (· != j) } ms := by
  have hforth : ¬ m.back = true := by simp [hout]
  simp only [chunkCopyDone, hmigr, if_neg hforth, hleft, hfree, if_neg hj]
  split
  · exact .inr rfl
  · exact .inl rfl

theorem copyBackChunkDone_freed (hmigr : s.migrOf st = m :: ms) (hback : m.back = true) (hchunks : m.chunks = j :: js) :
    ∃ q, copyBackChunkDone st s = State.setMigr { s with mortar := { s.mortar with
      remap := s.mortar.remap.filter fun r => ! (r.stack == st && r.src == m.pc && r.chunk == j) } } st q := by
  simp only [copyBackChunkDone, hmigr, hback, hchunks, Bool.not_true, Bool.false_eq_true, if_false]
  split
  · exact ⟨_, rfl⟩
  · exact ⟨_, rfl⟩

end Chunks

/-! ### NODE_MOVE (R394, R396 to R398) -/

section Nodes
variable {s : State} {n r : Nat}

theorem moveNode_same {nodes : List NodeEnt} (hn : n < nodes.length) (rank : Nat) :
    ((moveNode nodes n r rank)[n]?.map (·.current)) = some r := by
  simp [moveNode, modAt, hn]

theorem moveNode_other {nodes : List NodeEnt} {k : Nat} (hk : k ≠ n) (rank : Nat) :
    (moveNode nodes n r rank)[k]? = nodes[k]? := by
  simp [moveNode, modAt, hk.symm]

/-- Device memory and the node table: what the end of a slice movement leaves alone. -/
def State.nodeView (s : State) : Mem × List NodeEnt := (s.mem, s.mortar.nodes)

theorem State.nodeView_of_memView {t : State} (h : t.memView = s.memView) : t.nodeView = s.nodeView :=
  congrArg (fun x : Mem × MortarS => (x.1, x.2.nodes)) h

theorem State.endMove_nodeView (m : SliceMove) : (s.endMove m).nodeView = s.nodeView := by
  unfold State.endMove
  extract_lets moved t held t1 taken
  have hways : t1.nodeView = s.nodeView := forAll_keeps State.nodeView (fun _ _ => by rfl) held t
  split
  · rfl
  · exact (State.nodeView_of_memView (State.raise_memView _)).trans hways

/-- A node that moves out with every line readable takes the recipient's next rank, and no line is poisoned. -/
theorem nodeMove_nodeView {m : SliceMove} {ms : List SliceMove} {rest : List Nat} (hmoves : s.mortar.moves = m :: ms)
    (hout : m.back = false) (hnodes : m.nodes = n :: rest) (hr : s.nextSlice m.turn = some r) :
    (nodeMove [] s).nodeView = (s.mem, moveNode s.mortar.nodes n r (rankTop s.mortar.nodes r)) := by
  have hleft : m.left s.mortar.nodes = n :: rest := by simp [SliceMove.left, hnodes]
  simp only [nodeMove, hmoves, hleft, hout, hr, Bool.false_eq_true, if_false]
  split
  · exact State.endMove_nodeView _
  · rfl

end Nodes

/-- Settles O45: each event by its equation; the errors detected on the way leave the memory and the tables alone. -/
theorem repairAndScrubbing : Obligations.RepairAndScrubbing := by
  refine ⟨?engine, ?clean, ?corrected, ?uncorrectable, ?copied, ?retired, ?back, ?moved⟩
  case engine =>
    intro s b l e hon hb hl he
    exact ⟨execEngineError_recomputed hon hb hl he, execEngineError_faulted hon hb hl he⟩
  case clean =>
    intro s hawake
    exact execPatrolScrub_clean hawake
  case corrected =>
    intro s row sy hawake
    obtain ⟨r, hrun⟩ := execPatrolScrub_corrected hawake row sy
    have hview := s.scrubbed.hbmErr_memView s.scrubLoc.1 row 1 1 r
    exact ⟨_, hrun, congrArg Prod.fst hview, congrArg (·.2.scrubAt) hview⟩
  case uncorrectable =>
    intro s row sy pc d hawake hloc
    obtain ⟨r, hrun⟩ := execPatrolScrub_uncorrectable hawake hloc row sy
    have hview := (s.scrubbed.poisonDev d).hbmErr_memView pc row 8 4 r
    exact ⟨_, hrun, congrArg Prod.fst hview⟩
  case copied =>
    intro s st m ms j js k hon hmigr hout hleft hfree hj
    refine ⟨chunkCopyDone st s, if_pos hon, ?_⟩
    obtain h | h := chunkCopyDone_placed hmigr hout hleft hfree hj
    · rw [h]
      exact ⟨rfl, rfl⟩
    · have hview := congrArg State.memView h |>.trans State.endMigration_memView
      exact ⟨congrArg (·.2.remap) hview, congrArg Prod.fst hview⟩
  case retired =>
    intro s st m ms hon hmigr hout hleft
    refine ⟨s.endMigration st m ms, ?_, State.endMigration_unit, ?_⟩
    · exact (if_pos hon).trans (congrArg Host.Outcome.next (chunkCopyDone_last hmigr hout hleft))
    · have hview := s.endMigration_memView (st := st) (m := m) (ms := ms)
      exact ⟨congrArg (·.2.remap) hview, congrArg Prod.fst hview⟩
  case back =>
    intro s st m ms j js hon hmigr hback hchunks
    obtain ⟨q, hrun⟩ := copyBackChunkDone_freed hmigr hback hchunks
    exact ⟨_, (if_pos hon).trans (congrArg Host.Outcome.next hrun), rfl, rfl⟩
  case moved =>
    intro s m ms n rest r hon hmoves hout hnodes hr hn
    have hview := nodeMove_nodeView hmoves hout hnodes hr
    have hmem : (nodeMove [] s).mem = s.mem := congrArg Prod.fst hview
    have htable : (nodeMove [] s).mortar.nodes = moveNode s.mortar.nodes n r (rankTop s.mortar.nodes r) :=
      congrArg Prod.snd hview
    refine ⟨nodeMove [] s, if_pos hon, hmem, ?_⟩
    rw [htable]
    exact ⟨moveNode_same hn _, fun k hk => moveNode_other hk _⟩

end Sys2Proof.Machine
end

section
/-! SUPPORT. PIN_ENTRY_WRITE and RESERVED_REGION_WRITE (R378, R389, R393): the words they write, what becomes of the entry and
of the window, and the statement on them. -/

namespace Sys2Proof.Machine

/-! ### The PART_ table -/

section Table
variable {s : State} {o v : Nat}

/-- No state forbids a value in the PART_ table. -/
theorem State.topForbids_partTable (hlo : 0x30000 ≤ o) (hhi : o < 0x40000) : s.topForbids o v = false := by
  have hdbg : isDbg o = false := by
    simp only [isDbg, Bool.and_eq_false_iff, decide_eq_false_iff_not]
    omega
  unfold State.topForbids
  rw [hdbg, if_neg Bool.false_ne_true, if_neg (by omega), if_neg (by omega), if_neg (by omega), if_neg (by omega),
    if_neg (by omega)]

/-- Of the PART_ table only the quota has values outside its range. -/
theorem State.topBadNow_partTable (hlo : 0x30000 ≤ o) (hhi : o < 0x40000) (hquota : o % 0x1000 ≠ 0x18) :
    s.topBadNow o v = false := by
  have hbad : topBad o v = false := by
    unfold topBad
    repeat rw [if_neg (by omega)]
  have hreset : o ≠ 0x20008 := by omega
  simp [State.topBadNow, hbad, hreset]

end Table

/-! ### Pin entries (R389, R393) -/

section Pins
variable {s : State} {n e v : Nat}

/-- The offset of the word of a pin entry that holds VALID. -/
def pinWord (n e : Nat) : Nat := pinOff n e + 0xC

theorem pinWord_eq (n e : Nat) : pinWord n e = 0x3010C + 0x1000 * n + 16 * e := by
  unfold pinWord pinOff; omega

theorem pinWord_range (hn : n < 16) (he : e < 64) : 0x30000 ≤ pinWord n e ∧ pinWord n e < 0x40000 := by
  rw [pinWord_eq]; omega

theorem pinWord_mod (he : e < 64) : pinWord n e % 0x1000 = 0x10C + 16 * e := by
  rw [pinWord_eq]; omega

theorem topAccess_pinWord (hn : n < 16) (he : e < 64) : topAccess (pinWord n e) = .rwl := by
  obtain ⟨hlo, hhi⟩ := pinWord_range hn he
  have hmod := pinWord_mod (n := n) he
  unfold topAccess
  rw [if_neg (by omega), if_neg (by omega), if_neg (by omega), if_pos hhi, hmod]
  simp only [partTable, lookupAccess]
  repeat rw [if_neg (by omega)]
  rw [if_pos (by omega)]

/-- VALID lies in no half of a 64-bit register. -/
theorem topWide_pinWord (hn : n < 16) (he : e < 64) :
    topWide (pinWord n e) = false ∧ topWide (pinWord n e - 4) = false := by
  have hword := pinWord_eq n e
  simp only [topWide, Bool.or_eq_false_iff, Bool.and_eq_false_iff, decide_eq_false_iff_not, beq_eq_false_iff_ne]
  omega

theorem State.topReason_pinWord (h : OpenTop s) (hn : n < 16) (he : e < 64) : s.topReason (pinWord n e) v true = 0 := by
  obtain ⟨hlo, hhi⟩ := pinWord_range hn he
  have hquota : pinWord n e % 0x1000 ≠ 0x18 := by rw [pinWord_mod he]; omega
  have hhaw : isHaw (pinWord n e) = false := by
    simp only [isHaw, Bool.and_eq_false_iff, decide_eq_false_iff_not]
    omega
  exact State.topReason_open h (topAccess_pinWord hn he) (by simp [hhaw]) (State.topForbids_partTable hlo hhi)
    (State.topBadNow_partTable hlo hhi hquota)

theorem topEffect_pinWord (hn : n < 16) (he : e < 64) : topEffect (pinWord n e) v s = s.pinWrite n e (bit v 0) := by
  obtain ⟨hlo, hhi⟩ := pinWord_range hn he
  have hmod := pinWord_mod (n := n) he
  have hpart : (pinWord n e - 0x30000) / 0x1000 = n := by rw [pinWord_eq]; omega
  have hentry : (0x10C + 16 * e - 0x100) / 16 = e := Nat.div_eq_of_lt_le (by omega) (by omega)
  have hvalid : (0x10C + 16 * e) % 16 = 0xC := by omega
  unfold topEffect partEffect
  rw [if_neg (by omega), if_pos hhi]
  simp only [hmod, hpart, hentry]
  rw [if_neg (by omega), if_neg (by omega), if_pos hvalid]

/-- A write of VALID in an open device lays the entry anew. -/
theorem execPinEntryWrite_open (h : OpenTop s) (hn : n < 16) (he : e < 64) (v : Word) :
    execPinEntryWrite n e v s = .next (s.pinWrite n e (bit v.toNat 0)) := by
  obtain ⟨hwide, hlow⟩ := topWide_pinWord hn he
  have hword : 0x30000 + 0x1000 * n + (0x10C + 16 * e) = pinWord n e := by rw [pinWord_eq]; omega
  have htop : writePart n (0x10C + 16 * e) v.toNat s = writeTop (pinWord n e) v.toNat s := by
    rw [writePart, if_pos hn, hword]
  rw [execPinEntryWrite, if_pos he, htop, writeTop_taken (State.deaf_up h.1) hwide (by simp [hlow])
    (State.topReason_pinWord h hn he), topEffect_pinWord hn he]

/-- The entry is taken out: VALID is 0 and no way is skipped. -/
def State.unpinned (s : State) (n e : Nat) : State :=
  { s with mortar := { s.mortar with skipWays := [] } }.setReg (pinOff n e + 0xC) 0

theorem State.pinWrite_off : s.pinWrite n e false = s.unpinned n e := rfl

/-- A judged entry tells its verdict, and an accepted one is VALID again. -/
theorem State.pinWrite_on : ∃ regs, s.pinWrite n e true =
    { (s.unpinned n e).modPart n fun p => { p with pinReason := (s.unpinned n e).pinRefusal n e, pinEntry := e } with
      regs := regs } := by
  unfold State.pinWrite
  extract_lets o cleared judged r told
  rw [if_neg (by decide)]
  split
  · exact ⟨_, rfl⟩
  · exact ⟨(s.unpinned n e).regs, rfl⟩

theorem State.pinWrite_keeps (on : Bool) :
    (s.pinWrite n e on).mem = s.mem ∧ (s.pinWrite n e on).windows = s.windows := by
  cases on with
  | false => exact ⟨rfl, rfl⟩
  | true =>
    obtain ⟨regs, h⟩ := s.pinWrite_on (n := n) (e := e)
    rw [h]
    exact ⟨rfl, rfl⟩

theorem State.pinWrite_judged (hn : n < s.parts.length) :
    ((s.pinWrite n e true).part n).pinReason = (s.unpinned n e).pinRefusal n e ∧
      ((s.pinWrite n e true).part n).pinEntry = e := by
  obtain ⟨regs, h⟩ := s.pinWrite_on (n := n) (e := e)
  have hpart : (s.pinWrite n e true).part n =
      { (s.unpinned n e).part n with pinReason := (s.unpinned n e).pinRefusal n e, pinEntry := e } := by
    rw [h]
    exact State.modPart_part_same (s := s.unpinned n e) hn _
  rw [hpart]
  exact ⟨rfl, rfl⟩

end Pins

/-! ### Reserved windows (R378) -/

section Reserved
variable {s : State} {k v : Nat}

/-- The offset of MEM_RESVk. -/
def resvOff (k : Nat) : Nat := 0x200008 + 4 * k

theorem resvOff_map : ∀ k ≤ 7, 1 ≤ k → topAccess (resvOff k) = .rwl ∧ isHaw (resvOff k) = false ∧
    topWide (resvOff k) = false ∧ (decide (4 ≤ resvOff k) && topWide (resvOff k - 4)) = false := by
  decide

theorem topForbids_resvOff : ∀ k ≤ 7, 1 ≤ k → s.topForbids (resvOff k) v = false := by
  intro k hk7 hk1
  interval_cases k <;> rfl

theorem topBadNow_resvOff : ∀ k ≤ 7, 1 ≤ k → s.topBadNow (resvOff k) v = false := by
  intro k hk7 hk1
  interval_cases k <;> rfl

theorem topEffect_resvOff (hk1 : 1 ≤ k) (hk7 : k ≤ 7) : topEffect (resvOff k) v s = s.reserve k v := by
  have hk : (resvOff k - 0x200008) / 4 = k := by unfold resvOff; omega
  have hrange : 0x20000C ≤ resvOff k ∧ resvOff k < 0x200028 := by unfold resvOff; omega
  unfold topEffect ingEffect
  rw [if_neg (by omega), if_neg (by omega), if_pos (by omega), if_pos hrange, hk]

/-- A write of MEM_RESVk in an open device is the reservation. -/
theorem execReservedRegionWrite_open (h : OpenTop s) (hk1 : 1 ≤ k) (hk7 : k ≤ 7) (v : Word) :
    execReservedRegionWrite k v s = .next (s.reserve k v.toNat) := by
  obtain ⟨haccess, hhaw, hwide, hlow⟩ := resvOff_map k hk7 hk1
  have htaken := State.topReason_open (v := v.toNat) h haccess (by simp [hhaw]) (topForbids_resvOff k hk7 hk1)
    (topBadNow_resvOff k hk7 hk1)
  rw [execReservedRegionWrite, if_pos ⟨hk1, hk7⟩, ← topEffect_resvOff hk1 hk7]
  exact congrArg Host.Outcome.next (writeTop_taken (State.deaf_up h.1) hwide hlow htaken)

/-- The word that a reservation leaves in MEM_RESVk. -/
def resvWord (k v : Nat) : Word := BitVec.ofNat 32 (v &&& topMask (resvOff k))

/-- A write without VALID takes the window away. -/
theorem State.reserve_closed (hv : bit v 31 = false) :
    s.reserve k v = { (s.closeWindow (16 + k)).setReg (resvOff k) (resvWord k v) with resvStatus := k } := by
  simp only [State.reserve, hv, Bool.not_false, if_true, Nat.mul_zero, Nat.zero_add, resvOff, resvWord]

/-- A region that overlaps a valid window is refused. -/
theorem State.reserve_refused (hv : bit v 31 = true) (hfree : s.windowFree (16 + k) (bits v 8 0) (bits v 24 16) = false) :
    s.reserve k v = { s with resvStatus := 16 + k } := by
  simp only [State.reserve, hv, hfree, Bool.not_true, Bool.not_false, Bool.false_eq_true, if_false, if_true, Nat.mul_one]

/-- A region within device memory that overlaps no valid window is set up. -/
theorem State.reserve_opened (hv : bit v 31 = true) (hfree : s.windowFree (16 + k) (bits v 8 0) (bits v 24 16) = true)
    (hsize : bits v 24 16 ≠ 0) (hend : bits v 8 0 + bits v 24 16 ≤ 372) :
    s.reserve k v =
      { (s.openWindow (16 + k) (bits v 8 0) (bits v 24 16) (bits v 29 26) (bit (s.regN 0x70001C) k)).setReg (resvOff k)
          (resvWord k v) with resvStatus := k } := by
  have hfits : ¬ (bits v 24 16 = 0 ∨ Config.usableGiB < bits v 8 0 + bits v 24 16) := by
    unfold Config.usableGiB; omega
  simp only [State.reserve, hv, hfree, Bool.not_true, Bool.false_eq_true, if_false, if_neg hfits, Nat.mul_zero, Nat.zero_add,
    resvOff, resvWord]

theorem State.closeWindow_window {i : Nat} (hi : i < s.windows.length) :
    (s.closeWindow i).windows[i]? = some Window.reset := by
  simp [State.closeWindow, modAt, hi]

end Reserved

/-- Settles O25: a pin entry by its VALID bit, a reserved region by the three answers of `reserve`. -/
theorem pinsAndReservedRegions : Obligations.PinsAndReservedRegions := by
  refine ⟨?pin, ?opened, ?refused, ?closed⟩
  case pin =>
    intro s n e v h hn he
    obtain ⟨hmem, hwindows⟩ := s.pinWrite_keeps (n := n) (e := e) (bit v.toNat 0)
    refine ⟨_, execPinEntryWrite_open h hn he v, hmem, hwindows, fun hvalid hpart => ?on, fun hvalid => ?off⟩
    case on =>
      rw [hvalid]
      exact State.pinWrite_judged hpart
    case off =>
      rw [hvalid]
      exact ⟨rfl, rfl⟩
  case opened =>
    intro s k v h hk1 hk7 hv hfree hsize hend
    refine ⟨_, execReservedRegionWrite_open h hk1 hk7 v, ?_⟩
    rw [State.reserve_opened hv hfree hsize hend]
    exact ⟨rfl, fun hi => State.openWindow_window hi .., rfl⟩
  case refused =>
    intro s k v h hk1 hk7 hv hfree
    exact (execReservedRegionWrite_open h hk1 hk7 v).trans (congrArg _ (State.reserve_refused hv hfree))
  case closed =>
    intro s k v h hk1 hk7 hv
    refine ⟨_, execReservedRegionWrite_open h hk1 hk7 v, ?_⟩
    rw [State.reserve_closed hv]
    exact ⟨rfl, fun hi => State.closeWindow_window hi, rfl⟩

end Sys2Proof.Machine
end

section
/-! SUPPORT. Memory errors (R365, R366, R557 to R560, R646, R647): what a unit's and a row's error do to buckets, device memory
and bricks; each event by its equation; the statement on them. -/

namespace Sys2Proof.Machine

/-! ### Buckets (R557) -/

section Buckets
variable {s : State} {u : UnitKey}

theorem State.raise_buckets (e : ErrEvt) : (s.raise e).repair.buckets = s.repair.buckets := by
  unfold State.raise State.await State.overflow
  simp only
  repeat' split
  all_goals rfl

theorem State.raise_bucketCount (e : ErrEvt) : (s.raise e).bucketCount u = s.bucketCount u := by
  simp only [State.bucketCount, State.raise_buckets, State.now, State.raise_time]

/-- A weight is counted in full: nothing leaks at the moment it is added. -/
theorem State.bucketAdd_bucketCount {w : Nat} (hw : 0 < w) : (s.bucketAdd u w).bucketCount u = s.bucketCount u + w := by
  have hpos : s.bucketCount u + w ≠ 0 := by omega
  have hput : mapGet (unitNum u) (s.bucketAdd u w).repair.buckets =
      some { count := s.bucketCount u + w, at_ := s.now } := by
    simp only [State.bucketAdd, setBucket, if_neg hpos, mapGet_mapPut_same]
  have hnow : (s.bucketAdd u w).now = s.now := rfl
  rw [State.bucketCount, hput, hnow]
  simp [Bucket.at]

theorem State.raiseW_bucketCount {w : Nat} (hu : s.unit u = .inService) (hw : 0 < w) (p : Nat) (r : ErrRec) (c : ErrScope) :
    (s.raiseW u w p r c).bucketCount u = s.bucketCount u + w := by
  have hcounts : (s.unit u == .inService || s.unit u == .retiring) = true := by simp [hu]
  refine (State.raise_bucketCount _).trans ?_
  rw [if_pos hcounts]
  exact State.bucketAdd_bucketCount hw

theorem State.readmitFails_bucketCount (k : UnitKey) : (s.readmitFails k).bucketCount u = s.bucketCount u := by
  refine (State.raise_bucketCount _).trans ?_
  dsimp only
  split <;> rfl

/-- A unit's error is its weight and record, and may fail the readmission of the unit. -/
theorem State.unitErr_cases (w p : Nat) (r : ErrRec) :
    s.unitErr u w p r = s.raiseW u w p r .none ∨ s.unitErr u w p r = (s.raiseW u w p r .none).readmitFails u := by
  unfold State.unitErr
  dsimp only
  split
  · split
    · exact .inr rfl
    · exact .inl rfl
  · exact .inl rfl

theorem State.unitErr_bucketCount {w : Nat} (hu : s.unit u = .inService) (hw : 0 < w) (p : Nat) (r : ErrRec) :
    (s.unitErr u w p r).bucketCount u = s.bucketCount u + w := by
  have hraised := State.raiseW_bucketCount hu hw p r .none
  obtain h | h := s.unitErr_cases (u := u) w p r
  · rw [h, hraised]
  · rw [h, State.readmitFails_bucketCount, hraised]

end Buckets

/-! ### Device memory and bricks -/

section Data
variable {s : State} {u : UnitKey}

/-- Device memory and the bricks with their memories: what detected errors leave alone. -/
def State.dataView (s : State) : Mem × List BrickS := (s.mem, s.bricks)

theorem State.raise_dataView (e : ErrEvt) : (s.raise e).dataView = s.dataView := by rw [State.raise_frame]; rfl

theorem State.raiseW_dataView (w p : Nat) (r : ErrRec) (c : ErrScope) : (s.raiseW u w p r c).dataView = s.dataView := by
  rw [State.raiseW_frame]; rfl

theorem State.readmitFails_dataView : (s.readmitFails u).dataView = s.dataView := by
  refine (State.raise_dataView _).trans ?_
  dsimp only
  split <;> rfl

theorem State.unitErr_dataView (w p : Nat) (r : ErrRec) : (s.unitErr u w p r).dataView = s.dataView := by
  have hraised : (s.raiseW u w p r .none).dataView = s.dataView := State.raiseW_dataView ..
  obtain h | h := s.unitErr_cases (u := u) w p r
  · rw [h, hraised]
  · rw [h, State.readmitFails_dataView, hraised]

/-- An HBM error is one of its pseudo-channel, or, its row at the threshold, one record after both buckets are counted. -/
theorem State.hbmErr_cases (pc row wr wp : Nat) (r : ErrRec) :
    (∃ c, s.hbmErr pc row wr wp r = (s.rowSet pc row c).unitErr (pcUnit pc) wp r.part r) ∨
      ∃ repair free e, s.hbmErr pc row wr wp r = State.raise { s with repair := repair, free := free } e := by
  have hcounted : ∀ (x : Prop) [Decidable x] (t : State), ∃ repair,
      (if x then t.bucketAdd (pcUnit pc) wp else t) = { t with repair := repair } := by
    intro x _ t
    split
    · exact ⟨_, rfl⟩
    · exact ⟨t.repair, rfl⟩
  unfold State.hbmErr
  extract_lets u c0 t rowPerm pcPerm counts t1 spare
  have ht1 : ∃ repair, t1 = { t with repair := repair } := hcounted _ t
  clear_value t1
  obtain ⟨repair, rfl⟩ := ht1
  split
  · exact .inl ⟨_, rfl⟩
  · split
    · exact .inr ⟨_, _, _, rfl⟩
    · split
      · exact .inr ⟨_, _, _, rfl⟩
      · exact .inr ⟨_, _, _, rfl⟩

theorem State.hbmErr_dataView (pc row wr wp : Nat) (r : ErrRec) : (s.hbmErr pc row wr wp r).dataView = s.dataView := by
  obtain ⟨c, h⟩ | ⟨repair, free, e, h⟩ := s.hbmErr_cases pc row wr wp r
  · rw [h]
    exact State.unitErr_dataView ..
  · rw [h]
    exact State.raise_dataView _

end Data

/-! ### ECC_CORRECTED and ECC_UNCORRECTABLE (R365, R366) -/

section Ecc
variable {s : State} {e : EccSite} {ok : Bool}

/-- Memory that is on meets an error at a site that exists. -/
theorem site_live (hon : s.memoryOn = true) (hsite : siteOk e = true) : ¬ (! s.memoryOn || ! siteOk e) = true := by
  simp [hon, hsite]

theorem execEccCorrected_cache (hon : s.memoryOn = true) (hsite : siteOk e = true) (hcache : e.inCache = true) :
    execEccCorrected e s =
      .next (s.unitErr (wayUnit e.slice e.way) 1 (s.recPart e.addr) (s.wayRec 0x2001 0 e 0)) := by
  rw [execEccCorrected, if_neg (site_live hon hsite), if_pos hcache]

theorem execEccCorrected_hbm (hon : s.memoryOn = true) (hsite : siteOk e = true) (hcache : e.inCache = false) :
    execEccCorrected e s =
      .next (s.hbmErr (pcOf e.addr) e.row 1 1 (s.hbmRec 0x2001 0 e.addr e.row e.symbols 0)) := by
  rw [execEccCorrected, if_neg (site_live hon hsite), hcache, if_neg Bool.false_ne_true]

/-- A line or location that reads well after all loses nothing. -/
theorem execEccUncorrectable_good (hon : s.memoryOn = true) (hsite : siteOk e = true)
    (hgood : ok = true ∨ (e.inCache = true ∧ e.dirty = false ∧ e.pinned = false)) :
    ∃ t, execEccUncorrectable e ok s = .next t ∧ t.dataView = s.dataView := by
  rw [execEccUncorrectable, if_neg (site_live hon hsite)]
  split
  · have hread : (ok || ! (e.dirty || e.pinned)) = true := by
      obtain h | ⟨-, hdirty, hpinned⟩ := hgood
      · simp [h]
      · simp [hdirty, hpinned]
    rw [if_pos hread]
    exact ⟨_, rfl, State.unitErr_dataView ..⟩
  · next hhbm =>
    have hread : ok = true := hgood.resolve_right fun h => hhbm h.1
    rw [if_pos hread]
    exact ⟨_, rfl, State.hbmErr_dataView ..⟩

/-- A location that cannot be read again, or a line that has no good copy below, is poisoned. -/
theorem execEccUncorrectable_lost (hon : s.memoryOn = true) (hsite : siteOk e = true)
    (hlost : e.inCache = false ∨ e.dirty = true ∨ e.pinned = true) :
    ∃ t, execEccUncorrectable e false s = .next t ∧ t.dataView = (s.poisonDev e.addr).dataView := by
  rw [execEccUncorrectable, if_neg (site_live hon hsite)]
  split
  · next hcache =>
    have hkept : ¬ (false || ! (e.dirty || e.pinned)) = true := by
      obtain h | h | h := hlost
      · simp [hcache] at h
      · simp [h]
      · simp [h]
    rw [if_neg hkept]
    exact ⟨_, rfl, State.unitErr_dataView ..⟩
  · rw [if_neg Bool.false_ne_true]
    exact ⟨_, rfl, State.hbmErr_dataView ..⟩

theorem execEccCorrected_off (h : s.memoryOn = false) : execEccCorrected e s = .next s := if_pos (by simp [h])

theorem execEccUncorrectable_off (h : s.memoryOn = false) : execEccUncorrectable e ok s = .next s := if_pos (by simp [h])

end Ecc

/-! ### TAG_COPY_ERROR (R647) -/

section Tags
variable {s : State} {slice : Nat}

theorem execTagCopyError_both (hon : s.memoryOn = true) (hslice : slice < 8) :
    execTagCopyError slice true s = .next (s.raise1 0x2038 4 (sliceUnit slice) 0) := by
  rw [execTagCopyError, if_neg (by simp [hon, hslice])]
  rfl

theorem execTagCopyError_one (hon : s.memoryOn = true) (hslice : slice < 8) : ∃ r : ErrRec, r.code = 0x2035 ∧
    r.severity = 0 ∧ execTagCopyError slice false s = .next (s.unitErr (sliceUnit slice) 16 0 r) := by
  rw [execTagCopyError, if_neg (by simp [hon, hslice])]
  exact ⟨_, rfl, rfl, rfl⟩

end Tags

/-! ### OB_AM_ECC_ERROR (R646) -/

section BrickErrors
variable {s : State} {b a : Nat} {am : Bool}

/-- A location of OB or AM is poisoned. -/
def BrickS.poisonAt (k : BrickS) (am : Bool) (a : Nat) : BrickS :=
  if am then { k with am := k.am.poisonAt (a / 64) } else { k with ob := k.ob.poisonAt (a / 64) }

theorem BrickS.poisonAt_ob (k : BrickS) (am : Bool) (a : Nat) :
    (k.poisonAt am a).ob = if am = true then k.ob else k.ob.poisonAt (a / 64) := by
  cases am <;> rfl

theorem BrickS.poisonAt_am (k : BrickS) (am : Bool) (a : Nat) :
    (k.poisonAt am a).am = if am = true then k.am.poisonAt (a / 64) else k.am := by
  cases am <;> rfl

theorem State.modBrick_brick_same (hb : b < s.bricks.length) (g : BrickS → BrickS) :
    (s.modBrick b g).brick b = g (s.brick b) := by
  simp [State.brick, State.modBrick, modAt, List.getD_eq_getElem?_getD, hb]

/-- A brick that is powered meets an error within its OB or AM. -/
theorem brick_live (hon : s.memoryOn = true) (hb : b < 16) (hpower : (s.brick b).powered = true)
    (ha : a < if am = true then Config.amBytes else Config.obBytes) :
    ¬ (! s.memoryOn || decide (16 ≤ b) || ! (s.brick b).powered ||
      decide ((if am then Config.amBytes else Config.obBytes) ≤ a)) = true := by
  simp only [hon, hpower, Bool.not_true, Bool.false_or, Bool.or_false, Bool.or_eq_true, decide_eq_true_eq]
  omega

theorem execObAmEccError_corrected (hon : s.memoryOn = true) (hb : b < 16) (hpower : (s.brick b).powered = true)
    (ha : a < if am = true then Config.amBytes else Config.obBytes) : ∃ r : ErrRec, r.code = 0x2050 ∧ r.severity = 0 ∧
      execObAmEccError b am true a s = .next (s.unitErr (brickUnit b) 1 ((s.brickOwner b).getD 0) r) := by
  rw [execObAmEccError, if_neg (brick_live hon hb hpower ha)]
  exact ⟨_, rfl, rfl, rfl⟩

theorem execObAmEccError_lost (hon : s.memoryOn = true) (hb : b < 16) (hpower : (s.brick b).powered = true)
    (ha : a < if am = true then Config.amBytes else Config.obBytes) : ∃ t, execObAmEccError b am false a s = .next t ∧
      t.dataView = (s.modBrick b fun k => k.poisonAt am a).dataView := by
  rw [execObAmEccError, if_neg (brick_live hon hb hpower ha)]
  exact ⟨_, rfl, State.unitErr_dataView ..⟩

end BrickErrors

/-- Settles O44: each event by its equation; the errors counted and recorded leave device memory and bricks alone. -/
theorem memoryErrorsPoisonAndCount : Obligations.MemoryErrorsPoisonAndCount := by
  refine ⟨?cache, ?counted, ?hbm, ?lost, ?good, ?tagBoth, ?tagOne, ?brick, ?off⟩
  case cache =>
    intro s e hon hsite hcache
    exact execEccCorrected_cache hon hsite hcache
  case counted =>
    intro s e hon hsite hcache hunit
    exact ⟨_, execEccCorrected_cache hon hsite hcache, State.unitErr_bucketCount hunit one_pos ..,
      congrArg Prod.fst (State.unitErr_dataView ..)⟩
  case hbm =>
    intro s e hon hsite hcache
    exact ⟨_, execEccCorrected_hbm hon hsite hcache, Prod.mk.inj (State.hbmErr_dataView ..)⟩
  case lost =>
    intro s e hon hsite hlost
    obtain ⟨t, hrun, hdata⟩ := execEccUncorrectable_lost hon hsite hlost
    exact ⟨t, hrun, Prod.mk.inj hdata⟩
  case good =>
    intro s e ok hon hsite hgood
    obtain ⟨t, hrun, hdata⟩ := execEccUncorrectable_good hon hsite hgood
    exact ⟨t, hrun, Prod.mk.inj hdata⟩
  case tagBoth =>
    intro s slice hon hslice
    exact execTagCopyError_both hon hslice
  case tagOne =>
    intro s slice hon hslice
    exact execTagCopyError_one hon hslice
  case brick =>
    intro s b am a hon hb hpower ha
    obtain ⟨t, hrun, hdata⟩ := execObAmEccError_lost hon hb hpower ha
    obtain ⟨hmem, hbricks⟩ := Prod.mk.inj hdata
    refine ⟨execObAmEccError_corrected hon hb hpower ha, t, hrun, hmem, fun hlen => ?_⟩
    have hbrick : t.brick b = (s.brick b).poisonAt am a :=
      (congrArg (·.getD b BrickS.reset) hbricks).trans (State.modBrick_brick_same hlen _)
    rw [hbrick]
    exact ⟨BrickS.poisonAt_ob .., BrickS.poisonAt_am ..⟩
  case off =>
    intro s e hoff
    exact ⟨execEccCorrected_off hoff, fun _ => execEccUncorrectable_off hoff⟩

end Sys2Proof.Machine
end

section
/-! SUPPORT. Three states of the ingest die, each with the statement it refutes: a set-up map that lists a stream's word twice
(R422, R641), a device on its way from IDLE to DOZE (R461, R543), and output slots beyond this chip (R449, R463). -/

namespace Sys2Proof.Machine

/-- An epoch of exposure 0 that has just opened. -/
def Epoch.opened : Epoch :=
  { exposure := 0, state := .gathering, tOpen := 0, stamp := 0, tClose := 0, reason := 0, ref := none, frames := [], out := none }

/-- A device that is up, with these set-up words and, in stream 0, this epoch. -/
def State.withEpoch (regs : List (Nat × Word)) (e : Epoch) : State :=
  { State.reset with
    phase := .up, boot := { BootS.reset with ready := true }, regs := regs
    ing := { IngS.reset with streams := [{ IngStream.reset with epochs := [e] }] } }

/-! ### Set-up words (R422, R641) -/

/-- Rules 0 and 1 take every packet of port 0, for streams 0 and 1. Stream 0 is enabled for partition 0; its word stands twice
in the sparse map, the second time with partition 1. -/
def State.strTwice : State :=
  .withEpoch [(0x402000, 0x80100000), (0x402020, 0x80100000), (0x402028, 0x100), (0x404000, 0x80000000), (0x404000, 0x10000)]
    .opened

theorem State.strTwice_open : OpenTop State.strTwice := ⟨rfl, rfl, rfl⟩

/-- Stream 0 is enabled, and a word of zeros changes no other of its fields. -/
theorem State.strTwice_enabled :
    State.strTwice.strOn 0 = true ∧ (0 : Word).toNat % 2 ^ 31 = State.strTwice.strW 0 0 % 2 ^ 31 := by
  decide

/-- The word of zeros drops the first entry, now equal to the reset value, and so uncovers partition 1: the two rules
conflict, and the write is refused with reason 0x5. -/
theorem writeStr_strTwice : ((writeStr 0 0 (enOff 0) State.strTwice).istream 0).reason = 5 ∧
    ((writeStr 0 0 (enOff 0) State.strTwice).istream 0).epochs = [.opened] := by
  decide +kernel

/-- Refutes O29: where the sparse map lists a stream's word twice, the write that disables the stream is refused as a conflict
and leaves its epoch open. -/
theorem not_ingestSetUp : ¬ Obligations.IngestSetUp := by
  rintro ⟨-, -, -, -, -, -, -, hdisable, -⟩
  obtain ⟨hon, hword⟩ := State.strTwice_enabled
  obtain ⟨t, hrun, hepochs, -⟩ := hdisable State.strTwice 0 0 State.strTwice_open (by decide) hon hword
  have ht : writeStr 0 0 (enOff 0) State.strTwice = t := Host.Outcome.next.inj hrun
  rw [← ht, writeStr_strTwice.2] at hepochs
  exact List.cons_ne_nil _ _ hepochs

/-! ### Packets (R410, R461, R543) -/

/-- A device that is entering DOZE from IDLE, its ingest port 0 started and linked. -/
def State.entersDoze : State :=
  { State.reset with
    phase := .up, boot := { BootS.reset with ready := true }, regs := [(0x400100, 1)]
    ing := { IngS.reset with ports := [{ IngPort.reset with linkUp := true }] }
    wdn := { WdnS.reset with st := .idle, busy := true } }

/-- An intact packet for port 0 that finds the receive buffer full. -/
def overrunPacket : Packet :=
  { port := 0, fcsOk := true, fecBad := false, addressed := true, udp := true, fragment := false, checksumOk := true
    bufferFull := true, vlan := none, ipv6 := false, dstIp := 0, udpPort := 0, payload := [] }

/-- Port 0 takes packets, and this one fails a check. -/
theorem State.entersDoze_counts : State.entersDoze.awake = true ∧ State.entersDoze.ingestUp 0 = true ∧
    State.entersDoze.unit (ingUnit 0) = .inService ∧ pktReason overrunPacket = some 9 := by
  decide

/-- The packet abandons the entry of DOZE, whatever becomes of it. -/
theorem ingestPacket_entersDoze : (ingestPacket overrunPacket State.entersDoze).wdn.st = .run := by
  decide +kernel

/-- Refutes O49: an intact packet that is dropped for a full buffer while DOZE is being entered is not only counted, it also
returns the device to RUN. -/
theorem not_packetsAndLinks : ¬ Obligations.PacketsAndLinks := by
  rintro ⟨hcounted, -⟩
  obtain ⟨hawake, hup, hunit, hreason⟩ := State.entersDoze_counts
  have hrun := hcounted State.entersDoze overrunPacket 9 hawake (by decide) rfl hup rfl hunit hreason
  have hnext : ingestPacket overrunPacket State.entersDoze = _ := Host.Outcome.next.inj hrun
  have hidle : (ingestPacket overrunPacket State.entersDoze).wdn.st = .idle := by rw [hnext]; rfl
  rw [ingestPacket_entersDoze] at hidle
  exact absurd hidle (by decide)

/-! ### Epoch records (R449, R452, R463) -/

/-- Of stores that all lie on other chips nothing becomes visible here. -/
theorem State.commit_far {l : List Store} (h : ∀ t ∈ l, t.isFar = true) (s : State) (p : Nat) : s.commit p l = s := by
  have hnear : l.filter (fun t => ! t.isFar) = [] := List.filter_eq_nil_iff.mpr fun t ht => by simp [h t ht]
  have hbytes : devBytes l = 0 := by
    have hnone : l.filter (fun t => t.mem == 2 && ! t.isFar) = [] :=
      List.filter_eq_nil_iff.mpr fun t ht => by simp [h t ht]
    rw [devBytes, hnone]
    rfl
  rw [State.commit, if_pos hbytes, hnear]
  rfl

/-- The record of an epoch whose output slot lies on another chip leaves device memory as it is. -/
theorem epochWritten_far {s : State} {n x : Nat} (h : chipField (s.slotAt n x) ≠ 0) : (epochWritten n x s).mem = s.mem := by
  have hcommit (bs : List Byte) : s.commit (s.strPart n) [{ mem := 2, brick := 0, addr := s.slotAt n x, bytes := bs }] = s :=
    State.commit_far (by simpa [Store.isFar] using h) s _
  unfold epochWritten
  split
  · rfl
  · split
    · rfl
    · simp only [hcommit, ite_self]
      rfl

theorem State.epochRecord_length_pos (s : State) (n : Nat) (e : Epoch) (o : FusionOut) : 0 < (s.epochRecord n e o).length := by
  simp only [State.epochRecord, List.length_append, List.length_replicate]
  omega

/-- A store of some bytes marks the granule of the first as written. -/
theorem Mem.put_written_first {m : Mem} {g a : Nat} {bs : List Byte} (h : 0 < bs.length) : a / g ∈ (m.put g a bs).written := by
  have hle : a / g ≤ (a + bs.length - 1) / g := Nat.div_le_div_right (by omega)
  rw [Mem.put, if_neg (by omega)]
  simp only [setSplice, List.mem_append, List.mem_range'_1]
  omega

/-- An outcome of the fusion unit without members. -/
def FusionOut.bare : FusionOut :=
  { level := 0, statuses := [], contested := 0, unresolved := 0, outvoted := 0, covered3 := [], rejected := [], blockMap := [] }

/-- The epoch once the fusion unit has that outcome. -/
def Epoch.fused : Epoch := { Epoch.opened with state := .fusing, out := some .bare }

/-- The fused epoch stands in stream 0, and the output slots of the stream begin at chip 1. -/
def State.slotFar : State := .withEpoch [(0x40401C, 0x10000)] .fused

/-- The epoch's record is due; its slot lies in no window and on another chip. -/
theorem State.slotFar_due : State.slotFar.awake = true ∧
    State.slotFar.epoch? 0 0 = some .fused ∧
    State.slotFar.keylessAt (State.slotFar.strPart 0) (State.slotFar.slotAt 0 0) 1 = false ∧
    chipField (State.slotFar.slotAt 0 0) = 1 := by
  decide +kernel

theorem exec_epochWritten {s : State} (h : s.awake = true) (n x : Nat) :
    exec (.epochWritten n x) s = .next (epochWritten n x s) := if_pos h

/-- Refutes O50: where the output slots of a stream lie on another chip, no byte of an epoch's record is stored in the memory of
this one. -/
theorem not_epochsCloseFuseAndAreWritten : ¬ Obligations.EpochsCloseFuseAndAreWritten := by
  rintro ⟨-, -, -, -, hwritten⟩
  obtain ⟨hawake, hepoch, hkeyed, hfar⟩ := State.slotFar_due
  obtain ⟨t, hrun, -, hmem, -⟩ := hwritten State.slotFar 0 0 _ .bare hawake hepoch rfl hkeyed
  have ht : epochWritten 0 0 State.slotFar = t := Host.Outcome.next.inj ((exec_epochWritten hawake 0 0).symm.trans hrun)
  have hblank : t.mem = Mem.empty := ht ▸ epochWritten_far (by rw [hfar]; decide)
  have hfirst := Mem.put_written_first (m := State.slotFar.mem) (g := 64) (a := State.slotFar.slotAt 0 0)
    (State.slotFar.epochRecord_length_pos 0 .fused .bare)
  rw [← hmem, hblank] at hfirst
  exact List.not_mem_nil hfirst

end Sys2Proof.Machine
end

section
/-! SUPPORT. Hawser ports, connections and frames (R471, R472, R474 to R477, R479, R492): what an update of a port or of a
connection leaves, what sending a frame keeps, and how a received frame is taken. -/

namespace Sys2Proof.Machine

/-! ### Ports -/

section Ports
variable {s : State} {p q : Nat} {g : HawPort → HawPort}

theorem State.modPort_port_same (hp : p < s.haw.ports.length) (g : HawPort → HawPort) :
    (s.modPort p g).port p = g (s.port p) := by
  simp [State.port, State.modPort, modAt, List.getD_eq_getElem?_getD, hp]

/-- What an update of a port keeps reads as before at every port. -/
theorem State.modPort_keeps {α : Type} (f : HawPort → α) (hg : ∀ x, f (g x) = f x) (q : Nat) :
    f ((s.modPort p g).port q) = f (s.port q) := by
  simp only [State.port, State.modPort, modAt, List.getD_eq_getElem?_getD, List.getElem?_modify]
  cases s.haw.ports[q]? with
  | none => rfl
  | some x =>
    by_cases hpq : p = q
    · simp [hpq, hg]
    · simp [hpq]

@[simp] theorem State.raiseW_haw (u : UnitKey) (w n : Nat) (r : ErrRec) (c : ErrScope) : (s.raiseW u w n r c).haw = s.haw := by
  rw [State.raiseW_frame]

/-- A failed readmission takes its port out of service and leaves its link-level retry as negotiated. -/
theorem State.readmitFails_retry (u : UnitKey) (q : Nat) : ((s.readmitFails u).port q).retry = (s.port q).retry := by
  have hraised : ∀ t : State, ((t.raise1 (failCode u.kind) 0 u 0).port q).retry = (t.port q).retry := fun t => by
    simp only [State.port, State.raise1, State.raise_haw]
  refine (hraised _).trans ?_
  dsimp only
  split
  · exact State.modPort_keeps (g := fun p => { p with state := .retired }) HawPort.retry (fun _ => rfl) q
  · rfl

theorem State.portErr_retry (code sev w chip lane psn n : Nat) (q : Nat) :
    ((s.portErr p code sev w chip lane psn n).port q).retry = (s.port q).retry := by
  have hraised : ∀ r, ((s.raiseW (hawUnit p) w 0 r .none).port q).retry = (s.port q).retry := fun r => by
    simp only [State.port, State.raiseW_haw]
  obtain h | h := s.unitErr_cases (u := hawUnit p) w 0 (linkRec s.now code sev (hawUnit p) 0 p chip lane psn n 0)
  · rw [State.portErr, h, hraised]
  · rw [State.portErr, h, State.readmitFails_retry, hraised]

end Ports

/-! ### Sending (R476, R492, R616) -/

section Sending
variable {s : State} {chip lane : Nat}

theorem State.sansLink_mem {s t : State} (h : s.sansLink = t.sansLink) : s.mem = t.mem := by
  have k := congrArg State.mem h; exact k

@[simp] theorem State.advanceTxc_conns (s : State) : s.advanceTxc.haw.conns = s.haw.conns := by
  unfold State.advanceTxc State.raise1
  dsimp only
  split
  · rfl
  · split
    · rfl
    · rw [State.raise_haw]

@[simp] theorem State.xmit_conns (s : State) (p c l t psn job : Nat) (op d : List Byte) :
    (s.xmit p c l t psn job op d).haw.conns = s.haw.conns := by
  unfold State.xmit State.xmit1
  extract_lets u
  have hu : u.haw.conns = s.haw.conns := by
    simp only [u]
    split
    · rfl
    · exact s.advanceTxc_conns
  split
  · exact hu
  · exact hu

@[simp] theorem State.sendCtrl_conns (s : State) (c l t job : Nat) (op d : List Byte) :
    (s.sendCtrl c l t job op d).haw.conns = s.haw.conns := by
  unfold State.sendCtrl
  split
  · rfl
  · split
    · rfl
    · exact State.xmit_conns ..

/-! ### Connections (R476) -/

/-- Connections are kept with the links and depend on nothing else. -/
theorem State.conn_haw {t : State} (h : t.haw = s.haw) (chip lane : Nat) : t.conn chip lane = s.conn chip lane := by
  simp only [State.conn, State.planeFor, State.portUp, State.port, State.planesOf, h]

@[simp] theorem State.conn_chip (s : State) (chip lane : Nat) : (s.conn chip lane).chip = chip := by
  unfold State.conn
  cases hfind : s.haw.conns.find? fun c => c.chip == chip && c.lane == lane with
  | none => rfl
  | some c => simpa using And.left (by simpa using List.find?_some hfind)

@[simp] theorem State.conn_lane (s : State) (chip lane : Nat) : (s.conn chip lane).lane = lane := by
  unfold State.conn
  cases hfind : s.haw.conns.find? fun c => c.chip == chip && c.lane == lane with
  | none => rfl
  | some c => simpa using And.right (by simpa using List.find?_some hfind)

/-- The connection set last is the one that is read. -/
theorem State.conn_of_head {c : Conn} {l : List Conn} (h : s.haw.conns = c :: l) (hchip : c.chip = chip)
    (hlane : c.lane = lane) : s.conn chip lane = c := by
  simp [State.conn, h, hchip, hlane]

theorem State.mem_unacked_of_head {c : Conn} {l : List Conn} {f : TxFrame} (h : s.haw.conns = c :: l) (hchip : c.chip = chip)
    (hlane : c.lane = lane) (hf : f ∈ c.unacked) : f ∈ (s.conn chip lane).unacked := by
  rwa [State.conn_of_head h hchip hlane]

/-- A connection on which frames may wait is one that the links keep. -/
theorem State.conn_fresh_or_mem {c : Conn} (h : s.conn chip lane = c) : c.unacked = [] ∨ c ∈ s.haw.conns := by
  unfold State.conn at h
  cases hfind : s.haw.conns.find? fun c => c.chip == chip && c.lane == lane with
  | none =>
    rw [hfind] at h
    exact .inl (h ▸ rfl)
  | some d =>
    rw [hfind] at h
    exact .inr (h ▸ List.mem_of_find?_eq_some hfind)

/-- An acknowledgement sent settles what is owed and nothing else of its connection. -/
theorem State.sendAck_conn (s : State) (chip lane : Nat) :
    (s.sendAck chip lane).conn chip lane = { s.conn chip lane with rxOwed := 0 } :=
  State.conn_of_head (State.sendCtrl_conns ..) (s.conn_chip chip lane) (s.conn_lane chip lane)

@[simp] theorem State.sendAck_sansLink (s : State) (chip lane : Nat) : (s.sendAck chip lane).sansLink = s.sansLink :=
  State.sendCtrl_sansLink ..

@[simp] theorem State.sendSeq_sansLink (s : State) (chip lane type owner tag job : Nat) (op data : List Byte) :
    (s.sendSeq chip lane type owner tag job op data).sansLink = s.sansLink := by
  unfold State.sendSeq
  dsimp only
  split
  · rfl
  · split
    · rfl
    · exact State.xmit_sansLink ..

/-- A sequenced frame that finds a plane waits on its connection for its acknowledgement. -/
theorem State.sendSeq_waits (hplane : (s.planeFor chip lane).isSome = true) (type owner tag job : Nat) (op data : List Byte) :
    ∃ f ∈ ((s.sendSeq chip lane type owner tag job op data).conn chip lane).unacked,
      f.type = type ∧ f.op = op ∧ f.data = data := by
  have hsome : (s.connPlane (s.conn chip lane)).isSome = true := by
    unfold State.connPlane
    split
    · rfl
    · rwa [State.conn_chip, State.conn_lane]
  obtain ⟨p, hp⟩ := Option.isSome_iff_exists.mp hsome
  unfold State.sendSeq
  simp only [hp]
  split
  · exact ⟨_, State.mem_unacked_of_head rfl (s.conn_chip chip lane) (s.conn_lane chip lane)
      (List.mem_append_right _ (List.mem_singleton_self _)), rfl, rfl, rfl⟩
  · exact ⟨_, State.mem_unacked_of_head (State.xmit_conns ..) (s.conn_chip chip lane) (s.conn_lane chip lane)
      (List.mem_append_right _ (List.mem_singleton_self _)), rfl, rfl, rfl⟩

end Sending

/-! ### Receiving (R474, R476, R479, R615) -/

section Receiving
variable {s : State} {h : HawFrame} {k : State → State}

theorem State.receive_heard (hh : Hears s h) (k : State → State) : s.receive h k = k (s.acked h) := by
  obtain ⟨hon, htakes, hauth⟩ := hh
  simp [State.receive, State.acked, hon, htakes, hauth]

theorem State.receive_untaken (hh : s.online = false ∨ s.takes h.port = false) : s.receive h k = s := by
  unfold State.receive
  exact if_pos (by simpa using hh)

theorem State.receive_unauthentic (hon : s.online = true) (htakes : s.takes h.port = true) (hauth : s.authentic h = false) :
    s.receive h k = (s.modPort h.port fun p => { p with authFail := min (p.authFail + 1) (2 ^ 32 - 1) }).portErr h.port
      0x3006 0 1 h.src h.lane 0 0 := by
  simp [State.receive, sat32, hon, htakes, hauth]

/-- The expected frame takes its place, is served, and may bring the 32nd acknowledgement owed. -/
theorem State.inOrder_expected (hpsn : h.psn = (s.conn h.src h.lane).rxNext) : s.inOrder h k = (k (s.took h)).ackAt32 h :=
  if_pos hpsn

/-- A frame out of sequence is answered with the PSN expected. -/
theorem State.inOrder_other (hpsn : h.psn ≠ (s.conn h.src h.lane).rxNext) :
    s.inOrder h k = s.sendCtrl h.src h.lane 7 0 (nakOp 0 0 (s.conn h.src h.lane).rxNext) [] := if_neg hpsn

theorem State.took_rxNext (hpsn : h.psn = (s.conn h.src h.lane).rxNext) :
    ((s.took h).conn h.src h.lane).rxNext = (h.psn + 1) % 2 ^ 32 := by
  have htaken : ((s.took h).conn h.src h.lane).rxNext = ((s.conn h.src h.lane).rxNext + 1) % 2 ^ 32 :=
    congrArg Conn.rxNext (State.conn_of_head (s := s.took h) rfl (by simp) (by simp))
  rw [htaken, hpsn]

theorem State.ackAt32_sansLink (s : State) (h : HawFrame) : (s.ackAt32 h).sansLink = s.sansLink := by
  unfold State.ackAt32
  split
  · exact State.sendAck_sansLink ..
  · rfl

/-- The acknowledgement that a frame brings leaves its connection's sequence and its frames that wait. -/
theorem State.ackAt32_conn (s : State) (h : HawFrame) :
    ((s.ackAt32 h).conn h.src h.lane).rxNext = (s.conn h.src h.lane).rxNext ∧
      ((s.ackAt32 h).conn h.src h.lane).unacked = (s.conn h.src h.lane).unacked := by
  unfold State.ackAt32
  split
  · rw [State.sendAck_conn]
    exact ⟨rfl, rfl⟩
  · exact ⟨rfl, rfl⟩

end Receiving

end Sys2Proof.Machine
end

section
/-! SUPPORT. Received frames (R474 to R476, R479 to R483, R490 to R493, R497): each frame command by the way its frame is
taken, and the statements on frames that fail authentication, that stand in a sequence, and that do not. -/

namespace Sys2Proof.Machine

/-! ### Frames that are not heard (R479, R615) -/

/-- A frame command hands its frame to `receive`, whatever its type; for a NAK the acknowledgement that it carries waits. -/
theorem exec_frame (s : State) (h : HawFrame) {i : Instr}
    (hi : i ∈ [Instr.write h, .readReq h, .readResp h, .collData h, .collCtrl h, .ack h, .nak h, .probe h, .portState h]) :
    ∃ psn k, exec i s = .next (s.receive { h with ackPsn := psn } k) := by
  simp only [List.mem_cons, List.not_mem_nil, or_false] at hi
  obtain rfl | rfl | rfl | rfl | rfl | rfl | rfl | rfl | rfl := hi
  all_goals exact ⟨_, _, rfl⟩

/-- Settles O52: whatever its type, the frame is handed to `receive`, which stops it. -/
theorem unauthenticFramesAreDropped : Obligations.UnauthenticFramesAreDropped := by
  intro s h i hi
  obtain ⟨psn, k, hrun⟩ := exec_frame s h hi
  refine ⟨?_, ?_⟩
  · intro hon htakes hauth
    rw [hrun, State.receive_unauthentic (h := { h with ackPsn := psn }) hon htakes hauth]
  · intro hdown
    rw [hrun, State.receive_untaken (h := { h with ackPsn := psn }) hdown]

/-! ### Sequenced frames (R476, R480, R482, R483, R493) -/

section Sequenced
variable {s u : State} {h : HawFrame} {n : Nat}

theorem execWrite_heard (hh : Hears s h) :
    execWrite h s = .next ((s.acked h).wakeUp.inOrder h (serveWrite h)) := by
  rw [execWrite, State.receive_heard hh]

theorem execReadReq_heard (hh : Hears s h) :
    execReadReq h s = .next ((s.acked h).wakeUp.inOrder h (serveRead h)) := by
  rw [execReadReq, State.receive_heard hh]

theorem execReadResp_heard (hh : Hears s h) :
    execReadResp h s = .next ((s.acked h).inOrder h fun s => s.answered (beNat (sliceB h.op 8 4)) h.data) := by
  rw [execReadResp, State.receive_heard hh]

theorem execCollData_heard (hh : Hears s h) :
    execCollData h s = .next ((s.acked h).wakeUp.inOrder h (serveCollData h)) := by
  rw [execCollData, State.receive_heard hh]

/-- A write that the job's windows allow is stored; the links are left alone. -/
theorem serveWrite_stores (hjob : u.jobPart h.job = some n)
    (hok : u.denies n (beNat (sliceB h.op 0 8)) h.data.length = false) :
    (serveWrite h u).mem = u.mem.put 64 (beNat (sliceB h.op 0 8)) h.data ∧ (serveWrite h u).haw = u.haw := by
  simp only [serveWrite, hjob, hok, Bool.false_eq_true, if_false]
  by_cases hdata : h.data = []
  · simp [hdata, State.storeDev, Mem.put]
  · have hlen : h.data.length ≠ 0 := by simpa using hdata
    rw [if_neg hdata, State.storeDev, if_neg hlen]
    exact ⟨rfl, rfl⟩

/-- A write for a job that no partition runs is refused and stores nothing. -/
theorem serveWrite_refused (hjob : u.jobPart h.job = none) : (serveWrite h u).mem = u.mem := by
  simp only [serveWrite, hjob, State.refuse]
  exact State.sansLink_mem (State.sendCtrl_sansLink ..)

/-- A read that the job's windows allow queues the bytes asked for and stores nothing. -/
theorem serveRead_answers {off len : Nat} (hoff : beNat (sliceB h.op 0 8) = off)
    (hlen : min 8192 (beNat (sliceB h.op 12 4)) = len) (hjob : u.jobPart h.job = some n) (hok : u.denies n off len = false) (hclean : u.mem.poisoned off len = false)
    (hplane : (u.planeFor h.src h.lane).isSome = true) :
    (serveRead h u).mem = u.mem ∧ ∃ f ∈ ((serveRead h u).conn h.src h.lane).unacked, f.type = 3 ∧
      f.data = u.mem.read off len ∧ f.op = opHead off (beNat (sliceB h.op 8 4)) len := by
  subst hoff hlen
  simp only [serveRead, hjob, hok, hclean, Bool.false_eq_true, if_false]
  generalize hcharged : (if min 8192 (beNat (sliceB h.op 12 4)) = 0 then u
    else u.charge n (min 8192 (beNat (sliceB h.op 12 4)))) = t
  have ht : t.haw = u.haw ∧ t.mem = u.mem := by
    rw [← hcharged]
    split <;> exact ⟨rfl, rfl⟩
  obtain ⟨hhaw, hmem⟩ := ht
  have hplane' : (t.planeFor h.src h.lane).isSome = true := by
    simpa only [State.planeFor, State.portUp, State.port, State.planesOf, hhaw] using hplane
  obtain ⟨f, hf, htype, hop, hdata⟩ := State.sendSeq_waits hplane' fReadResp 0 0 (t.job n)
    (opHead (beNat (sliceB h.op 0 8)) (beNat (sliceB h.op 8 4)) (min 8192 (beNat (sliceB h.op 12 4))))
    (t.mem.read (beNat (sliceB h.op 0 8)) (min 8192 (beNat (sliceB h.op 12 4))))
  exact ⟨(State.sansLink_mem (State.sendSeq_sansLink ..)).trans hmem, f, hf, htype, hmem ▸ hdata, hop⟩

/-- A fragment joins its collective, which goes on. -/
theorem serveCollData_joins {c : Coll} (hc : u.coll? (frameKey h.op (bits (beNat (sliceB h.op 8 4)) 31 24)) = some c) :
    serveCollData h u = (u.modColl (frameKey h.op (bits (beNat (sliceB h.op 8 4)) 31 24)) fun c =>
      { c with nodes := c.nodes ++ [frameNode h], progress := u.now }).pump
        (frameKey h.op (bits (beNat (sliceB h.op 8 4)) 31 24)) := by
  simp only [serveCollData, hc]

end Sequenced

/-- Settles O53: each frame in sequence by what serves it, one out of sequence by the NAK that `inOrder` sends. -/
theorem sequencedFramesAreServed : Obligations.SequencedFramesAreServed := by
  refine ⟨?_, ?_, ?_, ?_, ?_, ?_⟩
  · intro s h n hh u hpsn hjob hok
    obtain ⟨hmem, hhaw⟩ := serveWrite_stores hjob hok
    refine ⟨_, (execWrite_heard hh).trans (congrArg _ (State.inOrder_expected hpsn)), ?_, ?_⟩
    · exact (State.sansLink_mem (State.ackAt32_sansLink ..)).trans hmem
    · rw [(State.ackAt32_conn ..).1, State.conn_haw hhaw, State.took_rxNext hpsn]
  · intro s h hh u hpsn hjob
    refine ⟨_, (execWrite_heard hh).trans (congrArg _ (State.inOrder_expected hpsn)), ?_⟩
    exact (State.sansLink_mem (State.ackAt32_sansLink ..)).trans (serveWrite_refused hjob)
  · intro s h hh u hpsn out
    exact ⟨(execWrite_heard hh).trans (congrArg _ (State.inOrder_other hpsn)),
      (execReadReq_heard hh).trans (congrArg _ (State.inOrder_other hpsn)),
      (execCollData_heard hh).trans (congrArg _ (State.inOrder_other hpsn))⟩
  · intro s h n hh u off len hpsn hjob hok hclean hplane
    obtain ⟨hmem, f, hf, hframe⟩ := serveRead_answers (h := h) (u := u.took h) rfl rfl hjob hok hclean hplane
    refine ⟨_, f, (execReadReq_heard hh).trans (congrArg _ (State.inOrder_expected hpsn)), ?_, ?_, hframe⟩
    · exact (State.sansLink_mem (State.ackAt32_sansLink ..)).trans hmem
    · rwa [(State.ackAt32_conn ..).2]
  · intro s h hh hpsn
    exact (execReadResp_heard hh).trans (congrArg _ (State.inOrder_expected hpsn))
  · intro s h c hh u key hpsn hc
    refine (execCollData_heard hh).trans (congrArg _ ((State.inOrder_expected hpsn).trans ?_))
    rw [serveCollData_joins hc]
    rfl

/-! ### Frames outside the sequence (R474, R475, R482, R490, R492, R497) -/

section Control
variable {s : State} {h : HawFrame}

/-- No frame carries a PSN above all of them, so that nothing is acknowledged up to it. -/
theorem splitPsn_above {psn : Nat} : ∀ {fs : List TxFrame}, (∀ f ∈ fs, f.psn < psn) → splitPsn psn fs = none
  | [], _ => rfl
  | f :: fs, hfs => by
    have hf : f.psn ≠ psn := (hfs f List.mem_cons_self).ne
    rw [splitPsn, if_neg hf, splitPsn_above fun g hg => hfs g (List.mem_cons_of_mem _ hg)]
    rfl

theorem State.ackUpTo_above {psn : Nat} (hpsn : ∀ c ∈ s.haw.conns, ∀ f ∈ c.unacked, f.psn < psn) (chip lane : Nat) :
    s.ackUpTo chip lane psn = s := by
  have hconn : ∀ f ∈ (s.conn chip lane).unacked, f.psn < psn := by
    obtain hnone | hmem := State.conn_fresh_or_mem (s := s) (chip := chip) (lane := lane) rfl
    · simp [hnone]
    · exact hpsn _ hmem
  simp only [State.ackUpTo, splitPsn_above hconn]

/-- A refusal faults the command whose access it names, and then its frame acknowledges. -/
theorem execNak_refusal (hh : Hears s h) (hpsn : ∀ c ∈ s.haw.conns, ∀ f ∈ c.unacked, f.psn < 2 ^ 32)
    (hkind : beNat (sliceB h.op 0 1) = 1) : execNak h s = .next ((s.remoteFault (beNat (sliceB h.op 4 4))
      (if beNat (sliceB h.op 2 2) = 0x2003 then 0x2003 else 0x3020)).acked h) := by
  have hheard : Hears s { h with ackPsn := 2 ^ 32 } := hh
  have hwaits : s.acked { h with ackPsn := 2 ^ 32 } = s := State.ackUpTo_above hpsn h.src h.lane
  rw [execNak, State.receive_heard hheard, hwaits]
  simp only [serveNak, hkind, one_ne_zero, if_false, if_true, State.acked]

theorem serveCollCtrl_abort {u : State} {c : Coll} (hkind : beNat (sliceB h.op 0 1) = 1)
    (hc : u.coll? (frameKey (h.op.drop 4) (beNat (sliceB h.op 12 4))) = some c) :
    serveCollCtrl h u = u.collAborted c (beNat (sliceB h.op 2 2)) := by
  simp only [serveCollCtrl, hkind, hc, one_ne_zero, if_false, if_true]

/-- A COLL_CTRL frame of a kind the part does not use does nothing. -/
theorem serveCollCtrl_unused {u : State} (hkind : 4 ≤ beNat (sliceB h.op 0 1)) : serveCollCtrl h u = u := by
  unfold serveCollCtrl
  dsimp only
  rw [if_neg (by omega), if_neg (by omega), if_neg (by omega)]

/-- The announced plane is in service at its sender, and only the planes kept with the links change. -/
theorem servePortState_up {u : State} (hup : beNat (sliceB h.op 1 1) = 1) :
    (beNat (sliceB h.op 0 1)) ∈ (servePortState h u).planesOf h.src ∧
      servePortState h u = { u with haw := (servePortState h u).haw } := by
  have hin : beNat (sliceB h.op 0 1) ∈ setIns (beNat (sliceB h.op 0 1)) (u.planesOf h.src) := mem_setIns.mpr (.inl rfl)
  have hne : setIns (beNat (sliceB h.op 0 1)) (u.planesOf h.src) ≠ [] := List.ne_nil_of_mem hin
  have hserved : servePortState h u = { u with haw := { u.haw with
      planes := mapSet [] h.src (setIns (beNat (sliceB h.op 0 1)) (u.planesOf h.src)) u.haw.planes } } := by
    simp only [servePortState, hup, beq_self_eq_true, if_true]
  refine ⟨?_, by rw [hserved]⟩
  rw [hserved, State.planesOf, mapRd_mapSet_same hne]
  exact hin

end Control

/-- Settles O54: each frame by what serves it once it is heard. -/
theorem controlFramesAct : Obligations.ControlFramesAct := by
  refine ⟨?_, ?_, ?_, ?_, ?_, ?_, ?_, ?_⟩
  · intro s h hh
    exact congrArg Host.Outcome.next (State.receive_heard hh id)
  · intro s h c hh hkind hc
    exact congrArg Host.Outcome.next ((State.receive_heard hh _).trans (serveCollCtrl_abort hkind hc))
  · intro s h hh hkind
    exact congrArg Host.Outcome.next ((State.receive_heard hh _).trans (serveCollCtrl_unused hkind))
  · intro s h hh hpsn hkind
    exact execNak_refusal hh hpsn hkind
  · intro s h hh hkind
    exact congrArg Host.Outcome.next ((State.receive_heard hh _).trans (if_pos hkind))
  · intro s h hh hkind
    exact congrArg Host.Outcome.next ((State.receive_heard hh _).trans (if_neg (by omega)))
  · intro s h hh hup
    obtain ⟨hplane, hrest⟩ := servePortState_up (u := s.acked h) hup
    exact ⟨_, congrArg Host.Outcome.next (State.receive_heard hh _), hplane, hrest⟩
  · intro s p type hon htakes htype
    have hreserved : (s.online && s.takes p && (type == 0 || (decide (10 ≤ type) && decide (type ≤ 15)))) = true := by
      simpa [hon, htakes] using htype
    exact if_pos hreserved

end Sys2Proof.Machine
end

section
/-! SUPPORT. Hawser ports and their timers (R471, R472, R475 to R477, R481, R499, R558): set-up, bring-up with its
bindings, retries, one lemma per event, and the statements on them. -/

namespace Sys2Proof.Machine

/-! ### Set-up (R472, R481, R499) -/

section SetUp
variable {s : State} {p n v : Nat}

/-- The offset of HAW_PORTp_CTRL. -/
def portOff (p : Nat) : Nat := 0x500100 + 0x40 * p

/-- The offset of HAW_JOBn. -/
def jobOff (n : Nat) : Nat := 0x500040 + 4 * n

theorem portOff_map : ∀ p < 16, topAccess (portOff p) = .rwl ∧ isHaw (portOff p) = true ∧ topWide (portOff p) = false ∧
    (decide (4 ≤ portOff p) && topWide (portOff p - 4)) = false := by
  decide

theorem jobOff_map : ∀ n < 16, topAccess (jobOff n) = .rwl ∧ isHaw (jobOff n) = true ∧ topWide (jobOff n) = false ∧
    (decide (4 ≤ jobOff n) && topWide (jobOff n - 4)) = false := by
  decide

/-- No state and no value forbids a write of a port's control or of a job. -/
theorem State.topAllows_haw {o : Nat} (hlo : 0x500040 ≤ o) (hhi : o < 0x600000) :
    s.topForbids o v = false ∧ s.topBadNow o v = false := by
  have hdbg : isDbg o = false := by
    simp only [isDbg, Bool.and_eq_false_iff, decide_eq_false_iff_not]
    omega
  have hbad : topBad o v = false := by
    unfold topBad
    repeat rw [if_neg (by omega)]
  have hreset : o ≠ 0x20008 := by omega
  constructor
  · unfold State.topForbids
    rw [hdbg, if_neg Bool.false_ne_true, if_neg (by omega), if_neg (by omega), if_neg (by omega), if_neg (by omega),
      if_neg (by omega)]
  · simp [State.topBadNow, hbad, hreset]

theorem State.topReason_haw {o : Nat} (h : OpenTop s) (hlinked : s.fuses.solitary = false) (hacc : topAccess o = .rwl)
    (hlo : 0x500040 ≤ o) (hhi : o < 0x600000) : s.topReason o v true = 0 := by
  obtain ⟨hfree, hgood⟩ := s.topAllows_haw (v := v) hlo hhi
  exact State.topReason_open h hacc (fun _ => hlinked) hfree hgood

theorem portCtrl_enable (s : State) (p : Nat) : s.portCtrl p 1 = (s.setReg (portOff p) 1).startPort p := rfl

/-- In an open device of a linked part EN is set and the port starts if it may. -/
theorem execHawserPortEnable_open (h : OpenTop s) (hlinked : s.fuses.solitary = false) (hp : p < 16) :
    execHawserPortEnable p s = .next ((s.setReg (portOff p) 1).startPort p) := by
  obtain ⟨hacc, -, hwide, hlow⟩ := portOff_map p hp
  have hlo : 0x500100 ≤ portOff p := by unfold portOff; omega
  have hhi : portOff p < 0x600000 := by unfold portOff; omega
  have hport : (portOff p - 0x500100) / 0x40 = p := by unfold portOff; omega
  have heffect : topEffect (portOff p) 1 s = s.portCtrl p 1 := by
    unfold topEffect controlEffect
    rw [if_neg (by omega), if_neg (by omega), if_neg (by omega), if_neg (by omega), if_neg (by omega), if_pos hhi, hport]
  have htaken := writeTop_taken (State.deaf_up h.1) hwide hlow
    (State.topReason_haw (v := 1) h hlinked hacc (by omega) hhi)
  rw [execHawserPortEnable, if_pos hp, ← portCtrl_enable, ← heffect]
  exact congrArg Host.Outcome.next htaken

/-- On a solitary part the Hawser registers do not exist. -/
theorem execHawserPortEnable_solitary (hdeaf : s.deaf = false) (hsolo : s.fuses.solitary = true) (hp : p < 16) :
    execHawserPortEnable p s = .next (s.ignoreTop 4 (portOff p)) := by
  obtain ⟨hacc, hhaw, hwide, hlow⟩ := portOff_map p hp
  have hreason : s.topReason (portOff p) 1 true = 4 := by simp [State.topReason, hacc, hhaw, hsolo]
  rw [execHawserPortEnable, if_pos hp]
  exact congrArg Host.Outcome.next (writeTop_ignored hdeaf hwide hlow hreason (by decide))

/-- EN of a port reads as set once it is written. -/
theorem State.portOff_enabled (s : State) (p : Nat) : bit ((s.setReg (portOff p) 1).regN (portOff p)) 0 = true := by
  have hdefault : regDefault (portOff p) = 0 := by
    unfold regDefault portOff
    repeat rw [if_neg (by omega)]
  have hset : (s.setReg (portOff p) 1).reg (portOff p) = 1 := by
    unfold State.reg State.setReg
    exact mapRd_mapSet_same (by rw [hdefault]; decide) _
  rw [State.regN, hset]
  rfl

/-- A port that is down and may start begins to train. -/
theorem State.startPort_starts (hon : s.online = true) (hrecord : s.haw.instState = 0) (hlinked : s.fuses.solitary = false)
    (hen : bit (s.regN (portOff p)) 0 = true) (hused : (s.binding p).used = 1) (hdown : (s.port p).state = .down)
    (hunit : s.unit (hawUnit p) = .inService) :
    s.startPort p = s.modPort p fun q => { q with state := .training } := by
  unfold portOff at hen
  simp [State.startPort, hon, hrecord, hlinked, hen, hused, hdown, hunit]

/-- A write of a job in an open device of a linked part is judged. -/
theorem execHawJobWrite_open (h : OpenTop s) (hlinked : s.fuses.solitary = false) (hn : n < 16) (v : Word) :
    execHawJobWrite n v s = .next (s.jobWrite n v.toNat) := by
  obtain ⟨hacc, -, hwide, hlow⟩ := jobOff_map n hn
  have hlo : 0x500040 ≤ jobOff n := by unfold jobOff; omega
  have hhi : jobOff n < 0x500100 := by unfold jobOff; omega
  have hjob : (jobOff n - 0x500040) / 4 = n := by unfold jobOff; omega
  have heffect : topEffect (jobOff n) v.toNat s = s.jobWrite n v.toNat := by
    unfold topEffect controlEffect
    rw [if_neg (by omega), if_neg (by omega), if_neg (by omega), if_neg (by omega), if_pos hhi, hjob]
  have htaken := writeTop_taken (State.deaf_up h.1) hwide hlow
    (State.topReason_haw (v := v.toNat) h hlinked hacc hlo (by omega))
  rw [execHawJobWrite, if_pos hn, ← heffect]
  exact congrArg Host.Outcome.next htaken

/-- Another partition has the job. -/
theorem State.jobTaken_iff (s : State) (n j : Nat) :
    (j != 0 && (List.range 16).any fun m => m != n && s.job m == j) = true ↔ ∃ m < 16, m ≠ n ∧ j ≠ 0 ∧ s.job m = j := by
  simp only [Bool.and_eq_true, bne_iff_ne, List.any_eq_true, List.mem_range, beq_iff_eq]
  constructor
  · rintro ⟨hj, m, hm, hmn, hjob⟩
    exact ⟨m, hm, hmn, hj, hjob⟩
  · rintro ⟨m, hm, hmn, hj, hjob⟩
    exact ⟨hj, m, hm, hmn, hjob⟩

theorem State.jobWrite_free (hfree : ∀ m < 16, m ≠ n → v % 65536 ≠ 0 → s.job m ≠ v % 65536) :
    s.jobWrite n v = { s with haw := { s.haw with jobReason := 0, jobPart := n } }.setReg (jobOff n)
      (BitVec.ofNat 32 (v % 65536)) := by
  have hdup := mt (s.jobTaken_iff n (v % 65536)).mp fun ⟨m, hm, hmn, hj, hjob⟩ => hfree m hm hmn hj hjob
  simp only [Bool.not_eq_true] at hdup
  simp only [State.jobWrite, hdup]
  rfl

theorem State.jobWrite_taken {m : Nat} (hm : m < 16) (hmn : m ≠ n) (hj : v % 65536 ≠ 0) (hjob : s.job m = v % 65536) :
    s.jobWrite n v = { s with haw := { s.haw with jobReason := 1, jobPart := n } } := by
  have hdup := (s.jobTaken_iff n (v % 65536)).mpr ⟨m, hm, hmn, hj, hjob⟩
  simp only [State.jobWrite, hdup]
  rfl

end SetUp

/-- Settles O30: the write of a port's control, what it starts, and the two answers to a job. -/
theorem hawserSetUp : Obligations.HawserSetUp := by
  refine ⟨?_, ?_, ?_, ?_, ?_⟩
  · intro s p h hlinked hp
    exact execHawserPortEnable_open h hlinked hp
  · intro s p h hlinked hp hon hrecord hused hdown hunit
    have hstart := State.startPort_starts (s := s.setReg (portOff p) 1) hon hrecord hlinked (s.portOff_enabled p) hused hdown
      hunit
    refine ⟨_, execHawserPortEnable_open h hlinked hp, fun hlen => ?_⟩
    rw [hstart]
    exact congrArg HawPort.state (State.modPort_port_same (s := s.setReg (portOff p) 1) hlen _)
  · intro s p hdeaf hsolo hp
    exact execHawserPortEnable_solitary hdeaf hsolo hp
  · intro s n v h hlinked hn hfree
    exact (execHawJobWrite_open h hlinked hn v).trans (congrArg _ (State.jobWrite_free hfree))
  · intro s n m v h hlinked hn hm hmn hj hjob
    exact (execHawJobWrite_open h hlinked hn v).trans (congrArg _ (State.jobWrite_taken hm hmn hj hjob))

/-! ### Bring-up (R472) -/

section BringUp
variable {s : State} {p : Nat}

/-- Where no readmission is in progress, a proved binding brings the port up and announces it. -/
theorem State.bound_up (h : s.repair.readmit = none) :
    s.bound p = (s.modPort p fun q => { q with state := .up }).tellUp p := by
  simp only [State.bound, h]

/-- A port whose binding fails while its unit is in no readmission is held; memory and units are left alone. -/
theorem State.unbound_held (hunit : s.unit (hawUnit p) ≠ .readmitting) (hstate : (s.port p).state = .binding) :
    (p < s.haw.ports.length → ((s.unbound p).port p).state = .held) ∧ (s.unbound p).mem = s.mem ∧
      (s.unbound p).repair.units = s.repair.units := by
  unfold State.unbound
  rw [if_neg hunit, if_neg (by simp [hstate])]
  refine ⟨fun hp => ?_, State.raise_mem .., State.raise_units _⟩
  have hport : ∀ t e, (State.raise t e).port p = t.port p := fun t e => by simp only [State.port, State.raise_haw]
  rw [hport, State.modPort_port_same hp]

/-- A port that awaits its binding takes an LLDPDU. -/
theorem State.lldp_taken (hon : s.online = true) (hstate : (s.port p).state = .binding ∨ (s.port p).state = .held) :
    (s.online && ((s.port p).state == .binding || (s.port p).state == .held)) = true := by
  simpa [hon] using hstate

/-- The right partner proves the binding of a port that holds a link secret. -/
theorem execLldpReceived_right {mac partner : Nat} (hon : s.online = true)
    (hstate : (s.port p).state = .binding ∨ (s.port p).state = .held) (hmac : (s.binding p).mac = mac)
    (hpartner : (s.binding p).partnerPort = partner) (hsecrets : s.haw.secrets ≠ []) (retry : Bool) :
    execLldpReceived p mac partner retry s =
      .next ((s.modPort p fun q => { q with retry := retry, bindAt := s.now }).bound p) :=
  (if_pos (State.lldp_taken hon hstate)).trans ((if_pos ⟨hmac, hpartner⟩).trans (if_neg hsecrets))

theorem execLldpReceived_wrong {mac partner : Nat} (hon : s.online = true)
    (hstate : (s.port p).state = .binding ∨ (s.port p).state = .held)
    (hwrong : (s.binding p).mac ≠ mac ∨ (s.binding p).partnerPort ≠ partner) (retry : Bool) :
    execLldpReceived p mac partner retry s = .next (s.unbound p) :=
  (if_pos (State.lldp_taken hon hstate)).trans (if_neg (not_and_or.mpr hwrong))

end BringUp

/-- Settles O51: each event by its gate; the binding by what `bound` and `unbound` leave. -/
theorem portsComeUpBound : Obligations.PortsComeUpBound := by
  refine ⟨?_, ?_, ?_, ?_, ?_, ?_, ?_, ?_⟩
  · intro s p hon htrain hclk
    exact if_pos (by simp [hon, htrain, hclk])
  · intro s p hon hlinked
    exact if_pos (by simpa [hon, or_assoc] using hlinked)
  · intro s p mac partner retry hon hstate hmac hpartner hsecrets hreadmit
    exact (execLldpReceived_right hon hstate hmac hpartner hsecrets retry).trans (congrArg _ (State.bound_up hreadmit))
  · intro s p mac partner retry hon hstate hunit hwrong
    exact ⟨_, execLldpReceived_wrong hon (.inl hstate) hwrong retry, State.unbound_held hunit hstate⟩
  · intro s p hon hstate hunit hdue
    obtain ⟨hheld, hmem, -⟩ := State.unbound_held hunit hstate
    exact ⟨_, if_pos (by simp [hon, hstate, hdue]), hheld, hmem⟩
  · intro s p hearly
    exact if_neg (by simp [hearly])
  · intro s p hon hup
    exact if_pos (by simp [hon, hup])
  · intro s p hdown
    refine if_neg ?_
    obtain h | h := hdown <;> simp [h]

/-! ### Pauses, retries and resends (R471, R475 to R477, R558) -/

section Timers
variable {s : State} {p chip lane : Nat}

theorem execPfcPause_held (hon : s.online = true) (prio : Nat) :
    execPfcPause p prio true s = .next (s.modPort p fun q => { q with paused := setIns prio q.paused }) := by
  simp [execPfcPause, hon]

theorem execPfcPause_released (hon : s.online = true) (prio : Nat) :
    execPfcPause p prio false s = .next ((s.modPort p fun q => { q with paused := setDel prio q.paused }).unpause p prio) := by
  simp [execPfcPause, hon]

theorem execAckTimer_owed (hon : s.online = true) (howed : 0 < (s.conn chip lane).rxOwed) :
    execAckTimer chip lane s = .next (s.sendAck chip lane) := if_pos (by simp [hon, howed])

theorem execAckTimer_settled (h : (s.conn chip lane).rxOwed = 0) : execAckTimer chip lane s = .next s := if_neg (by simp [h])

theorem execReplayTimer_taken (hon : s.online = true) (htakes : s.takes p = true) :
    execReplayTimer p s = .next (s.replay p) := if_pos (by simp [hon, htakes])

/-- Without link-level retry nothing is replayed. -/
theorem State.replay_off (h : (s.port p).retry = false) : s.replay p = s := if_pos (by simp [h])

theorem execReplayTimer_off (h : (s.port p).retry = false) : execReplayTimer p s = .next s := by
  rw [execReplayTimer, State.replay_off h, ite_self]

theorem State.replay_again (h : (s.port p).retry = true) (hcount : (s.port p).replayCount < 8) :
    s.replay p = s.modPort p fun q =>
      { q with replayCount := q.replayCount + 1, replays := min (q.replays + 1) (2 ^ 64 - 1) } := by
  rw [State.replay, if_neg (by simp [h]), if_neg (by omega)]
  rfl

/-- After eight replays of one frame the link retrains. -/
theorem State.replay_exhausted (h : (s.port p).retry = true) (hcount : 8 ≤ (s.port p).replayCount) :
    s.replay p = (s.portOut p .training false).portErr p 0x3004 0 4 0 0 0 8 := by
  rw [State.replay, if_neg (by simp [h]), if_pos hcount]

theorem execRetransmitTimer_resends {f : TxFrame} {fs : List TxFrame} (hon : s.online = true)
    (hwait : (s.conn chip lane).unacked = f :: fs) (hsent : 1 ≤ f.attempts) (hless : f.attempts < 8) :
    execRetransmitTimer chip lane s = .next (s.resend chip lane 1) := by
  simp only [execRetransmitTimer, hwait]
  rw [if_neg (by simp [hon]; omega), if_pos hless]

/-- After eight attempts the connection is reset and every frame that waited is lost. -/
theorem execRetransmitTimer_resets {f : TxFrame} {fs : List TxFrame} (hon : s.online = true)
    (hwait : (s.conn chip lane).unacked = f :: fs) (hmore : 8 ≤ f.attempts) :
    execRetransmitTimer chip lane s = .next (forAll (f :: fs) State.lostFrame
      (s.setConn { s.conn chip lane with txPsn := 0, unacked := [] })) := by
  simp only [execRetransmitTimer, hwait]
  rw [if_neg (by simp [hon]; omega), if_neg (by omega)]

/-- A failed check counts where codewords were beyond correction, and is answered under link-level retry. -/
theorem execHawserFcsFailure_taken (hon : s.online = true) (htakes : s.takes p = true) (fec : Bool) :
    execHawserFcsFailure p fec s = .next
      (if (s.port p).retry then (if fec then s.portErr p 0x3005 0 1 0 0 0 0 else s).xmit p 0 0 7 0 0 (nakOp 2 0 0) []
        else if fec then s.portErr p 0x3005 0 1 0 0 0 0 else s) := by
  have hretry : ((if fec then s.portErr p 0x3005 0 1 0 0 0 0 else s).port p).retry = (s.port p).retry := by
    cases fec with
    | false => rfl
    | true => exact State.portErr_retry ..
  rw [execHawserFcsFailure, if_pos (by simp [hon, htakes])]
  dsimp only
  rw [hretry]
  rfl

end Timers

/-- Settles O55: each event by its cases. -/
theorem linkTimersRetryAndReset : Obligations.LinkTimersRetryAndReset := by
  refine ⟨?_, ?_, ?_, ?_, ?_, ?_, ?_, ?_, ?_, ?_, ?_, ?_⟩
  · intro s p prio hon
    exact execPfcPause_held hon prio
  · intro s p prio hon
    exact execPfcPause_released hon prio
  · intro s chip lane hon howed
    refine ⟨_, execAckTimer_owed hon howed, ?_, State.sansLink_mem (State.sendAck_sansLink ..)⟩
    rw [State.sendAck_conn]
  · intro s chip lane hsettled
    exact execAckTimer_settled hsettled
  · intro s p hon htakes hretry hcount
    exact (execReplayTimer_taken hon htakes).trans (congrArg _ (State.replay_again hretry hcount))
  · intro s p hon htakes hretry hcount
    exact (execReplayTimer_taken hon htakes).trans (congrArg _ (State.replay_exhausted hretry hcount))
  · intro s p hretry
    exact execReplayTimer_off hretry
  · intro s chip lane f fs hon hwait hsent hless
    exact execRetransmitTimer_resends hon hwait hsent hless
  · intro s chip lane f fs hon hwait hmore
    exact execRetransmitTimer_resets hon hwait hmore
  · intro s p hon htakes hretry
    refine (execHawserFcsFailure_taken hon htakes false).trans ?_
    simp [hretry]
  · intro s p hon htakes hretry
    refine ⟨linkRec s.now 0x3005 0 (hawUnit p) 0 p 0 0 0 0 0, rfl, rfl, (execHawserFcsFailure_taken hon htakes true).trans ?_⟩
    simp [hretry, State.portErr]
  · intro s p hon htakes hretry
    refine (execHawserFcsFailure_taken hon htakes false).trans ?_
    simp [hretry]

end Sys2Proof.Machine
end

section
/-! SUPPORT. The five collectives at their issue (R488, R489, R493): the body that joins and shakes hands, and the statement. -/

namespace Sys2Proof.Machine

section Issue
variable {s : State} {c : Cmd} {e : Env}

@[simp] theorem Ctx.consume_rank (x : Ctx) (w : Wait) : (x.consume w).rank = x.rank := by rw [x.consume_frame w]
@[simp] theorem Ctx.consume_preds (x : Ctx) (w : Wait) : (x.consume w).preds = x.preds := by rw [x.consume_frame w]

@[simp] theorem Env.after_rank (e : Env) (c : Cmd) : (e.after c).c.rank = e.c.rank := by simp [Env.after]
@[simp] theorem Env.after_preds (e : Env) (c : Cmd) : (e.after c).c.preds = e.c.preds := by simp [Env.after]

/-- The command has joined the collective under its key, and its handshake is on its way to the other chips. -/
def State.collTold (s : State) (k : CollKind) (c : Cmd) (o : CollF) (e : Env) (a y : Option Opnd) : State :=
  let g := s.groupOf e o
  let shake := collShake e k o g a y
  (g.chips.filter (· != s.haw.chip)).foldl (fun s ch =>
      s.sendCtrl ch 0 fCollCtrl (s.job e.c.part) (ctrlOp 0 (collKey e o g) e.c.rank) shake.bytes)
    (s.collJoin (collKey e o g) g.chips g.rankwise
      { chip := s.haw.chip, rank := e.c.rank, shake := shake, pred := some (e.c.preds.getD o.predIn false)
        cmd := some (c, o), src := a, dst := y, given := false })

/-- A collective whose checks pass and whose chips are reachable joins and is held. -/
theorem collBody_joins {k : CollKind} {o : CollF} {a y : Option Opnd} (ha : (e.site s).opt k.hasTiles (some o.x) = a)
    (hy : (e.site s).opt k.hasTiles (some o.y) = y)
    (hok : (e.site s).check (collNeeds k o) [] false (if k.hasTiles then [o.cvt] else []) (collOwn s e k o a y) = none)
    (hreach : ∀ ch ∈ (s.groupOf e o).chips.filter (· != s.haw.chip), s.reachable ch = true) :
    collBody k c o s e = .held (s.collTold k c o e a y) (.coll (if k.hasTiles && o.src == 1 then o.blocks else 0) []) := by
  have hnone : ¬ ((s.groupOf e o).chips.filter (· != s.haw.chip)).any (fun ch => ! s.reachable ch) = true := by
    simpa using hreach
  simp only [collBody, ha, hy, hok, Ran.checked_none]
  rw [if_neg hnone]
  rfl

/-- A collective that runs is its body settled, and then goes on as far as it can. -/
theorem collCommand_joins {k : CollKind} {o : CollF} {a y : Option Opnd}
    (h : Runs s c e (fitsCmd c && fitsColl o) (engineOf c.loc.stream == 4) [])
    (ha : (siteOf s c e).opt k.hasTiles (some o.x) = a) (hy : (siteOf s c e).opt k.hasTiles (some o.y) = y)
    (hok : (siteOf s c e).check (collNeeds k o) [] false (if k.hasTiles then [o.cvt] else [])
      (collOwn (s.issued e c) (e.after c) k o a y) = none)
    (hreach : ∀ ch ∈ ((s.issued e c).groupOf (e.after c) o).chips.filter (· != (s.issued e c).haw.chip),
      (s.issued e c).reachable ch = true) :
    collCommand k c o s = (((s.issued e c).collTold k c o (e.after c) a y).modCtx e.key fun x =>
      x.modStream e.stream fun t =>
        { t with busy := .exec c (if k.hasTiles then [o.x, o.y] else [])
                   (.coll (if k.hasTiles && o.src == 1 then o.blocks else 0) []) }).collGo c.loc := by
  rw [collCommand, command_runs h rfl rfl, collBody_joins ha hy hok hreach]
  rfl

end Issue

/-- Each collective is `collCommand` of its kind. -/
theorem exec_collective (s : State) {c : Cmd} {o : CollF} {k : CollKind} {i : Instr}
    (hi : (k = .allReduce ∧ i = .allReduce c o) ∨ (k = .reduceScatter ∧ i = .reduceScatter c o) ∨
      (k = .vetoOr ∧ i = .vetoOr c o) ∨ (k = .allGather ∧ i = .allGather c o) ∨ (k = .broadcast ∧ i = .broadcast c o)) :
    exec i s = .next (collCommand k c o s) := by
  obtain ⟨rfl, rfl⟩ | ⟨rfl, rfl⟩ | ⟨rfl, rfl⟩ | ⟨rfl, rfl⟩ | ⟨rfl, rfl⟩ := hi
  all_goals rfl

/-- Settles O15: the collective is its body, which joins, settled. -/
theorem collectivesJoinTheirInstance : Obligations.CollectivesJoinTheirInstance := by
  intro s c e o k i hi h s1 e1 a y hok g key others hreach shake joined told held
  have hjoins := collCommand_joins (a := a) (y := y) h rfl rfl hok hreach
  simp only [State.collTold, Env.after_rank, Env.after_part, Env.after_preds] at hjoins
  exact (exec_collective s hi).trans (congrArg _ hjoins)

end Sys2Proof.Machine
end

section
/-! SUPPORT. What detected errors, alerts and rail requests leave of the warden and the bricks (R543, R546, R571), and the
statement on sensors (R522 to R524). -/

namespace Sys2Proof.Machine

/-! ### The warden under detected errors, alerts and requests for rails -/

/-- Of the warden's state a detected error changes the last-gasp records only. -/
theorem State.raise_wdn_frame (s : State) (e : ErrEvt) :
    (s.raise e).wdn = { s.wdn with gasp := (s.raise e).wdn.gasp, gaspSeq := (s.raise e).wdn.gaspSeq } := by
  obtain ⟨r, h⟩ | ⟨c, a, b, d, u, h⟩ := s.raise_cases e
  · rw [h]
  · rw [h]
    rfl

section Raised
variable (s : State) (e : ErrEvt)

@[simp] theorem State.raise_wdn_st : (s.raise e).wdn.st = s.wdn.st := by rw [s.raise_wdn_frame]
@[simp] theorem State.raise_wdn_busy : (s.raise e).wdn.busy = s.wdn.busy := by rw [s.raise_wdn_frame]
@[simp] theorem State.raise_wdn_sensors : (s.raise e).wdn.sensors = s.wdn.sensors := by rw [s.raise_wdn_frame]
@[simp] theorem State.raise_wdn_reqReason : (s.raise e).wdn.reqReason = s.wdn.reqReason := by rw [s.raise_wdn_frame]
@[simp] theorem State.raise_bricks : (s.raise e).bricks = s.bricks := by rw [s.raise_frame]
@[simp] theorem State.raise_fuses : (s.raise e).fuses = s.fuses := by rw [s.raise_frame]

@[simp] theorem State.raise_alertN : (s.raise e).pins.alertN = s.pins.alertN := by
  obtain ⟨r, h⟩ | ⟨c, a, b, d, u, h⟩ := s.raise_cases e
  · rw [h]
  · rw [h]
    rfl

end Raised

@[simp] theorem State.deviceEvent_wdn (s : State) : s.deviceEvent.wdn = s.wdn := by rw [s.deviceEvent_frame]
@[simp] theorem State.deviceEvent_fuses (s : State) : s.deviceEvent.fuses = s.fuses := by rw [s.deviceEvent_frame]

/-- A wake leaves the sensors alone. -/
theorem State.wakeUp_sensors (s : State) : s.wakeUp.wdn.sensors = s.wdn.sensors := by
  unfold State.wakeUp
  split
  · split <;> rfl
  · rfl
  · rfl

theorem State.alert_sensors (s : State) : s.alert.wdn.sensors = s.wdn.sensors := by
  unfold State.alert
  extract_lets pins told
  have htold : told.wdn = s.wdn := State.deviceEvent_wdn _
  split
  · rw [State.wakeUp_sensors, htold]
  · rw [htold]

theorem State.wardenErr_sensors (s : State) (r : ErrRec) : (s.wardenErr r).wdn.sensors = s.wdn.sensors :=
  (State.raise_wdn_sensors ..).trans s.alert_sensors

theorem State.wardenErr_alertN (s : State) (r : ErrRec) : (s.wardenErr r).pins.alertN = false :=
  (State.raise_alertN ..).trans s.alert_alertN

/-! ### The filter (R523) -/

theorem insInt_eq_orderedInsert (a : Int) (l : List Int) : insInt a l = l.orderedInsert (· ≤ ·) a := by
  induction l with
  | nil => rfl
  | cons b l ih => rw [insInt, List.orderedInsert_cons, ih]

/-- `median5` sorts by insertion. -/
theorem median5_eq (l : List Int) : median5 l = (l.insertionSort (· ≤ ·)).getD 2 0 := by
  have hins : insInt = List.orderedInsert (· ≤ ·) := funext₂ insInt_eq_orderedInsert
  rw [median5, hins, List.insertionSort]

/-- The median of any arrangement of five values in order is the third. -/
theorem median5_of_perm {a b c d e : Int} (hab : a ≤ b) (hbc : b ≤ c) (hcd : c ≤ d) (hde : d ≤ e) {l : List Int}
    (hl : l.Perm [a, b, c, d, e]) : median5 l = c := by
  have hsorted : [a, b, c, d, e].Pairwise (· ≤ ·) := by
    simp only [List.pairwise_cons, List.forall_mem_cons, List.not_mem_nil, false_imp_iff, implies_true, List.Pairwise.nil,
      and_true]
    omega
  have hsort : l.insertionSort (· ≤ ·) = [a, b, c, d, e] :=
    ((List.perm_insertionSort _ l).trans hl).eq_of_pairwise' (List.pairwise_insertionSort _ l) hsorted
  rw [median5_eq, hsort]
  rfl

/-- Fewer than five samples: the filter follows the latest. -/
theorem Sensor.take_y_first {x : Sensor} (h : x.samples.length < 4) (k : Nat) (v : Int) : (x.take k v).y = v :=
  if_pos (by simp only [List.length_take, List.length_cons]; omega)

/-- From the fifth sample on the filter moves toward the median of the last five. -/
theorem Sensor.take_y_later {x : Sensor} (h : 4 ≤ x.samples.length) (k : Nat) (v : Int) :
    (x.take k v).y = x.y + (median5 ((v :: x.samples).take 5) - x.y) / 2 ^ k :=
  if_neg (by simp only [List.length_take, List.length_cons]; omega)

/-! ### Valid samples (R522) -/

section Ranges
variable {i : Nat} (raw : Nat)

theorem sampleOf_temperature (hi : i < 96) :
    sampleOf i raw = if -320 ≤ sext 16 raw ∧ sext 16 raw ≤ 1200 then some (sext 16 raw) else none := if_pos hi

theorem sampleOf_voltage (hi : 96 ≤ i) : 
    sampleOf i raw = if raw % 65536 = 0 then none else some ((raw % 65536 : Nat) : Int) := if_neg (not_lt.mpr hi)

theorem sampleOf_temperature_none (hi : i < 96) : sampleOf i raw = none ↔ sext 16 raw < -320 ∨ 1200 < sext 16 raw := by
  rw [sampleOf_temperature raw hi, ite_eq_right_iff]
  simp only [reduceCtorEq, imp_false]
  omega

theorem sampleOf_voltage_none (hi : 96 ≤ i) : sampleOf i raw = none ↔ raw % 65536 = 0 := by
  simp [sampleOf_voltage raw hi]

end Ranges

theorem sampleOf_temperature_some {i raw : Nat} {v : Int} (hi : i < 96) (h : sampleOf i raw = some v) : v = sext 16 raw := by
  rw [sampleOf_temperature raw hi] at h
  obtain ⟨-, hv⟩ := Option.ite_none_right_eq_some.mp h
  exact (Option.some.inj hv).symm

theorem sampleOf_voltage_some {i raw : Nat} {v : Int} (hi : 96 ≤ i) (h : sampleOf i raw = some v) :
    v = (raw % 65536 : Nat) := by
  rw [sampleOf_voltage raw hi] at h
  obtain ⟨-, hv⟩ := Option.ite_none_left_eq_some.mp h
  exact (Option.some.inj hv).symm

/-! ### SENSOR_SAMPLE (R522 to R524) -/

section Samples
variable {s : State} {i raw : Nat}

theorem exec_sensorSample (i raw : Nat) (s : State) : exec (.sensorSample i raw) s = .next (sensorSample i raw s) := rfl

theorem State.modSensor_sensor_same (hi : i < s.wdn.sensors.length) (g : Sensor → Sensor) :
    (s.modSensor i g).sensor i = g (s.sensor i) := by
  simp [State.sensor, State.modSensor, modAt, List.getD_eq_getElem?_getD, hi]

/-- A sensor the device does not have reads as at reset, whatever is written there. -/
theorem State.modSensor_sensor_absent (hi : s.wdn.sensors.length ≤ i) (g : Sensor → Sensor) :
    (s.modSensor i g).sensor i = Sensor.reset := by
  simp [State.sensor, State.modSensor, modAt, List.getD_eq_getElem?_getD, hi]

/-- A sensor that has failed takes no more samples. -/
theorem sensorSample_failed (h : (s.sensor i).failed = true) : sensorSample i raw s = s := if_pos (by simp [h])

/-- The warden runs, and has sensor `i`, which works. -/
def State.SensorWorks (s : State) (i : Nat) : Prop :=
  s.wardenOn = true ∧ i < 144 ∧ (s.sensor i).failed = false ∧
    (s.fuses.solitary && decide (136 ≤ i) && decide (i < 140)) = false

theorem State.sensorWorks_temperature (hon : s.wardenOn = true) (hi : i < 96) (hok : (s.sensor i).failed = false) :
    s.SensorWorks i := by
  have h136 : ¬ 136 ≤ i := by omega
  exact ⟨hon, by omega, hok, by simp [h136]⟩

theorem State.sensorWorks_linked (hon : s.wardenOn = true) (hi : i < 144) (hlinked : s.fuses.solitary = false)
    (hok : (s.sensor i).failed = false) : s.SensorWorks i := ⟨hon, hi, hok, by simp [hlinked]⟩

theorem State.SensorWorks.hears (h : s.SensorWorks i) :
    ¬ (! s.wardenOn || decide (144 ≤ i) || (s.sensor i).failed ||
      (s.fuses.solitary && decide (136 ≤ i) && decide (i < 140))) = true := by
  obtain ⟨hon, hi, hok, hpart⟩ := h
  have h144 : ¬ 144 ≤ i := by omega
  simp [hon, h144, hok, hpart]

/-- A sample in range enters the filter, and that of a voltage is checked. -/
theorem sensorSample_valid {v : Int} (h : s.SensorWorks i) (hv : sampleOf i raw = some v) :
    sensorSample i raw s = if i < 96 then s.modSensor i fun x => x.take (sensorShift i) v
      else (s.modSensor i fun x => x.take (sensorShift i) v).checkVolt (i - 96) := by
  rw [sensorSample, if_neg h.hears, hv]

/-- An invalid sample is counted. -/
def State.countInvalid (s : State) (i : Nat) : State := s.modSensor i fun x => { x with invalid := x.invalid + 1 }

theorem State.countInvalid_length : (s.countInvalid i).wdn.sensors.length = s.wdn.sensors.length := List.length_modify ..

/-- A sample out of range is counted; the fifth in a row fails the sensor. -/
theorem sensorSample_invalid (h : s.SensorWorks i) (hv : sampleOf i raw = none) :
    sensorSample i raw s = if 5 ≤ ((s.countInvalid i).sensor i).invalid then (s.countInvalid i).sensorFails i
      else s.countInvalid i := by
  rw [sensorSample, if_neg h.hears, hv]
  rfl

theorem State.countInvalid_few (h : (s.sensor i).invalid < 4) : ¬ 5 ≤ ((s.countInvalid i).sensor i).invalid := by
  rw [State.countInvalid]
  by_cases hi : i < s.wdn.sensors.length
  · rw [State.modSensor_sensor_same hi]
    simp only
    omega
  · rw [State.modSensor_sensor_absent (not_lt.mp hi)]
    decide

theorem State.countInvalid_fifth (h : (s.sensor i).invalid = 4) (hi : i < s.wdn.sensors.length) :
    5 ≤ ((s.countInvalid i).sensor i).invalid := by
  rw [State.countInvalid, State.modSensor_sensor_same hi, h]

/-- A temperature sensor that fails is told of by an alert. -/
theorem State.sensorFails_temperature (hi : i < 96) (hlen : i < s.wdn.sensors.length) :
    ((s.sensorFails i).sensor i).failed = true ∧ (s.sensorFails i).pins.alertN = false := by
  unfold State.sensorFails
  extract_lets failed
  have hfailed : (failed.sensor i).failed = true := by
    rw [State.modSensor_sensor_same hlen]
  rw [if_pos hi]
  refine ⟨?_, State.wardenErr_alertN ..⟩
  rw [State.sensor, State.wardenErr_sensors]
  exact hfailed

end Samples

/-- Settles O57: SENSOR_SAMPLE by the range of its sample, the filter by its number of samples, the median by sorting. -/
theorem samplesAreFiltered : Obligations.SamplesAreFiltered := by
  refine ⟨?valid, ?invalid, ?fifth, ?voltage, ?failed, ?first, ?later, ?kept, ?range, ?value, ?zero, ?volts, ?median⟩
  case valid =>
    intro s i raw v hon hi hok hv
    rw [exec_sensorSample, sensorSample_valid (State.sensorWorks_temperature hon hi hok) hv, if_pos hi]
  case invalid =>
    intro s i raw hon hi hok hv hfew
    rw [exec_sensorSample, sensorSample_invalid (State.sensorWorks_temperature hon hi hok) hv,
      if_neg (State.countInvalid_few hfew)]
    rfl
  case fifth =>
    intro s i raw hon hi hok hv hfour hlen
    rw [exec_sensorSample, sensorSample_invalid (State.sensorWorks_temperature hon hi hok) hv,
      if_pos (State.countInvalid_fifth hfour hlen)]
    exact ⟨_, rfl, State.sensorFails_temperature hi (hlen.trans_eq State.countInvalid_length.symm)⟩
  case voltage =>
    intro s i raw v hon hlo hi hlinked hok hv
    rw [exec_sensorSample, sensorSample_valid (State.sensorWorks_linked hon hi hlinked hok) hv, if_neg (not_lt.mpr hlo)]
  case failed =>
    intro s i raw h
    rw [exec_sensorSample, sensorSample_failed h]
  case first => exact fun x k v h => Sensor.take_y_first h k v
  case later => exact fun x k v h => Sensor.take_y_later h k v
  case kept => exact fun x k v => ⟨rfl, rfl⟩
  case range => exact fun i raw hi => sampleOf_temperature_none raw hi
  case value => exact fun i raw hi v h => sampleOf_temperature_some hi h
  case zero => exact fun i raw hi => sampleOf_voltage_none raw hi
  case volts => exact fun i raw hi v h => sampleOf_voltage_some hi h
  case median => exact fun a b c d e hab hbc hcd hde l hl => median5_of_perm hab hbc hcd hde hl

end Sys2Proof.Machine
end

section
/-! SUPPORT. Power states (R540 to R546): what entering WARDEN and DOZE leaves, when a timer or a wake acts, which write of
PWR_STATE_REQ is performed, and the statements on them. -/

namespace Sys2Proof.Machine

/-! ### WARDEN and OFF are entered (R45, R540, R546, R548) -/

section Entered
variable (s : State)

/-- A request for rails changes what is asked for and may tell I3C. -/
theorem State.setRails_frame (v : Nat) :
    s.setRails v = { s with outs := (s.setRails v).outs, wdn := { s.wdn with railReq := v } } := by
  unfold State.setRails
  split
  · next h => rw [← h]
  · rfl

/-- Of the fuses and the answer to a power request a change of the device-time state touches nothing. -/
theorem State.setTime_keeps (t : TimeSt) (port : Nat) :
    (s.setTime t port).fuses = s.fuses ∧ (s.setTime t port).wdn.reqReason = s.wdn.reqReason := by
  unfold State.setTime
  by_cases h : s.time.st = t
  · simp [h]
  · simp only [if_neg h]
    split
    · simp
    · split <;> simp

/-- In WARDEN only the warden's rails are asked for; device memory, bricks and Hawser connections are off. -/
theorem State.enterWarden_off :
    s.enterWarden.wdn.st = .warden ∧ s.enterWarden.wdn.railReq = 0x380 ∧ s.enterWarden.mem = Mem.empty ∧
      (∀ b ∈ s.enterWarden.bricks, b.powered = false) ∧ s.enterWarden.haw.conns = [] := by
  unfold State.enterWarden
  rw [State.setRails_frame]
  exact ⟨rfl, rfl, rfl, List.forall_mem_map.mpr fun _ _ => rfl, rfl⟩

/-- Fuses outlive the entry to WARDEN, and so does the answer to the request; a pending step is abandoned. -/
theorem State.enterWarden_keeps :
    s.enterWarden.fuses = s.fuses ∧ s.enterWarden.wdn.reqReason = s.wdn.reqReason ∧ s.enterWarden.time.step = 0 := by
  obtain ⟨hfuses, hreason⟩ := s.setTime_keeps s.time.st.toWarden 0
  unfold State.enterWarden
  rw [State.setRails_frame]
  exact ⟨hfuses, hreason, rfl⟩

/-- In OFF no rail is asked for, the last-gasp records are lost and the device is held. -/
theorem State.enterOff_off :
    s.enterOff.wdn.st = .off ∧ s.enterOff.wdn.railReq = 0 ∧ s.enterOff.wdn.gasp = [] ∧ s.enterOff.phase = .held := by
  unfold State.enterOff
  rw [State.setRails_frame]
  exact ⟨rfl, rfl, rfl, rfl⟩

end Entered

/-! ### PWR_STATE_REQ (R542) -/

section Request
variable {s : State} {v : Nat}

theorem State.topReason_powerRequest (hup : s.phase = .up) (hready : s.boot.ready = true) (hv : v = 3 ∨ v = 4) :
    s.topReason 0x600804 v true = 0 := by
  refine State.topReason_wo hup hready rfl (fun h => absurd h (by decide)) (by simp [State.topForbids, isDbg]) ?_
  obtain rfl | rfl := hv
  · rfl
  · rfl

/-- A request for WARDEN or OFF is powerAnswered, locked or not. -/
theorem writeTop_powerRequest (hup : s.phase = .up) (hready : s.boot.ready = true) (hv : v = 3 ∨ v = 4) :
    writeTop 0x600804 v s = s.powerReq (v == 4) :=
  (writeTop_taken (State.deaf_up hup) rfl rfl (State.topReason_powerRequest hup hready hv)).trans rfl

/-- Every other value is out of range. -/
theorem State.topReason_powerRequest_bad (hup : s.phase = .up) (hready : s.boot.ready = true) (h3 : v ≠ 3) (h4 : v ≠ 4) :
    s.topReason 0x600804 v true = 3 := by
  have hacc : topAccess 0x600804 = .wo := rfl
  have hhaw : isHaw 0x600804 = false := rfl
  have hfree : s.topForbids 0x600804 v = false := by simp [State.topForbids, isDbg]
  have hbad : s.topBadNow 0x600804 v = true := by simp [State.topBadNow, topBad, h3, h4]
  simp [State.topReason, hacc, hhaw, State.serves, hup, hready, hfree, hbad]

theorem exec_enterWarden (hup : s.phase = .up) (hready : s.boot.ready = true) :
    exec .enterWarden s = .next (s.powerReq false) := congrArg _ (writeTop_powerRequest hup hready (.inl rfl))

theorem exec_enterOff (hup : s.phase = .up) (hready : s.boot.ready = true) :
    exec .enterOff s = .next (s.powerReq true) := congrArg _ (writeTop_powerRequest hup hready (.inr rfl))

/-- PWR_STATUS with the reason of the last request. -/
def State.powerAnswered (s : State) (r : Nat) : State := { s with wdn := { s.wdn with reqReason := r } }

/-- A request during a list or with an epoch that is not free is refused with reason 0x1. -/
theorem State.powerReq_refused (h : s.listInFlight = true ∨ s.epochsFree = false) (off : Bool) :
    s.powerReq off = s.powerAnswered 1 := if_pos (by simpa using h)

theorem State.powerReq_accepted (hlist : s.listInFlight = false) (hepoch : s.epochsFree = true) (off : Bool) :
    s.powerReq off = if off then (s.powerAnswered 0).enterOff
      else if s.wdn.st = .warden then s.powerAnswered 0 else (s.powerAnswered 0).enterWarden := if_neg (by simp [hlist, hepoch])

end Request

/-- PWR_STATE_REQ is write-only: it reads as zero. -/
theorem State.word_powerRequest (s : State) : s.word .pf0 0x600804 = 0 := by
  have hacc : topAccess 0x600804 = .wo := rfl
  have htop : s.topWord 0x600804 = 0 := by simp [State.topWord, hacc]
  have hpage : inPage 0x600804 = false := rfl
  simp only [State.word, hpage, Bool.false_eq_true, if_false, htop, ite_self]

/-- Settles O31: a request is powerAnswered by whether a list is in flight or an epoch not free; other values are out of range. -/
theorem powerRequests : Obligations.PowerRequests := by
  refine ⟨?warden, ?off, ?refused, ?ignored, State.word_powerRequest⟩
  case warden =>
    intro s hup hready hlist hepoch hst
    refine ⟨_, exec_enterWarden hup hready, ?_⟩
    rw [State.powerReq_accepted hlist hepoch, if_neg Bool.false_ne_true, if_neg hst]
    obtain ⟨hwarden, hrails, hmem, hbricks, hconns⟩ := (s.powerAnswered 0).enterWarden_off
    obtain ⟨hfuses, hreason, hstep⟩ := (s.powerAnswered 0).enterWarden_keeps
    exact ⟨hwarden, hreason, hrails, hmem, hbricks, hconns, hfuses, hstep⟩
  case off =>
    intro s hup hready hlist hepoch
    refine ⟨_, exec_enterOff hup hready, ?_⟩
    rw [State.powerReq_accepted hlist hepoch, if_pos rfl]
    exact State.enterOff_off _
  case refused =>
    intro s hup hready hbusy
    exact ⟨(exec_enterWarden hup hready).trans (congrArg _ (State.powerReq_refused hbusy false)),
      (exec_enterOff hup hready).trans (congrArg _ (State.powerReq_refused hbusy true))⟩
  case ignored =>
    intro s v hup hready h3 h4
    have hdeaf := State.deaf_up hup
    rw [exec_registerWrite, registerWrite_top hdeaf rfl rfl,
      writeTop_ignored hdeaf rfl rfl (State.topReason_powerRequest_bad hup hready h3 h4) (by decide),
      State.ignoreTop_eq (by decide)]

/-! ### Timers and wakes (R541, R543, R544) -/

section Timers
variable {s : State}

/-- A powered brick that is told to drain toward DOZE. -/
def BrickS.towardDoze (k : BrickS) : BrickS := if k.powered then { k with drain := some .doze } else k

theorem BrickS.towardDoze_drain {k : BrickS} (h : k.towardDoze.powered = true) : k.towardDoze.drain = some .doze := by
  unfold BrickS.towardDoze at h ⊢
  split at h
  · next hk => rw [if_pos hk]
  · next hk => exact absurd h hk

theorem BrickS.towardDoze_of_powered {k : BrickS} (h : k.powered = true) : k.towardDoze = { k with drain := some .doze } :=
  if_pos h

/-- DOZE is not reached while a brick drains toward it. -/
theorem State.dozeDone_draining (h : s.bricks.any (fun b => b.drain == some .doze) = true) : s.dozeDone = s :=
  if_neg (by simp [h])

/-- With a brick powered, the entry to DOZE waits for its stores. -/
theorem State.enterDoze_waits (h : ∃ b ∈ s.bricks, b.powered = true) :
    s.enterDoze = { s with wdn := { s.wdn with busy := true }, bricks := s.bricks.map BrickS.towardDoze
                           mortar := { s.mortar with dirty := s.mortar.dirty.filter s.linePinned } } := by
  obtain ⟨b, hb, hpowered⟩ := h
  refine State.dozeDone_draining (List.any_eq_true.mpr ⟨b.towardDoze, List.mem_map.mpr ⟨b, hb, rfl⟩, ?_⟩)
  rw [BrickS.towardDoze_of_powered hpowered]
  rfl

theorem execDozeTimeout_due (hup : s.phase = .up) (hidle : s.wdn.st = .idle) (hbusy : s.wdn.busy = false)
    (htimer : bits (s.regN 0x600828) 15 0 ≠ 0) (hepoch : s.epochsFree = true) (hunits : s.settledUnits = true)
    (hdue : s.wdn.idleSince + bits (s.regN 0x600828) 15 0 * 1000000 ≤ s.now) : execDozeTimeout s = .next s.enterDoze :=
  if_pos ⟨hup, hidle, hbusy, htimer, hepoch, hunits, hdue⟩

/-- A DOZE timer of 0 never runs out. -/
theorem execDozeTimeout_off (h : bits (s.regN 0x600828) 15 0 = 0) : execDozeTimeout s = .next s :=
  if_neg fun ⟨_, _, _, htimer, _⟩ => htimer h

theorem execWardenTimeout_due (hup : s.phase = .up) (hdoze : s.wdn.st = .doze) (htimer : bits (s.regN 0x60082C) 15 0 ≠ 0)
    (hdue : s.wdn.dozeSince + bits (s.regN 0x60082C) 15 0 * 1000000000 ≤ s.now) :
    execWardenTimeout s = .next s.enterWarden :=
  if_pos ⟨hup, hdoze, htimer, hdue⟩

/-- A WARDEN timer of 0 never runs out. -/
theorem execWardenTimeout_off (h : bits (s.regN 0x60082C) 15 0 = 0) : execWardenTimeout s = .next s :=
  if_neg fun ⟨_, _, htimer, _⟩ => htimer h

/-- An event that wakes a device in DOZE takes it to RUN. -/
theorem State.wakeUp_doze (h : s.wdn.st = .doze) : s.wakeUp = s.leaveDoze := by rw [State.wakeUp, h]

theorem State.latchWake_first (h : s.wdn.waking = false) :
    s.latchWake = { s with wdn := { s.wdn with waking := true, busy := true, railReq := s.runRails } }.emit .i3cInterrupt :=
  if_neg (by simp [h])

theorem execHostWakeRequest_doze (hup : s.phase = .up) (hdoze : s.wdn.st = .doze) (port : Nat) (memory : Bool) :
    execHostWakeRequest port memory s = .next s.leaveDoze := by
  have hwarden : s.wdn.st ≠ .warden := by simp [hdoze]
  rw [execHostWakeRequest, if_neg (not_not_intro hup), if_neg hwarden, if_pos (.inl hdoze), State.wakeUp_doze hdoze]

/-- In WARDEN a memory request on HIO0, and no other, is latched. -/
theorem execHostWakeRequest_warden (hup : s.phase = .up) (hwarden : s.wdn.st = .warden) (port : Nat) (memory : Bool) :
    execHostWakeRequest port memory s = .next (if memory && port == 0 then s.latchWake else s) := by
  rw [execHostWakeRequest, if_neg (not_not_intro hup), if_pos hwarden]

theorem execWakeTime_doze (hup : s.phase = .up) (hdoze : s.wdn.st = .doze) (hset : s.reg64 0x600830 ≠ 0)
    (hsince : s.wdn.dozeSince ≤ s.reg64 0x600830) (hnow : s.reg64 0x600830 ≤ s.now) :
    execWakeTime s = .next s.leaveDoze := by
  have hwarden : s.wdn.st ≠ .warden := by simp [hdoze]
  refine (if_pos ⟨hup, hset, hsince, hnow⟩).trans ?_
  rw [if_neg hwarden, if_pos (.inl hdoze), State.wakeUp_doze hdoze]

/-- A wake time still to come wakes nothing. -/
theorem execWakeTime_early (h : s.now < s.reg64 0x600830) : execWakeTime s = .next s :=
  if_neg fun ⟨_, _, _, hnow⟩ => absurd hnow (not_le.mpr h)

end Timers

/-- Settles O59: each timer by whether it is due, each wake by the state it finds the device in. -/
theorem powerStatesFollowTheirTimers : Obligations.PowerStatesFollowTheirTimers := by
  refine ⟨?idle, ?doze, ?warden, ?wardenOff, ?dozeOff, ?hostDoze, ?hostWarden, ?hio1, ?timeDoze, ?early⟩
  case idle =>
    intro s hup hready hrun hbusy hquiet hdue
    exact if_pos ⟨hup, hready, hrun, hbusy, hquiet, hdue⟩
  case doze =>
    intro s hup hidle hbusy htimer hepoch hunits hdue hpowered
    refine ⟨_, execDozeTimeout_due hup hidle hbusy htimer hepoch hunits hdue, ?_⟩
    rw [State.enterDoze_waits hpowered]
    exact ⟨rfl, hidle, List.forall_mem_map.mpr fun _ _ => BrickS.towardDoze_drain, rfl⟩
  case warden =>
    intro s hup hdoze htimer hdue
    obtain ⟨hwarden, hrails, hmem, -, -⟩ := s.enterWarden_off
    exact ⟨_, execWardenTimeout_due hup hdoze htimer hdue, hwarden, hrails, hmem⟩
  case wardenOff => exact fun s h => execWardenTimeout_off h
  case dozeOff => exact fun s h => execDozeTimeout_off h
  case hostDoze => exact fun s port memory hup hdoze => ⟨_, execHostWakeRequest_doze hup hdoze port memory, rfl, rfl⟩
  case hostWarden =>
    intro s hup hwarden hwaking
    have hlatch := (execHostWakeRequest_warden hup hwarden 0 true).trans (congrArg _ (if_pos rfl))
    rw [State.latchWake_first hwaking] at hlatch
    exact ⟨_, hlatch, rfl, rfl, hwarden, by simp [State.runRails]⟩
  case hio1 =>
    intro s hup hwarden
    exact execHostWakeRequest_warden hup hwarden 1 true
  case timeDoze =>
    exact fun s hup hdoze hset hsince hnow => ⟨_, execWakeTime_doze hup hdoze hset hsince hnow, rfl, rfl⟩
  case early => exact fun s h => execWakeTime_early h

end Sys2Proof.Machine
end

section
/-! SUPPORT. The return from WARDEN and the end of store drains (R543, R547, R548, R582), and the statement on them. -/

namespace Sys2Proof.Machine

/-! ### The return from WARDEN (R547, R548) -/

section Rails
variable {s u v : State} {i : TrainIn} {f : List UnitKey}

/-- The state without what the start of ports and the records of lost memory may change: links, error handler, last-gasp
records, pins and phase. -/
def State.sansReturn (s : State) : State :=
  { s with haw := State.reset.haw, repair := State.reset.repair, pins := State.reset.pins, phase := State.reset.phase
           wdn := { s.wdn with gasp := [], gaspSeq := 0 } }

theorem State.startPort_sansReturn (s : State) (p : Nat) : (s.startPort p).sansReturn = s.sansReturn := by
  unfold State.startPort
  split <;> rfl

theorem State.raise_sansReturn (s : State) (e : ErrEvt) : (s.raise e).sansReturn = s.sansReturn := by
  obtain ⟨r, h⟩ | ⟨c, a, b, d, u, h⟩ := s.raise_cases e
  · rw [h]
    rfl
  · rw [h]
    rfl

/-- The device in RUN with empty bricks, those in service powered: the return from WARDEN but for its ports and records. -/
def State.returned (s : State) : State :=
  { s with bricks := (List.range 16).map fun b =>
      { BrickS.reset with powered := s.unit (brickUnit b) == UnitState.inService } }.setPwr .run

/-- A wake that is latched goes on once the rails are in regulation. -/
theorem railsUp_waking (hup : s.phase = .up) (hwarden : s.wdn.st = .warden) (hwaking : s.wdn.waking = true) :
    ¬ (s.phase ≠ .up ∨ s.wdn.st ≠ .warden ∨ s.wdn.waking = false) := by
  simp [hup, hwarden, hwaking]

/-- Training and self-tests passed: RUN, with ports started and a record to each allocated partition. -/
theorem railsUp_returns (hup : s.phase = .up) (hwarden : s.wdn.st = .warden) (hwaking : s.wdn.waking = true)
    (htrain : s.train i = some u) (htest : ({ u with mem := Mem.empty }).selfTests f = some v) :
    (railsUp i f s).sansReturn = v.returned.sansReturn := by
  rw [railsUp, if_neg (railsUp_waking hup hwarden hwaking), htrain]
  simp only [htest]
  exact (forAll_keeps State.sansReturn (fun s n => s.raise_sansReturn _) _ _).trans
    (forAll_keeps State.sansReturn State.startPort_sansReturn _ v.returned)

theorem railsUp_untrained (hup : s.phase = .up) (hwarden : s.wdn.st = .warden) (hwaking : s.wdn.waking = true)
    (htrain : s.train i = none) : railsUp i f s = s.bootFails := by
  rw [railsUp, if_neg (railsUp_waking hup hwarden hwaking), htrain]

/-- Rails in regulation that no wake asked for change nothing. -/
theorem railsUp_idle (h : s.wdn.waking = false) : railsUp i f s = s := if_pos (.inr (.inr h))

end Rails

/-! ### Bricks that drain (R543, R582) -/

section Drains
variable {s : State} {b n : Nat} {d : DrainWhy}

theorem State.modBrick_brick_other {k : Nat} (h : k ≠ b) (g : BrickS → BrickS) : (s.modBrick b g).brick k = s.brick k := by
  simp [State.brick, State.modBrick, modAt, List.getD_eq_getElem?_getD, h.symm]

/-- A brick in the list is the brick of its number. -/
theorem State.exists_brick_of_mem {k : BrickS} (h : k ∈ s.bricks) : ∃ j, s.brick j = k := by
  obtain ⟨j, hj, rfl⟩ := List.mem_iff_getElem.mp h
  exact ⟨j, by simp [State.brick, List.getD_eq_getElem?_getD, hj]⟩

/-- Where one brick's drain ends and no other drains for the same reason, none does any more. -/
theorem State.noDrain_modBrick {g : BrickS → BrickS} (hb : b < s.bricks.length) (hend : (g (s.brick b)).drain = none)
    (hothers : ∀ k, k ≠ b → (s.brick k).drain ≠ some d) : ((s.modBrick b g).bricks.any fun x => x.drain == some d) = false := by
  refine List.any_eq_false.mpr fun x hx => ?_
  obtain ⟨j, rfl⟩ := State.exists_brick_of_mem hx
  by_cases hj : j = b
  · rw [hj, State.modBrick_brick_same hb, hend]
    simp
  · rw [State.modBrick_brick_other hj]
    simpa using hothers j hj

/-- A reset's end changes its partition and the function's page. -/
theorem State.endReset_frame (s : State) (n : Nat) :
    s.endReset n = { s with parts := (s.endReset n).parts, pages := (s.endReset n).pages } := by
  unfold State.endReset
  extract_lets t
  split
  · unfold t
    split <;> rfl
  · rfl

/-- A reset none of whose bricks drains any more ends. -/
theorem State.endReset_ends (hreset : (s.part n).resetting = true) (hdrained : s.resetRuns n = false)
    (hn : n < s.parts.length) : ((s.endReset n).part n).resetting = false := by
  rw [State.endReset, if_pos (by simp [hreset, hdrained])]
  extract_lets t
  have hparts : t.parts = s.parts := by
    unfold t
    split <;> rfl
  rw [State.modPart_part_same (hparts ▸ hn)]

theorem drained_none (h : (s.brick b).drain = none) : drained b s = s := by rw [drained, h]

theorem drained_reset (h : (s.brick b).drain = some (.reset n)) :
    drained b s = (s.modBrick b BrickS.fresh).endReset n := by rw [drained, h]

theorem drained_doze (h : (s.brick b).drain = some .doze) :
    drained b s = (s.modBrick b fun k => { k with drain := none, powered := false }).dozeDone := by rw [drained, h]

/-- A brick that drained for a reset is as at reset, and memory is left alone. -/
theorem drained_reset_brick (h : (s.brick b).drain = some (.reset n)) (hb : b < s.bricks.length) :
    (drained b s).brick b = BrickS.reset ∧ (drained b s).mem = s.mem := by
  rw [drained_reset h, State.endReset_frame]
  exact ⟨State.modBrick_brick_same hb _, rfl⟩

/-- The last brick to drain ends the reset. -/
theorem drained_reset_ends (h : (s.brick b).drain = some (.reset n)) (hb : b < s.bricks.length)
    (hreset : (s.part n).resetting = true) (hothers : ∀ k, k ≠ b → (s.brick k).drain ≠ some (.reset n))
    (hn : n < s.parts.length) : ((drained b s).part n).resetting = false := by
  rw [drained_reset h]
  exact State.endReset_ends hreset (State.noDrain_modBrick hb rfl hothers) hn

/-- DOZE is reached once no brick drains toward it, where no wake waits. -/
theorem State.dozeDone_reached (hbusy : s.wdn.busy = true) (hidle : s.wdn.st = .idle) (hwaking : s.wdn.waking = false)
    (hdrained : (s.bricks.any fun b => b.drain == some .doze) = false) : s.dozeDone = s.setPwr .doze := by
  rw [State.dozeDone, if_pos (by simp [hbusy, hidle, hdrained]), if_neg (by simp [hwaking])]

/-- The last brick to drain toward DOZE is powered down, and DOZE is reached. -/
theorem drained_doze_last (h : (s.brick b).drain = some .doze) (hb : b < s.bricks.length) (hbusy : s.wdn.busy = true)
    (hidle : s.wdn.st = .idle) (hwaking : s.wdn.waking = false)
    (hothers : ∀ k, k ≠ b → (s.brick k).drain ≠ some .doze) :
    drained b s = (s.modBrick b fun k => { k with drain := none, powered := false }).setPwr .doze := by
  rw [drained_doze h]
  exact State.dozeDone_reached hbusy hidle hwaking (State.noDrain_modBrick hb rfl hothers)

theorem execStoreDrain_up (hup : s.phase = .up) (b : Nat) : execStoreDrain b s = .next (drained b s) := if_pos hup

theorem execStoreDrain_none (h : (s.brick b).drain = none) : execStoreDrain b s = .next s := by
  rw [execStoreDrain, drained_none h, ite_self]

/-! ### Drains that time out (R543, R582) -/

theorem execDrainTimeout_up (hup : s.phase = .up) (b : Nat) (l : List Nat) :
    execDrainTimeout b l s = .next (drainTimeout b l s) := if_pos hup

theorem execDrainTimeout_none (h : (s.brick b).drain = none) (l : List Nat) : execDrainTimeout b l s = .next s := by
  rw [execDrainTimeout, drainTimeout, h, ite_self]

/-- A drain toward DOZE that times out calls DOZE off: the device stays in IDLE, or in RUN where a wake waits. -/
theorem drainTimeout_doze (h : (s.brick b).drain = some .doze) (l : List Nat) :
    (drainTimeout b l s).mem = s.mem ∧ (drainTimeout b l s).wdn.busy = false ∧
      (drainTimeout b l s).wdn.st = if s.wdn.waking = true then .run else .idle := by
  rw [drainTimeout, h]
  simp only [State.raise1, State.raise_mem, State.raise_wdn_busy, State.raise_wdn_st]
  split
  · exact ⟨rfl, rfl, rfl⟩
  · exact ⟨rfl, rfl, rfl⟩

/-- Dropped stores leave the bricks alone. -/
theorem State.dropStores_bricks (s : State) (b : Nat) (l : List Nat) : (s.dropStores b l).bricks = s.bricks := by
  unfold State.dropStores
  extract_lets ls t
  split
  · rfl
  · exact State.raise_bricks ..

/-- Dropped stores poison the locations they were meant for. -/
theorem State.dropStores_mem (s : State) (b : Nat) {l : List Nat} (hl : ∀ x ∈ l, x < Config.deviceEnd / 64) :
    (s.dropStores b l).mem = l.foldl Mem.poisonAt s.mem := by
  have hall : (l.filter fun x => decide (x < Config.deviceEnd / 64)) = l :=
    List.filter_eq_self.mpr fun x hx => decide_eq_true (hl x hx)
  unfold State.dropStores
  rw [hall]
  extract_lets t
  split
  · rfl
  · exact State.raise_mem ..

/-- A drain for a reset that times out drops the stores that are left, and the reset goes on. -/
theorem drainTimeout_reset (h : (s.brick b).drain = some (.reset n)) (l : List Nat) :
    drainTimeout b l s = drained b (s.dropStores b l) := by
  rw [drainTimeout, h]

theorem drainTimeout_reset_brick {l : List Nat} (h : (s.brick b).drain = some (.reset n)) (hb : b < s.bricks.length)
    (hl : ∀ x ∈ l, x < Config.deviceEnd / 64) :
    (drainTimeout b l s).mem = l.foldl Mem.poisonAt s.mem ∧ (drainTimeout b l s).brick b = BrickS.reset := by
  have hbricks := s.dropStores_bricks b l
  have hdrain : ((s.dropStores b l).brick b).drain = some (.reset n) := by
    rw [State.brick, hbricks]
    exact h
  obtain ⟨hbrick, hmem⟩ := drained_reset_brick hdrain (hbricks ▸ hb)
  rw [drainTimeout_reset h]
  exact ⟨hmem.trans (s.dropStores_mem b hl), hbrick⟩

end Drains

/-- Settles O60: the return from WARDEN by its training, a drain by what the brick drains for. -/
theorem wakesAndDrainsFinish : Obligations.WakesAndDrainsFinish := by
  refine ⟨?returns, ?untrained, ?idle, ?reset, ?doze, ?none, ?dozeLate, ?resetLate⟩
  case returns =>
    intro s i f u v hup hwarden hwaking htrain htest
    have hview := railsUp_returns hup hwarden hwaking htrain htest
    have hwdn : (railsUp i f s).sansReturn.wdn = v.returned.sansReturn.wdn := congrArg State.wdn hview
    have hbricks : (railsUp i f s).sansReturn.bricks = v.returned.sansReturn.bricks := congrArg State.bricks hview
    exact ⟨_, rfl, congrArg WdnS.st hwdn, congrArg WdnS.waking hwdn, congrArg WdnS.busy hwdn, hbricks⟩
  case untrained =>
    intro s i f hup hwarden hwaking htrain
    exact congrArg Host.Outcome.next (railsUp_untrained hup hwarden hwaking htrain)
  case idle => exact fun s i f h => congrArg Host.Outcome.next (railsUp_idle h)
  case reset =>
    intro s b n hup hdrain hb
    obtain ⟨hbrick, hmem⟩ := drained_reset_brick hdrain hb
    exact ⟨_, execStoreDrain_up hup b, hbrick, hmem, drained_reset_ends hdrain hb⟩
  case doze =>
    intro s b hup hdrain hb hbusy hidle hwaking hothers
    refine ⟨_, execStoreDrain_up hup b, ?_⟩
    rw [drained_doze_last hdrain hb hbusy hidle hwaking hothers]
    exact ⟨rfl, rfl, congrArg BrickS.powered (State.modBrick_brick_same hb _)⟩
  case none => exact fun s b h => ⟨execStoreDrain_none h, execDrainTimeout_none h⟩
  case dozeLate => exact fun s b l hup hdrain => ⟨_, execDrainTimeout_up hup b l, drainTimeout_doze hdrain l⟩
  case resetLate =>
    intro s b l n hup hdrain hb hl
    exact ⟨_, execDrainTimeout_up hup b l, drainTimeout_reset_brick hdrain hb hl⟩

end Sys2Proof.Machine
end

section
/-! SUPPORT. The error handler (R552, R557, R562, R566, R567, R572): what a record leaves alone, each event by its equation,
and the statement on them. -/

namespace Sys2Proof.Machine

section Handler
variable {s : State} {e : ErrEvt}

/-! ### Records (R144 to R146, R562) -/

/-- What records leave alone: the errors that wait, the units' states, and the work and memory of the partitions. -/
def State.workView (s : State) : List ErrEvt × List (UnitKey × UnitState) × List RunningList × List Partition × Mem :=
  (s.repair.queue, s.repair.units, s.lists, s.parts, s.mem)

theorem State.putRec_workView (s : State) (f : Nat) (r : ErrRec) : (s.putRec f r).workView = s.workView := by
  unfold State.putRec
  extract_lets
  rw [State.msix_frame]
  rfl

theorem State.writeRec_workView (s : State) (f : Nat) (r : ErrRec) : (s.writeRec f r).1.workView = s.workView := by
  unfold State.writeRec
  extract_lets
  split
  · rfl
  · split
    · exact s.putRec_workView f r
    · split
      · rfl
      · rfl

theorem State.noteRec_workView (s : State) (c : ErrScope) (i : Option Nat) : (s.noteRec c i).workView = s.workView := by
  unfold State.noteRec
  split
  · rfl
  · rfl
  · rfl

/-- A record and its copy disturb no work. -/
theorem State.deliver_workView (s : State) (r : ErrRec) (c : ErrScope) : (s.deliver r c).workView = s.workView := by
  unfold State.deliver
  extract_lets f w t u
  have hwritten : t.workView = s.workView := s.writeRec_workView f r
  have hcopied : u.workView = s.workView := by
    unfold u
    split
    · exact (t.writeRec_workView 0 _).trans hwritten
    · exact hwritten
  exact (u.noteRec_workView c w.2).trans hcopied

/-! ### ERROR_HANDLE (R552, R566, R567) -/

theorem execErrorHandle_idle (h : s.repair.inHand = none) : execErrorHandle s = .next s := by
  rw [execErrorHandle, errorHandle, h, ite_self]

/-- The state with the record of the error in hand written, its place in the queue noted. -/
def State.handRecorded (s : State) (e : ErrEvt) : State :=
  s.deliver { e.rec0 with queued := min 255 s.repair.queue.length } e.scope

theorem execErrorHandle_recorded (hup : s.phase = .up) (hhand : s.repair.inHand = some e) (hsev : e.rec0.severity ≠ 4) :
    execErrorHandle s = .next ((s.handRecorded e).nextError.consequence e) := by
  rw [execErrorHandle, if_pos hup, errorHandle, hhand]
  exact congrArg Host.Outcome.next (if_neg hsev)

theorem execErrorHandle_device (hup : s.phase = .up) (hhand : s.repair.inHand = some e) (hsev : e.rec0.severity = 4) :
    execErrorHandle s = .next (s.device e.rec0) := by
  rw [execErrorHandle, if_pos hup, errorHandle, hhand]
  exact congrArg Host.Outcome.next (if_pos hsev)

/-- An error that is neither permanent nor escalated retires nothing. -/
theorem State.retires_false (hperm : e.rec0.permanent = false) (hesc : e.rec0.escalated = false) : s.retires e = false := by
  simp [State.retires, hperm, hesc]

/-- A CORRECTED or DEFERRED error that is neither permanent nor escalated has no consequence besides its record. -/
theorem State.consequence_none (hsev : e.rec0.severity ≤ 1) (hperm : e.rec0.permanent = false)
    (hesc : e.rec0.escalated = false) : s.consequence e = s := by
  have hnot : ¬ (e.rec0.severity = 3 ∧ e.rec0.code ≠ 0x6031) := by omega
  rw [State.consequence, if_neg hnot, State.retires_false hperm hesc]
  rfl

/-- Z1 to Z5 end with FATAL_N asserted and the device halted. -/
theorem State.device_halted (s : State) (r : ErrRec) : ∃ t : State, s.device r = t.fatal.halted .stopped := ⟨_, rfl⟩

/-! ### HANDLER_TIMEOUT (R572) and BUCKET_LEAK (R557) -/

theorem execHandlerTimeout_idle (h : s.repair.inHand = none) : execHandlerTimeout s = .next s := by
  rw [execHandlerTimeout, h]

/-- The warden halts a device whose handler is stuck, and writes a last-gasp record of cause 6. -/
theorem execHandlerTimeout_due (hup : s.phase = .up) (hhand : s.repair.inHand = some e)
    (hdue : s.repair.handledAt + 10000000 ≤ s.now) :
    execHandlerTimeout s = .next ((s.lastGasp 6 e.rec0.code 0x8010 0x27 noUnit).fatal.halted .stopped) := by
  rw [execHandlerTimeout, hhand]
  exact if_pos ⟨hup, hdue⟩

theorem execBucketLeak_unit {u : UnitKey} (h : u.kind ≠ 4) (row : Nat) : execBucketLeak u row s = .next (s.bucketAdd u 0) :=
  if_neg h

theorem execBucketLeak_row {u : UnitKey} (h : u.kind = 4) (row : Nat) :
    execBucketLeak u row s = .next (s.rowSet u.index row (s.rowCount u.index row)) := if_pos h

end Handler

/-- Settles O47: each event by whether it is due; a DEVICE error by the halt it ends in. -/
theorem errorsAreHandledInOrder : Obligations.ErrorsAreHandledInOrder := by
  refine ⟨?idle, ?handled, ?contained, ?device, ?stuck, ?notStuck, ?leak, ?rowLeak⟩
  case idle => exact fun s _ hhand => execErrorHandle_idle hhand
  case handled => exact fun s e hup hhand hsev => execErrorHandle_recorded hup hhand hsev
  case contained =>
    intro s e hup hhand hsev hperm hesc
    have hrun := execErrorHandle_recorded hup hhand (by omega)
    rw [State.consequence_none hsev hperm hesc] at hrun
    have hview : (s.handRecorded e).workView = s.workView := s.deliver_workView ..
    simp only [State.workView, Prod.mk.injEq] at hview
    obtain ⟨hqueue, hunits, hlists, hparts, hmem⟩ := hview
    exact ⟨_, hrun, congrArg List.head? hqueue, congrArg List.tail hqueue, hunits, hlists, hparts, hmem⟩
  case device =>
    intro s e hup hhand hsev
    obtain ⟨t, ht⟩ := s.device_halted e.rec0
    exact ⟨t.fatal.halted .stopped, ht ▸ execErrorHandle_device hup hhand hsev, rfl, rfl, rfl, rfl, rfl, rfl, rfl, rfl⟩
  case stuck =>
    exact fun s e hup hhand hdue => ⟨_, execHandlerTimeout_due hup hhand hdue, rfl, rfl, rfl, rfl, rfl⟩
  case notStuck => exact fun s hhand => execHandlerTimeout_idle hhand
  case leak => exact fun s u row hkind => execBucketLeak_unit hkind row
  case rowLeak => exact fun s u row hkind => execBucketLeak_row hkind row

end Sys2Proof.Machine
end

section
/-! SUPPORT. Readmissions and deadlines (R578, R587, R588, R590): what becomes of a unit while it is readmitted, each event by
its equation, and the statement on them. -/

namespace Sys2Proof.Machine

section Readmissions
variable {s : State} {u v : UnitKey}

/-! ### A unit's place in its readmission (R587, R588) -/

/-- What a readmission changes of the error handler for a unit: its state, the readmission in progress and the buckets. -/
def State.readmitView (s : State) (u : UnitKey) : UnitState × Option Readmit × List (Nat × Bucket) :=
  (s.unit u, s.repair.readmit, s.repair.buckets)

theorem State.raise_readmit (e : ErrEvt) : (s.raise e).repair.readmit = s.repair.readmit := by
  unfold State.raise State.await State.overflow
  simp only
  repeat' split
  all_goals rfl

theorem State.raise_readmitView (e : ErrEvt) : (s.raise e).readmitView u = s.readmitView u := by
  rw [State.readmitView, State.raise_unit, State.raise_readmit, State.raise_buckets, State.readmitView]

theorem State.advanceTxc_readmitView : s.advanceTxc.readmitView u = s.readmitView u := by
  unfold State.advanceTxc
  extract_lets ports
  split
  · rfl
  · split
    · rfl
    · exact State.raise_readmitView _

theorem State.xmit_readmitView (p c l t psn job : Nat) (op d : List Byte) :
    (s.xmit p c l t psn job op d).readmitView u = s.readmitView u := by
  unfold State.xmit State.xmit1
  extract_lets counted
  have hcounted : counted.readmitView u = s.readmitView u := by
    unfold counted
    split
    · rfl
    · exact State.advanceTxc_readmitView
  split
  · exact hcounted
  · exact hcounted

theorem State.tellUp_readmitView (p : Nat) : (s.tellUp p).readmitView u = s.readmitView u :=
  forAll_keeps (·.readmitView u) (fun _ _ => State.xmit_readmitView ..) _ s

theorem State.unit_setUnit_inService : (s.setUnit u .inService).unit u = .inService := by
  have hnone : (s.repair.units.filter (·.1 != u)).find? (·.1 == u) = none := by simp
  exact congrArg (fun x => (x.map (·.2)).getD .inService) hnone

/-- A unit that enters service leaves the other units as they are. -/
theorem State.unit_setUnit_other (h : u ≠ v) : (s.setUnit v .inService).unit u = s.unit u := by
  have hkept : ∀ p : UnitKey × UnitState, (p.1 != v) = true ∧ (p.1 == u) = true ↔ (p.1 == u) = true := by
    intro p
    simp only [bne_iff_ne, beq_iff_eq, and_iff_right_iff_imp]
    exact fun hp => hp ▸ h
  simp only [State.unit, State.setUnit, Machine.setUnit, if_pos, List.find?_filter, hkept, Bool.decide_eq_true]

/-- What a class of unit does at its hand-over point leaves the unit's own place alone: a slice brings its ways only. -/
theorem State.offer_readmitView : (s.offer u).readmitView u = s.readmitView u := by
  unfold State.offer
  split
  · rfl
  · split
    case isTrue hslice =>
      have hway : ∀ w, u ≠ { kind := 2, index := w } := by
        rintro w rfl
        cases hslice
      refine forAll_keeps (·.readmitView u) (fun t w => ?_) _ s
      exact congrArg (·, t.repair.readmit, t.repair.buckets) (State.unit_setUnit_other (hway w))
    case isFalse =>
      split
      · rfl
      · split
        · exact State.tellUp_readmitView _
        · split
          · rfl
          · rfl

/-- A readmission that fails ends with the unit RETIRED. -/
theorem State.readmitFails_readmitView : (s.readmitFails u).readmitView u = (.retired, none, s.repair.buckets) := by
  have hretired : (s.setUnit u .retired).unit u = .retired := State.unit_setUnit_same (by decide)
  refine (State.raise_readmitView _).trans ?_
  dsimp only
  split
  · exact congrArg (·, none, s.repair.buckets) hretired
  · exact congrArg (·, none, s.repair.buckets) hretired

/-! ### SELF_TEST_DONE (R587, R588) -/

theorem execSelfTestDone_passed (hup : s.phase = .up) (h : s.repair.readmit = some { unit := u, step := .selfTest }) :
    execSelfTestDone true s = .next (s.zeroise u) := by
  rw [execSelfTestDone, h]
  exact if_neg (not_not_intro hup)

theorem execSelfTestDone_failed (hup : s.phase = .up) (h : s.repair.readmit = some { unit := u, step := .selfTest }) :
    execSelfTestDone false s = .next (s.readmitFails u) := by
  rw [execSelfTestDone, h]
  exact if_neg (not_not_intro hup)

theorem State.zeroise_brick (h : u.kind = 1) : s.zeroise u = (s.modBrick u.index BrickS.fresh).setReadmit
    (some { unit := u, step := .probation (s.now + 10000000000) }) := if_pos h

/-- Units but bricks and Hawser ports go on probation as they are. -/
theorem State.zeroise_other (hbrick : u.kind ≠ 1) (hport : u.kind ≠ 6) :
    s.zeroise u = s.setReadmit (some { unit := u, step := .probation (s.now + probationNs u.kind) }) :=
  (if_neg hbrick).trans (if_neg hport)

/-! ### PROBATION_END (R587, R588, R590) -/

section Probation
variable {k : Nat}

theorem execProbationEnd_up (hup : s.phase = .up) (pass : Bool) : execProbationEnd pass s = .next (probationEnd pass s) :=
  if_pos hup

theorem probationEnd_failed (h : s.repair.readmit = some { unit := u, step := .probation k }) :
    probationEnd false s = s.readmitFails u := by
  rw [probationEnd, h]
  rfl

theorem probationEnd_early (h : s.repair.readmit = some { unit := u, step := .probation k }) (hearly : s.now < k) :
    probationEnd true s = s := by
  rw [probationEnd, h]
  exact if_pos hearly

theorem probationEnd_passed (h : s.repair.readmit = some { unit := u, step := .probation k }) (hdue : k ≤ s.now)
    (hport : u.kind ≠ 6) :
    probationEnd true s = s.setReadmit (some { unit := u, step := .handOver (s.lists.map (·.owner)) }) := by
  rw [probationEnd, h]
  exact (if_neg (not_lt.mpr hdue)).trans (if_neg fun ⟨hkind, _⟩ => hport hkind)

end Probation

/-! ### HAND_OVER (R587, R590) -/

theorem execHandOver_up (hup : s.phase = .up) : execHandOver s = .next (handOver s) := if_pos hup

/-- A hand-over waits for the lists that ran when probation ended. -/
theorem handOver_waits {ls : List Nat} (h : s.repair.readmit = some { unit := u, step := .handOver ls }) (hls : ls ≠ []) :
    handOver s = s := by
  rw [handOver, h]
  exact if_pos hls

theorem handOver_done (h : s.repair.readmit = some { unit := u, step := .handOver [] }) :
    handOver s = ((((s.setReadmit none).setUnit u .inService).bucketClear u).offer u).backRec u := by
  rw [handOver, h]
  rfl

/-- The unit is in service with an empty bucket, and the readmission is over. -/
theorem handOver_readmitView (h : s.repair.readmit = some { unit := u, step := .handOver [] }) :
    (handOver s).readmitView u = (.inService, none, mapDel (unitNum u) s.repair.buckets) := by
  rw [handOver_done h]
  refine (State.raise_readmitView _).trans (State.offer_readmitView.trans ?_)
  exact congrArg (·, none, mapDel (unitNum u) s.repair.buckets) State.unit_setUnit_inService

end Readmissions

/-! ### DEADLINE_TEST (R578) -/

section Deadlines
variable {s : State}

theorem execDeadlineTest_due (hup : s.phase = .up) (hgrid : s.now % 1000 = 0) :
    execDeadlineTest s = .next (s.deadlineTests Config.deadlineSlots) := if_pos ⟨hup, hgrid⟩

theorem execDeadlineTest_offGrid (hgrid : s.now % 1000 ≠ 0) : execDeadlineTest s = .next s :=
  if_neg fun ⟨_, h⟩ => hgrid h

/-- A slot is late only where it is armed, has not missed and its deadline lies behind. -/
theorem Slot.late_false {x : Slot} {now : Nat} (h : x.armed.isSome = true → x.missed = false → now ≤ x.deadline) :
    x.late now = false := by
  refine Bool.eq_false_iff.mpr fun hlate => ?_
  obtain ⟨⟨harmed, hmissed⟩, hpast⟩ : (x.armed.isSome = true ∧ x.missed = false) ∧ x.deadline < now := by
    simpa [Slot.late] using hlate
  exact absurd hpast (not_lt.mpr (h harmed hmissed))

theorem lateFirst_none {now : Nat} {l : List (Nat × Slot)} (h : ∀ x ∈ l, x.2.late now = false) : lateFirst now l = none := by
  have hnone : (l.filter fun p => p.2.late now) = [] :=
    List.filter_eq_nil_iff.mpr fun x hx => Bool.not_eq_true _ ▸ h x hx
  rw [lateFirst, hnone]
  rfl

/-- Where no slot is late the tests end at once. -/
theorem State.deadlineTests_none (h : lateFirst s.now s.slots = none) (n : Nat) : s.deadlineTests n = s := by
  cases n with
  | zero => rfl
  | succ n => rw [State.deadlineTests, h]

end Deadlines

/-- Settles O48: a readmission by the step it stands in, a deadline test by the grid and by what is late. -/
theorem readmissionsAndDeadlines : Obligations.ReadmissionsAndDeadlines := by
  refine ⟨?tested, ?brick, ?failed, ?passed, ?early, ?failedLate, ?fails, ?handedOver, ?waits, ?due, ?offGrid, ?onTime⟩
  case tested =>
    intro s u hup h hbrick hport
    exact (execSelfTestDone_passed hup h).trans (congrArg Host.Outcome.next (State.zeroise_other hbrick hport))
  case brick =>
    intro s u hup h hbrick
    have hrun := (execSelfTestDone_passed hup h).trans (congrArg Host.Outcome.next (State.zeroise_brick hbrick))
    exact ⟨_, hrun, fun hlen => State.modBrick_brick_same hlen BrickS.fresh, rfl⟩
  case failed => exact fun s u hup h => execSelfTestDone_failed hup h
  case passed =>
    intro s u k hup h hdue hport
    exact (execProbationEnd_up hup true).trans (congrArg Host.Outcome.next (probationEnd_passed h hdue hport))
  case early =>
    intro s u k hup h hearly
    exact (execProbationEnd_up hup true).trans (congrArg Host.Outcome.next (probationEnd_early h hearly))
  case failedLate =>
    intro s u k hup h
    exact (execProbationEnd_up hup false).trans (congrArg Host.Outcome.next (probationEnd_failed h))
  case fails =>
    intro s u
    have hview := s.readmitFails_readmitView (u := u)
    simp only [State.readmitView, Prod.mk.injEq] at hview
    obtain ⟨hunit, hreadmit, -⟩ := hview
    exact ⟨hunit, hreadmit⟩
  case handedOver =>
    intro s u hup h
    have hview := handOver_readmitView h
    simp only [State.readmitView, Prod.mk.injEq] at hview
    obtain ⟨hunit, hreadmit, hbuckets⟩ := hview
    exact ⟨_, execHandOver_up hup, hunit, hreadmit, fun _ => hbuckets⟩
  case waits =>
    intro s u l ls hup h
    exact (execHandOver_up hup).trans (congrArg Host.Outcome.next (handOver_waits h (List.cons_ne_nil l ls)))
  case due => exact fun s hup hgrid => execDeadlineTest_due hup hgrid
  case offGrid => exact fun s hgrid => execDeadlineTest_offGrid hgrid
  case onTime =>
    intro s hup hgrid hslots
    have hnone := lateFirst_none fun x hx => Slot.late_false (hslots x hx)
    exact (execDeadlineTest_due hup hgrid).trans (congrArg Host.Outcome.next (State.deadlineTests_none hnone _))

end Sys2Proof.Machine
end


section
/-! SUPPORT. Attestation (R595, R596): the answer to each request, with the identity key and without, and the statement on
them. -/

namespace Sys2Proof.Machine

theorem State.hasIdentity_iff {s : State} :
    s.hasIdentity = true ↔ s.fuses.lifecycle = .provisioned ∨ s.fuses.lifecycle = .owned := by
  simp [State.hasIdentity]

theorem length_signature (draw : Nat) : (signature draw).length = 96 := by simp [signature]

section Attestation
variable {s : State}

/-- The responder answers while the device is up. -/
theorem State.spdmSend_up (hup : s.phase = .up) (code : Nat) (body : List Byte) :
    s.spdmSend code body = s.emit (.spdm code body) := if_pos hup

theorem execNegotiateAlgorithms_up (hup : s.phase = .up) (a b : Bool) :
    execNegotiateAlgorithms a b s = .next (s.emit (if a = true ∨ b = true then .spdm 0x63 (spdmBody 0x63 32)
      else .spdm 0x7F [7, 0xE3])) := by
  simp only [execNegotiateAlgorithms, State.spdmSend_up hup, Bool.or_eq_true]
  split
  · rfl
  · rfl

/-! ### A part with its identity key (R596) -/

theorem execGetCertificate_identity (hup : s.phase = .up) (hid : s.hasIdentity = true) (o n : Nat) :
    execGetCertificate 0 o n s = .next (s.emit (.spdm 0x02 ((certChain.drop o).take n))) := by
  simp [execGetCertificate, hid, State.spdmSend_up hup]

theorem execChallenge_identity (hup : s.phase = .up) (hid : s.hasIdentity = true) (nonce : Nat) :
    execChallenge 0 nonce s =
      .next ((s.emit (.spdm 0x03 (sha384 certChain ++ leBytes 32 nonce ++ signature s.free))).drew 1) := by
  simp only [execChallenge, hid, State.spdmSend_up hup]
  rfl

/-- Indices 1 to 9 are answered by MR0 to MR8. -/
theorem execGetMeasurements_identity (hup : s.phase = .up) (hid : s.hasIdentity = true) {i : Nat} (h1 : 1 ≤ i) (h9 : i ≤ 9)
    (nonce : Nat) : execGetMeasurements i nonce s =
      .next ((s.emit (.spdm 0x60 (beBytes 48 (s.sec.mrs.getD (i - 1) 0) ++ (leBytes 32 nonce ++ signature s.free)))).drew 1) := by
  have hnumber : i ≠ 0 := by omega
  have hall : i ≠ 0xFF := by omega
  simp only [execGetMeasurements, hid, State.spdmSend_up hup, Bool.not_true, Bool.false_eq_true, if_false, if_neg hnumber,
    if_neg hall, if_pos h9]

/-! ### A part without -/

theorem execGetCertificate_refused (hup : s.phase = .up) (hid : s.hasIdentity = false) (slot o n : Nat) :
    execGetCertificate slot o n s = .next (s.emit (.spdm 0x7F [7, 0x82])) := by
  simp [execGetCertificate, hid, State.spdmSend_up hup, spdmError]

theorem execChallenge_refused (hup : s.phase = .up) (hid : s.hasIdentity = false) (slot nonce : Nat) :
    execChallenge slot nonce s = .next (s.emit (.spdm 0x7F [7, 0x83])) := by
  simp [execChallenge, hid, State.spdmSend_up hup, spdmError]

theorem execGetMeasurements_refused (hup : s.phase = .up) (hid : s.hasIdentity = false) (i nonce : Nat) :
    execGetMeasurements i nonce s = .next (s.emit (.spdm 0x7F [7, 0xE0])) := by
  simp [execGetMeasurements, hid, State.spdmSend_up hup, spdmError]

end Attestation

/-- Settles O43: each request by its answer, those signed by the identity key by whether it exists. -/
theorem attestationAnswers : Obligations.AttestationAnswers := by
  refine ⟨?version, ?algorithms, ?digests, ?certificate, ?challenge, ?measurements, ?refused, ?unsupported⟩
  case version =>
    intro s hup
    exact ⟨congrArg Host.Outcome.next (State.spdmSend_up hup ..), congrArg Host.Outcome.next (State.spdmSend_up hup ..)⟩
  case algorithms => exact fun s a b hup => execNegotiateAlgorithms_up hup a b
  case digests => exact fun s hup => congrArg Host.Outcome.next (State.spdmSend_up hup ..)
  case certificate => exact fun s o n hup hid => execGetCertificate_identity hup (State.hasIdentity_iff.mpr hid) o n
  case challenge =>
    intro s nonce hup hid
    exact ⟨_, _, execChallenge_identity hup (State.hasIdentity_iff.mpr hid) nonce, length_signature s.free, rfl⟩
  case measurements =>
    intro s i nonce hup hid h1 h9
    exact ⟨_, _, execGetMeasurements_identity hup (State.hasIdentity_iff.mpr hid) h1 h9 nonce, length_signature s.free, rfl⟩
  case refused =>
    intro s nonce slot o n hup hprov howned
    have hid : s.hasIdentity = false := by simp [State.hasIdentity, hprov, howned]
    exact ⟨execChallenge_refused hup hid slot nonce, execGetMeasurements_refused hup hid slot nonce,
      execGetCertificate_refused hup hid slot o n⟩
  case unsupported => exact fun s code hup => congrArg Host.Outcome.next (State.spdmSend_up hup ..)

end Sys2Proof.Machine
end


section
/-! SUPPORT. Debug triggers (R618, R619, R643): the counters and the actions of one cycle, and the statement on them. -/

namespace Sys2Proof.Machine

/-- Action `i` is asked for by a trigger that holds. -/
def State.fires (s : State) (edges : List MuxSig) (i : Nat) : Bool :=
  (((List.range 16).filter (s.trigHolds edges)).map fun n => s.trigW n 4).any fun a => bit a i

/-- Every counter counts the edges of its signal in this cycle. -/
def State.counted (s : State) (edges : List MuxSig) : State := forAll (List.range 256) (fun s n => s.countEdges edges n) s

/-- The actions of a cycle, each asked for or not: trace stop overrides trace start, an honoured seize the rest (R619). -/
def State.triggered (s : State) (on : Nat → Bool) : State :=
  if on 4 && decide (2 ≤ s.sec.level) then s.seizeTrigger
  else
    let s := if on 1 then ({ s with dbg := { s.dbg with tracing := false } }).emit .traceStop
      else if on 0 then ({ s with dbg := { s.dbg with tracing := true } }).emit .traceStart else s
    let s := if on 2 then s.emit .counterSnapshot else s
    let s := if on 3 then s.deviceEvent else s
    if on 4 then s.seizeTrigger else s

section Triggers
variable {s : State} {edges : List MuxSig} {n : Nat}

theorem debugTrigger_eq :
    debugTrigger edges s = if s.deaf || decide (s.sec.level < 1) then s else (s.counted edges).triggered (s.fires edges) := rfl

theorem debugTrigger_open (hdeaf : s.deaf = false) (hlevel : 1 ≤ s.sec.level) :
    debugTrigger edges s = (s.counted edges).triggered (s.fires edges) := by
  rw [debugTrigger_eq, if_neg (by simp [hdeaf, Nat.one_le_iff_ne_zero.mp hlevel])]

/-- At CLOSED no trigger acts and nothing is counted. -/
theorem debugTrigger_closed (hlevel : s.sec.level = 0) : debugTrigger edges s = s := by
  rw [debugTrigger_eq, if_pos (by simp [hlevel])]

theorem State.fires_iff {i : Nat} :
    s.fires edges i = true ↔ ∃ n < 16, s.trigHolds edges n = true ∧ bit (s.trigW n 4) i = true := by
  simp [State.fires]

theorem State.fires_none (h : ∀ n, n < 16 → s.trigHolds edges n = false) (i : Nat) : s.fires edges i = false := by
  refine Bool.eq_false_iff.mpr fun hf => ?_
  obtain ⟨n, hn, hholds, -⟩ := State.fires_iff.mp hf
  exact Bool.false_ne_true ((h n hn).symm.trans hholds)

/-- Where one trigger alone holds, the actions are its own. -/
theorem State.fires_alone (hn : n < 16) (hholds : s.trigHolds edges n = true)
    (halone : ∀ k, k < 16 → k ≠ n → s.trigHolds edges k = false) (i : Nat) : s.fires edges i = bit (s.trigW n 4) i := by
  refine Bool.eq_iff_iff.mpr (State.fires_iff.trans ⟨?_, fun hbit => ⟨n, hn, hholds, hbit⟩⟩)
  rintro ⟨k, hk, hkholds, hbit⟩
  by_cases hkn : k = n
  · exact hkn ▸ hbit
  · exact absurd ((halone k hk hkn).symm.trans hkholds) Bool.false_ne_true

/-- Only the counters change. -/
theorem State.counted_keeps {β : Type} (p : State → β) (h : ∀ (s : State) (n : Nat), p (s.countEdges edges n) = p s) :
    p (s.counted edges) = p s := forAll_keeps p h _ s

theorem State.triggered_none {on : Nat → Bool} (h : ∀ i, on i = false) : s.triggered on = s := by
  simp [State.triggered, h]

theorem State.triggered_seize {on : Nat → Bool} (h : on 4 = true) (hlevel : 2 ≤ s.sec.level) :
    s.triggered on = s.seizeTrigger := if_pos (by simp [h, hlevel])

/-- The one action trace start. -/
theorem State.triggered_traceStart {on : Nat → Bool} (h0 : on 0 = true) (h : ∀ i, 1 ≤ i → i ≤ 4 → on i = false) :
    s.triggered on = ({ s with dbg := { s.dbg with tracing := true } }).emit .traceStart := by
  simp [State.triggered, h0, h]

/-- The device is seized by a trigger that is honoured, or it was already. -/
theorem State.seizeTrigger_phase (hheld : s.phase ≠ .held) (hlevel : 2 ≤ s.sec.level) : s.seizeTrigger.phase = .seized := by
  by_cases hseized : s.phase = .seized
  · exact (congrArg State.phase (State.seizeTrigger_idle (.inr hseized))).trans hseized
  · exact congrArg State.phase (State.seizeTrigger_honoured hheld hseized hlevel)

end Triggers

/-- Of the five actions such a word asks for the first alone. -/
theorem bit_of_mod_32_eq_one {a i : Nat} (h : a % 32 = 1) (hi : i ≤ 4) : bit a i = decide (i = 0) := by
  have hlow : (a % 2 ^ 5).testBit i = a.testBit i := by
    rw [Nat.testBit_mod_two_pow, decide_eq_true (by omega), Bool.true_and]
  rw [bit, ← hlow, show a % 2 ^ 5 = 1 from h]
  exact Bool.eq_iff_iff.mpr (Nat.testBit_one_eq_true_iff_self_eq_zero.trans decide_eq_true_iff.symm)

/-- Settles O39: the counters always count; the actions by what the triggers that hold ask for. -/
theorem debugTriggersAct : Obligations.DebugTriggersAct := by
  refine ⟨?counts, ?seizes, ?traces, ?closed⟩
  case counts =>
    intro s edges hdeaf hlevel hnone
    exact congrArg Host.Outcome.next
      ((debugTrigger_open hdeaf hlevel).trans (State.triggered_none (State.fires_none hnone)))
  case seizes =>
    intro s edges n hdeaf hlevel hn hholds hbit hheld
    have hsec : (s.counted edges).sec = s.sec := State.counted_keeps State.sec fun _ _ => rfl
    have hphase : (s.counted edges).phase = s.phase := State.counted_keeps State.phase fun _ _ => rfl
    have hlevel' : 2 ≤ (s.counted edges).sec.level := by rw [hsec]; exact hlevel
    have hrun : debugTrigger edges s = (s.counted edges).seizeTrigger := (debugTrigger_open hdeaf (by omega)).trans
      (State.triggered_seize (State.fires_iff.mpr ⟨n, hn, hholds, hbit⟩) hlevel')
    exact ⟨_, congrArg Host.Outcome.next hrun, State.seizeTrigger_phase (by rw [hphase]; exact hheld) hlevel'⟩
  case traces =>
    intro s edges n hdeaf hlevel hn hholds hword halone
    have houts : (s.counted edges).outs = s.outs := State.counted_keeps State.outs fun _ _ => rfl
    have hon : ∀ i, i ≤ 4 → s.fires edges i = decide (i = 0) := fun i hi =>
      (State.fires_alone hn hholds halone i).trans (bit_of_mod_32_eq_one hword hi)
    have hrun := (debugTrigger_open (edges := edges) hdeaf hlevel.ge).trans
      (State.triggered_traceStart (hon 0 (by decide)) fun i h1 h4 => (hon i h4).trans (decide_eq_false (by omega)))
    exact ⟨_, congrArg Host.Outcome.next hrun, rfl, by simp [State.emit, houts]⟩
  case closed => exact fun s edges hlevel => congrArg Host.Outcome.next (debugTrigger_closed hlevel)

end Sys2Proof.Machine
end

section
/-! SUPPORT. Debug levels (R601 to R607, R610, R612): a request by what it asks for, the entry to INVASIVE, and the statement
on them. -/

namespace Sys2Proof.Machine

section Levels
variable {s : State} {target : Nat} {jtag : Bool}

/-! ### Refusals -/

@[simp] theorem State.secRefuse_sec (code after kind cause : Nat) : (s.secRefuse code after kind cause).sec = s.sec := by
  rw [State.secRefuse, State.raise_frame]

@[simp] theorem State.secRefuse_windows (code after kind cause : Nat) :
    (s.secRefuse code after kind cause).windows = s.windows := State.raise_windows s _

@[simp] theorem State.tokenRefused_sec (cause kind : Nat) :
    (s.tokenRefused target cause kind).sec = { s.sec with cause := cause } := State.secRefuse_sec ..

@[simp] theorem State.tokenRefused_windows (cause kind : Nat) :
    (s.tokenRefused target cause kind).windows = s.windows := State.secRefuse_windows ..

/-! ### Requests (R605) -/

theorem debugLevelRequest_jtag {v : Word} (hdeaf : s.deaf = false) (hv : bits v.toNat 1 0 = target) :
    debugLevelRequest true v s = s.levelRequest true target := by
  simp [debugLevelRequest, hdeaf, hv]

theorem debugLevelRequest_host {v : Word} (hdeaf : s.deaf = false) (hserves : s.serves 0x700008 = true)
    (hv : bits v.toNat 1 0 = target) : debugLevelRequest false v s = s.levelRequest false target := by
  simp [debugLevelRequest, State.gated, hdeaf, hserves, hv]

theorem State.levelRequest_same : s.levelRequest jtag s.sec.level = s := if_pos rfl

theorem State.levelRequest_lower (h : target < s.sec.level) : s.levelRequest jtag target = s.setLevel target none := by
  simp [State.levelRequest, h, h.ne]

/-- OPEN is asked for in vain on a part that is not BLANK. -/
theorem State.levelRequest_open (h : s.sec.level < 3) (hlife : s.fuses.lifecycle ≠ .blank) :
    s.levelRequest jtag 3 = s.secRefuse 0x6013 3 0 0 := by
  simp [State.levelRequest, h.ne', h.not_gt, hlife]

theorem State.levelRequest_observe (h : s.sec.level = 0) : s.levelRequest false 1 = s.setLevel 1 none := by
  simp [State.levelRequest, h]

/-- INVASIVE needs a token on a part with a maker or an owner. -/
theorem State.levelRequest_invasive (h : s.sec.level < 2)
    (hlife : s.fuses.lifecycle = .owned ∨ s.fuses.lifecycle = .provisioned) :
    s.levelRequest jtag 2 = s.withToken jtag 2 := by
  have hclosed : (s.fuses.lifecycle == .blank || s.fuses.lifecycle == .decommissioned) = false := by
    rcases hlife with hlife | hlife <;> simp [hlife]
  simp [State.levelRequest, h.ne', h.not_gt, hclosed]

/-- A token that is missing or fails a test is refused with a cause. -/
theorem State.withToken_refused
    (h : s.sec.jtagToken = none ∨ ∃ tk, s.sec.jtagToken = some tk ∧ s.tokenCause tk target ≠ 0) :
    ∃ cause kind, cause ≠ 0 ∧ s.withToken true target = s.tokenRefused target cause kind := by
  obtain h | ⟨tk, h, hcause⟩ := h
  · exact ⟨1, 0, Nat.one_ne_zero, by simp [State.withToken, h]⟩
  · exact ⟨s.tokenCause tk target, fieldLE tk.bytes 4 1, hcause, by simp [State.withToken, h, hcause]⟩

theorem State.withToken_accepted {tk : Token} (h : s.sec.jtagToken = some tk) (hcause : s.tokenCause tk target = 0) :
    s.withToken true target = s.setLevel target (some tk) := by
  simp [State.withToken, h, hcause]

/-! ### The level changes (R594, R607) -/

@[simp] theorem State.setLevel_level (tk : Option Token) : (s.setLevel target tk).sec.level = target := rfl
@[simp] theorem State.setLevel_cause (tk : Option Token) : (s.setLevel target tk).sec.cause = 0 := rfl

/-- MR8 takes the new level alone where no token and no entry to INVASIVE goes with it. -/
theorem State.setLevel_mrs (h : ¬ (2 ≤ target ∧ s.sec.level < 2)) :
    (s.setLevel target none).sec.mrs = s.sec.mrs.modify 8 fun m => mrExtend m [BitVec.ofNat 8 target] := by
  simp only [State.setLevel, if_neg h]
  rfl

/-- The windows are those that the entry to INVASIVE leaves. -/
theorem State.setLevel_windows (h : 2 ≤ target ∧ s.sec.level < 2) (tk : Option Token) :
    (s.setLevel target tk).windows = s.enterInvasive.windows := by
  simp only [State.setLevel, if_pos h]
  generalize s.enterInvasive = u
  cases tk with
  | none => rfl
  | some _ => rfl

/-! ### Keys that are dropped (R607, R610) -/

/-- Window `i`, where there is one, has no key. -/
def State.KeylessAt (s : State) (i : Nat) : Prop := ∀ w, s.windows[i]? = some w → w.key = none

theorem State.zeroKey_keylessAt (s : State) (i : Nat) : (s.zeroKey i).KeylessAt i := by
  intro w hw
  unfold State.zeroKey at hw
  dsimp only at hw
  split at hw
  · next hkey => simpa [List.getD_eq_getElem?_getD, hw] using hkey
  · simp only [modAt, List.getElem?_modify_eq] at hw
    obtain ⟨x, -, rfl⟩ := Option.map_eq_some_iff.mp hw
    rfl

theorem State.KeylessAt.zeroKey {i : Nat} (h : s.KeylessAt i) (j : Nat) : (s.zeroKey j).KeylessAt i := by
  intro w hw
  unfold State.zeroKey at hw
  dsimp only at hw
  split at hw
  · exact h w hw
  · simp only [modAt, List.getElem?_modify] at hw
    obtain ⟨x, hx, rfl⟩ := Option.map_eq_some_iff.mp hw
    split
    · rfl
    · exact h x hx

/-- Keys that are dropped one after another are gone in the end. -/
theorem State.forAll_zeroKey_keylessAt {i : Nat} : ∀ {l : List Nat} {s : State}, i ∈ l ∨ s.KeylessAt i →
    (forAll l State.zeroKey s).KeylessAt i
  | [], _, h => h.resolve_left (List.not_mem_nil)
  | j :: l, s, h => by
    refine State.forAll_zeroKey_keylessAt (l := l) ?_
    obtain h | h := h
    · obtain rfl | h := List.mem_cons.mp h
      · exact .inr (s.zeroKey_keylessAt i)
      · exact .inl h
    · exact .inr (h.zeroKey j)

theorem State.enterInvasive_keylessAt {i : Nat} (h : i < 24) : s.enterInvasive.KeylessAt i :=
  State.forAll_zeroKey_keylessAt (.inl (List.mem_range.mpr h))

end Levels

/-- Settles O42: each request by its branch of `levelRequest`, the raise to INVASIVE by its token. -/
theorem debugLevelsAreGuarded : Obligations.DebugLevelsAreGuarded := by
  refine ⟨?same, ?lower, ?openLevel, ?observe, ?refused, ?accepted⟩
  case same =>
    intro s v hdeaf hv
    exact congrArg Host.Outcome.next ((debugLevelRequest_jtag hdeaf hv).trans State.levelRequest_same)
  case lower =>
    intro s v hdeaf hlt
    have hrun := (debugLevelRequest_jtag hdeaf rfl).trans (State.levelRequest_lower hlt)
    exact ⟨_, congrArg Host.Outcome.next hrun, rfl, rfl, State.setLevel_mrs (by omega)⟩
  case openLevel =>
    intro s v hdeaf hlt hv hlife
    have hrun := (debugLevelRequest_jtag hdeaf hv).trans (State.levelRequest_open (by rwa [hv] at hlt) hlife)
    exact ⟨_, congrArg Host.Outcome.next hrun, State.secRefuse_sec .., State.secRefuse_windows ..⟩
  case observe =>
    intro s v hdeaf hclosed hv hserves
    have hrun := (debugLevelRequest_host hdeaf hserves hv).trans (State.levelRequest_observe hclosed)
    exact ⟨_, congrArg Host.Outcome.next hrun, rfl⟩
  case refused =>
    intro s v hdeaf hlt hv hlife htoken
    obtain ⟨cause, kind, hcause, hrefused⟩ := State.withToken_refused htoken
    have hrun := ((debugLevelRequest_jtag hdeaf hv).trans (State.levelRequest_invasive hlt hlife)).trans hrefused
    refine ⟨_, congrArg Host.Outcome.next hrun, ?_, State.tokenRefused_windows .., ?_⟩
    · rw [State.tokenRefused_sec]
    · rwa [State.tokenRefused_sec]
  case accepted =>
    intro s v tk hdeaf hlt hv hlife htoken hcause
    have hrun := ((debugLevelRequest_jtag hdeaf hv).trans (State.levelRequest_invasive hlt hlife)).trans
      (State.withToken_accepted htoken hcause)
    refine ⟨_, congrArg Host.Outcome.next hrun, rfl, rfl, fun i hi w hw => ?_⟩
    rw [State.setLevel_windows ⟨le_rfl, hlt⟩] at hw
    exact State.enterInvasive_keylessAt hi w hw

end Sys2Proof.Machine
end

section
/-! SUPPORT. What the shared operations leave of the queue of commands: all of it (log entry 1). One lemma per operation; the
statement on every step follows. -/

namespace Sys2Proof.Machine

/-- The commands that wait are `rest`. -/
def State.QueueIs (rest : List Instr) (s : State) : Prop := s.pending = rest

namespace State.QueueIs
variable {rest : List Instr} {s t : State}

theorem of_sansLink (h : s.QueueIs rest) (ht : t.sansLink = s.sansLink) : t.QueueIs rest :=
  (congrArg State.pending ht :).trans h

theorem of_sansList (h : s.QueueIs rest) (ht : t.sansList = s.sansList) : t.QueueIs rest :=
  (congrArg State.pending ht :).trans h

theorem ite {c : Prop} [Decidable c] (hs : s.QueueIs rest) (ht : t.QueueIs rest) : (if c then s else t).QueueIs rest := by
  split
  · exact hs
  · exact ht

theorem forAll {α : Type} {g : State → α → State} {l : List α} (h : s.QueueIs rest)
    (hg : ∀ s a, s.QueueIs rest → (g s a).QueueIs rest) : (forAll l g s).QueueIs rest :=
  List.foldlRecOn l g h fun s hs a _ => hg s a hs

theorem foldl {α : Type} {g : State → α → State} {l : List α} (h : s.QueueIs rest)
    (hg : ∀ s a, s.QueueIs rest → (g s a).QueueIs rest) : (l.foldl g s).QueueIs rest :=
  List.foldlRecOn l g h fun s hs a _ => hg s a hs

/-! ### Outputs, pages, contexts, lists -/

theorem emit {o : Out} (h : s.QueueIs rest) : (s.emit o).QueueIs rest := h
theorem drew {n : Nat} (h : s.QueueIs rest) : (s.drew n).QueueIs rest := h
theorem modPage {f : Nat} {g : Page → Page} (h : s.QueueIs rest) : (s.modPage f g).QueueIs rest := h
theorem modSq {f n : Nat} {g : Sq → Sq} (h : s.QueueIs rest) : (s.modSq f n g).QueueIs rest := h
theorem modList {o : Nat} {g : RunningList → RunningList} (h : s.QueueIs rest) : (s.modList o g).QueueIs rest := h
theorem modPort {p : Nat} {g : HawPort → HawPort} (h : s.QueueIs rest) : (s.modPort p g).QueueIs rest := h
theorem setConn {c : Conn} (h : s.QueueIs rest) : (s.setConn c).QueueIs rest := h
theorem setUnit {u : UnitKey} {x : UnitState} (h : s.QueueIs rest) : (s.setUnit u x).QueueIs rest := h
theorem bucketAdd {u : UnitKey} {n : Nat} (h : s.QueueIs rest) : (s.bucketAdd u n).QueueIs rest := h
theorem bucketClear {u : UnitKey} (h : s.QueueIs rest) : (s.bucketClear u).QueueIs rest := h
theorem rowSet {a b c : Nat} (h : s.QueueIs rest) : (s.rowSet a b c).QueueIs rest := h
theorem freeSlots {p : Slot → Bool} (h : s.QueueIs rest) : (s.freeSlots p).QueueIs rest := h
theorem putSlot {n : Nat} {x : Slot} (h : s.QueueIs rest) : (s.putSlot n x).QueueIs rest := h
theorem addRemote {r : RemoteOp} (h : s.QueueIs rest) : (s.addRemote r).QueueIs rest := h
theorem dropRemote {q : Loc} (h : s.QueueIs rest) : (s.dropRemote q).QueueIs rest := h
theorem dropColl {k : CollKey} (h : s.QueueIs rest) : (s.dropColl k).QueueIs rest := h
theorem addVoids {o n : Nat} (h : s.QueueIs rest) : (s.addVoids o n).QueueIs rest := h.modList
theorem charge {p n : Nat} (h : s.QueueIs rest) : (s.charge p n).QueueIs rest := h
theorem wardenStop {p : Phase} {c a b d : Nat} {u : UnitKey} (h : s.QueueIs rest) : (s.wardenStop p c a b d u).QueueIs rest :=
  h
theorem endDesc {f n : Nat} {e : Ending} (h : s.QueueIs rest) : (s.endDesc f n e).QueueIs rest := h.modSq

theorem modCtx {k : Nat} {g : Ctx → Ctx} (h : s.QueueIs rest) : (s.modCtx k g).QueueIs rest := by
  unfold State.modCtx
  split
  · exact h
  · exact h

theorem msix {f n : Nat} (h : s.QueueIs rest) : (s.msix f n).QueueIs rest := by
  rw [State.msix_frame]
  exact h

theorem deviceEvent (h : s.QueueIs rest) : s.deviceEvent.QueueIs rest := h.msix

/-! ### Memories -/

theorem withDev {d : Dev} (h : s.QueueIs rest) : (s.withDev d).QueueIs rest := h
theorem wipeDev {a n : Nat} (h : s.QueueIs rest) : (s.wipeDev a n).QueueIs rest := h
theorem modBrick {b : Nat} {g : BrickS → BrickS} (h : s.QueueIs rest) : (s.modBrick b g).QueueIs rest := h
theorem storeBrick {b n a : Nat} {bs : List Byte} (h : s.QueueIs rest) : (s.storeBrick b n a bs).QueueIs rest := h

theorem storeDev {a : Nat} {bs : List Byte} (h : s.QueueIs rest) : (s.storeDev a bs).QueueIs rest := by
  unfold State.storeDev
  split
  · exact h
  · exact h

theorem store {w : Store} (h : s.QueueIs rest) : (s.store w).QueueIs rest := by
  unfold State.store
  split
  · exact h.storeDev
  · exact h.storeBrick

theorem stores {ws : List Store} (h : s.QueueIs rest) : (s.stores ws).QueueIs rest := h.foldl fun _ _ hs => hs.store

theorem chargeReads {p : Nat} {l : List (Nat × Nat × Nat)} (h : s.QueueIs rest) : (s.chargeReads p l).QueueIs rest := by
  unfold State.chargeReads
  split
  · exact h
  · exact h.charge

theorem commit {p : Nat} {ws : List Store} (h : s.QueueIs rest) : (s.commit p ws).QueueIs rest := by
  unfold State.commit
  dsimp only
  split
  · exact h.stores
  · exact h.stores.charge

theorem unpinAll {spl : Nat} {pins : List Nat} (h : s.QueueIs rest) : (s.unpinAll spl pins).QueueIs rest := by
  unfold State.unpinAll
  split
  · exact h
  · exact h.withDev

/-! ### Errors and frames to other chips -/

theorem raise {e : ErrEvt} (h : s.QueueIs rest) : (s.raise e).QueueIs rest := h.of_sansLink (s.raise_sansLink e)
theorem raise1 {code sev p : Nat} {u : UnitKey} (h : s.QueueIs rest) : (s.raise1 code sev u p).QueueIs rest := h.raise

theorem raiseW {u : UnitKey} {w p : Nat} {r : ErrRec} {c : ErrScope} (h : s.QueueIs rest) :
    (s.raiseW u w p r c).QueueIs rest := by
  rw [State.raiseW_frame]
  exact h

theorem xmit {p c l t psn job : Nat} {op d : List Byte} (h : s.QueueIs rest) : (s.xmit p c l t psn job op d).QueueIs rest :=
  h.of_sansLink (s.xmit_sansLink ..)

theorem sendCtrl {c l t job : Nat} {op d : List Byte} (h : s.QueueIs rest) : (s.sendCtrl c l t job op d).QueueIs rest :=
  h.of_sansLink (s.sendCtrl_sansLink ..)

theorem sendAborts {c : Coll} {code : Nat} (h : s.QueueIs rest) : (s.sendAborts c code).QueueIs rest :=
  h.of_sansLink (s.sendAborts_sansLink ..)

theorem sendSeq {c l t o tag job : Nat} {op d : List Byte} (h : s.QueueIs rest) :
    (s.sendSeq c l t o tag job op d).QueueIs rest := by
  unfold State.sendSeq
  dsimp only
  split
  · exact h
  · split
    · exact h.setConn
    · exact h.setConn.xmit

theorem sendAccess {t a o job n : Nat} {d : List Byte} (h : s.QueueIs rest) : (s.sendAccess t a o job n d).QueueIs rest :=
  sendSeq h

theorem sendStores {e : Env} {c : Cmd} {i : Instr} {ws : List Store} (h : s.QueueIs rest) :
    (s.sendStores e c i ws).QueueIs rest := by
  unfold State.sendStores
  dsimp only
  split
  · exact h.commit
  · have hsent : ∀ l : List (Nat × List Byte), (l.foldl (fun s p =>
        s.sendAccess fWrite p.1 e.l.owner (s.job e.c.part) 0 p.2) (s.commit e.c.part ws)).QueueIs rest :=
      fun _ => h.commit.foldl fun _ _ hs => hs.sendAccess
    split
    · exact (hsent _).dropRemote.addRemote
    · exact (hsent _).addRemote

/-! ### Ends of lists and descriptors -/

theorem endList {o : Nat} {e : Ending} (h : s.QueueIs rest) : (s.endList o e).QueueIs rest :=
  h.of_sansList (s.endList_sansList o e)

theorem faultList {o : Nat} {r : ErrRec} (h : s.QueueIs rest) : (s.faultList o r).QueueIs rest :=
  h.of_sansList (s.faultList_sansList o r)

theorem faultCmd {e : Env} {c : Cmd} {code step a l : Nat} {rs : List Nat} (h : s.QueueIs rest) :
    (s.faultCmd e c code step rs a l).QueueIs rest := h.of_sansList (s.faultCmd_sansList ..)

theorem missHeld {f p q i : Nat} (h : s.QueueIs rest) : (s.missHeld f p q i).QueueIs rest := ite h.modSq (ite h.modSq h)

theorem abortRing {f q : Nat} (h : s.QueueIs rest) : (s.abortRing f q).QueueIs rest := modSq (ite h.endList h)

theorem abortChain {p i : Nat} (h : s.QueueIs rest) : (s.abortChain p i).QueueIs rest := h

theorem missSlot {n : Nat} (h : s.QueueIs rest) : (s.missSlot n).QueueIs rest := by
  unfold State.missSlot
  split
  · exact h
  · next x hx =>
    extract_lets ls others r rings kept bound marked acted
    have hbound : bound.QueueIs rest := h
    have hmarked : marked.QueueIs rest := by
      dsimp only [marked]
      split
      · exact hbound.abortChain
      · exact hbound
    have hacted : acted.QueueIs rest :=
      ite (hbound.forAll fun _ _ hs => hs.modSq) (ite (hmarked.forAll fun _ _ hs => hs.abortRing) hbound)
    clear_value acted
    cases acted.itemHeld x with
    | none => exact hacted.raise
    | some p => exact hacted.missHeld.raise

theorem deadlineTests : ∀ (n : Nat) {s : State}, s.QueueIs rest → (State.deadlineTests n s).QueueIs rest
  | 0, _, h => h
  | n + 1, s, h => by
    unfold State.deadlineTests
    split
    · exact h
    · exact deadlineTests n h.missSlot

theorem endSlots {p : Slot → Bool} (h : s.QueueIs rest) : (s.endSlots p).QueueIs rest := by
  unfold State.endSlots
  refine freeSlots ?_
  split
  · exact h.missSlot
  · exact h

/-! ### The end of a command (R162 to R182, R188) -/

theorem metEntries {o : Nat} (h : s.QueueIs rest) : (s.metEntries o).QueueIs rest := by
  unfold State.metEntries
  split
  · exact h
  · exact h.endSlots

theorem tryComplete {o : Nat} (h : s.QueueIs rest) : (s.tryComplete o).QueueIs rest := by
  unfold State.tryComplete
  split
  · exact h
  · split
    · exact h.endSlots.endList
    · exact h

theorem endStream {e : Env} {b : Bool} (h : s.QueueIs rest) : (s.endStream e b).QueueIs rest :=
  ite h.modCtx.tryComplete h.modCtx

theorem passed {e : Env} {c : Cmd} {b : Bool} (h : s.QueueIs rest) : (s.passed e c b).QueueIs rest := by
  unfold State.passed
  refine endStream ?_
  split
  · exact ite h.modList.metEntries h
  · exact h

theorem signals {l : RunningList} {o : Nat} {a b : Sig} (h : s.QueueIs rest) : (s.signals l o a b).QueueIs rest :=
  h.modCtx.modCtx

theorem finish1 {e : Env} {c : Cmd} {n : Nat} {rs : List Nat} {b : Bool} (h : s.QueueIs rest) :
    (s.finish1 e c n rs b).QueueIs rest := ite h.faultCmd h.signals.modList.passed

theorem wakeFences {q : Loc} : ∀ (n : Nat) {s : State}, s.QueueIs rest → (State.wakeFences q n s).QueueIs rest
  | 0, _, h => h
  | n + 1, s, h => by
    unfold State.wakeFences
    split
    · exact h
    · dsimp only
      split
      · exact h
      · exact wakeFences n h.finish1

theorem finish {e : Env} {c : Cmd} {n : Nat} {rs : List Nat} {b : Bool} (h : s.QueueIs rest) :
    (s.finish e c n rs b).QueueIs rest := wakeFences _ h.finish1

end State.QueueIs

end Sys2Proof.Machine
end

section
/-! SUPPORT. The engine commands leave the queue as it was, where they end, fault or are held (R184, R201). -/

namespace Sys2Proof.Machine

/-- The commands that wait after C5b and C6 are `rest`. -/
def Ran.QueueIs (rest : List Instr) : Ran → Prop
  | .done s => s.QueueIs rest
  | .fault s _ _ _ _ => s.QueueIs rest
  | .held s _ => s.QueueIs rest

variable {rest : List Instr} {s : State} {e : Env} {c : Cmd} {i : Instr}

/-! ### The passage of a command -/

theorem Ran.QueueIs.settle {r : Ran} {rs : List Nat} {b : Bool} (h : r.QueueIs rest) : (r.settle e c rs b).QueueIs rest := by
  cases r with
  | done s => exact State.QueueIs.finish h
  | fault s code step addr last => exact State.QueueIs.faultCmd h
  | held s h' => exact State.QueueIs.modCtx h

theorem Ran.QueueIs.checked {code : Option Nat} {k : Unit → Ran} (h : s.QueueIs rest) (hk : (k ()).QueueIs rest) :
    (Ran.checked s code k).QueueIs rest := by
  cases code with
  | none => exact hk
  | some n => exact h

theorem Ran.QueueIs.ite {p : Prop} [Decidable p] {r r' : Ran} (h : r.QueueIs rest) (h' : r'.QueueIs rest) :
    (if p then r else r').QueueIs rest := by
  split
  · exact h
  · exact h'

theorem State.QueueIs.command {fits : Bool} {eng : Nat → Bool} {own : Env → List (Nat × Bool)} {rs : List Nat}
    {pass : Ctx → Ctx} {body : State → Env → Ran} (h : s.QueueIs rest)
    (hb : ∀ s e, s.QueueIs rest → (body s e).QueueIs rest) : (s.command c fits eng own rs pass body).QueueIs rest := by
  unfold State.command
  split
  · exact h
  · refine h.ite (h.modCtx.endStream.ite ?_)
    split
    · exact h.faultCmd
    · exact h.modCtx.ite (h.modCtx.modList.modCtx.finish.ite (hb _ _ h.modCtx.modList).settle)

theorem State.QueueIs.resume {q : Loc} {k : State → Env → Cmd → HeldOp → Option Ran} (h : s.QueueIs rest)
    (hk : ∀ e c x r, k s e c x = some r → r.QueueIs rest) : (s.resume q k).QueueIs rest := by
  unfold State.resume
  split
  · exact h
  · split
    · split
      · next hr => exact (hk _ _ _ _ hr).settle
      · exact h
    · exact h

/-! ### Reads and stores, here and on another chip (R181, R480, R483) -/

theorem withReads_queue {reads : List (Nat × Nat × Nat)} {k : State → Site → Ran} (h : s.QueueIs rest)
    (hk : ∀ s x, s.QueueIs rest → (k s x).QueueIs rest) : (withReads s e c i reads k).QueueIs rest := by
  unfold withReads
  split
  · exact h
  · extract_lets far own s1
    have h1 : s1.QueueIs rest := h.ite h.charge
    refine Ran.QueueIs.ite (hk _ _ h1) ?_
    split
    · exact hk _ _ h1.dropRemote
    · exact Ran.QueueIs.ite h (h.foldl fun _ _ hs => hs.sendAccess).addRemote

theorem withStores_queue {ws : List Store} (h : s.QueueIs rest) : (withStores s e c i ws).QueueIs rest := by
  unfold withStores
  split
  · exact h
  · exact Ran.QueueIs.ite h (Ran.QueueIs.ite h.sendStores h.sendStores)

theorem faultPinned_queue {spl code addr : Nat} {pins : List Nat} (h : s.QueueIs rest) :
    (faultPinned s spl pins code addr).QueueIs rest := State.QueueIs.unpinAll h

theorem storePinned_queue {spl : Nat} {pins : List Nat} {ws : List Store} (h : s.QueueIs rest) :
    (storePinned s e c i spl pins ws).QueueIs rest := by
  unfold storePinned
  split
  · exact faultPinned_queue h
  · split
    · exact faultPinned_queue h
    · exact Ran.QueueIs.ite h.sendStores h.sendStores.unpinAll

/-! ### COPY and the window commands (R194 to R197, R334 to R340) -/

section Bodies
variable {a y : Opnd} {g b st : Option Opnd}

theorem copyTile_queue {o : CopyF} (h : s.QueueIs rest) : (copyTile c o s e a y).QueueIs rest := by
  unfold copyTile
  refine withReads_queue h fun _ _ hs => ?_
  exact withStores_queue hs.modCtx

theorem copyRegs_queue {o : CopyF} (h : s.QueueIs rest) : (copyRegs c o s e a).QueueIs rest := by
  unfold copyRegs
  refine withReads_queue h fun _ _ hs => ?_
  exact hs.modCtx

theorem copyBody_queue {o : CopyF} (h : s.QueueIs rest) : (copyBody c o s e).QueueIs rest := by
  unfold copyBody
  refine Ran.QueueIs.checked h ?_
  split
  · exact copyTile_queue h
  · exact copyRegs_queue h
  · exact h

theorem poolRun_queue {o : PoolF} (h : s.QueueIs rest) : (poolRun c o s e a y).QueueIs rest := by
  unfold poolRun
  refine withReads_queue h fun _ _ hs => ?_
  exact withStores_queue hs.modCtx

theorem poolBody_queue {o : PoolF} (h : s.QueueIs rest) : (poolBody c o s e).QueueIs rest := by
  unfold poolBody
  dsimp only
  split
  · exact Ran.QueueIs.checked h (poolRun_queue h)
  · exact Ran.QueueIs.checked h h

theorem resampRun_queue {o : ResampF} (h : s.QueueIs rest) : (resampRun c o s e a y).QueueIs rest := by
  unfold resampRun
  refine withReads_queue h fun _ _ hs => ?_
  exact withStores_queue hs.modCtx

theorem resampBody_queue {o : ResampF} (h : s.QueueIs rest) : (resampBody c o s e).QueueIs rest := by
  unfold resampBody
  dsimp only
  split
  · exact Ran.QueueIs.checked h (resampRun_queue h)
  · exact Ran.QueueIs.checked h h

/-! ### The vector commands (R280 to R292, R348 to R358, R502 to R511) -/

theorem actRun_queue {o : ActF} (h : s.QueueIs rest) : (actRun c o s e a y).QueueIs rest := by
  unfold actRun
  refine withReads_queue h fun _ _ hs => ?_
  exact withStores_queue hs.modCtx

theorem actBody_queue {o : ActF} (h : s.QueueIs rest) : (actBody c o s e).QueueIs rest := by
  unfold actBody
  refine Ran.QueueIs.checked h ?_
  split
  · exact actRun_queue h
  · exact h

theorem normRun_queue {o : NormF} (h : s.QueueIs rest) : (normRun c o s e a y g b st).QueueIs rest := by
  unfold normRun
  refine withReads_queue h fun _ _ hs => ?_
  exact withStores_queue hs.modCtx

theorem normBody_queue {o : NormF} (h : s.QueueIs rest) : (normBody c o s e).QueueIs rest := by
  unfold normBody
  refine Ran.QueueIs.checked h ?_
  split
  · exact normRun_queue h
  · exact h

theorem softRun_queue {o : SoftF} {k : Option Mask} (h : s.QueueIs rest) : (softRun c o s e a y k st).QueueIs rest := by
  unfold softRun
  refine withReads_queue h fun _ _ hs => ?_
  exact withStores_queue hs.modCtx.addVoids

theorem softBody_queue {o : SoftF} (h : s.QueueIs rest) : (softBody c o s e).QueueIs rest := by
  unfold softBody
  dsimp only
  split
  · exact Ran.QueueIs.checked h (softRun_queue h)
  · exact Ran.QueueIs.checked h h

theorem rngBody_queue {o : RngF} (h : s.QueueIs rest) : (rngBody c o s e).QueueIs rest := by
  unfold rngBody
  refine Ran.QueueIs.checked h ?_
  split
  · exact h
  · exact withStores_queue h.modCtx

theorem scaleReserved_queue (h : s.QueueIs rest) : (scaleReserved s).QueueIs rest := Ran.QueueIs.checked h h

theorem reduceBody_queue {o : ScaleF} {f : List Nat → Nat} {op : Nat → Nat → Nat} (h : s.QueueIs rest) :
    (reduceBody i c o f op s e).QueueIs rest := by
  refine Ran.QueueIs.ite (scaleReserved_queue h) ?_
  dsimp only
  split
  · exact Ran.QueueIs.checked h (withReads_queue h fun _ _ hs => withStores_queue hs)
  · exact Ran.QueueIs.checked h h

theorem pushBody_queue {o : ScaleF} (h : s.QueueIs rest) : (pushBody c o s e).QueueIs rest := by
  refine Ran.QueueIs.ite (scaleReserved_queue h) ?_
  dsimp only
  split
  · exact Ran.QueueIs.checked h (withReads_queue h fun _ _ hs => Ran.QueueIs.ite hs (withStores_queue hs))
  · exact Ran.QueueIs.checked h h

theorem clipBody_queue {o : ScaleF} (h : s.QueueIs rest) : (clipBody c o s e).QueueIs rest := by
  refine Ran.QueueIs.ite (scaleReserved_queue h) ?_
  dsimp only
  split
  · exact Ran.QueueIs.checked h (withReads_queue h fun _ _ hs => withStores_queue hs)
  · exact Ran.QueueIs.checked h h

theorem productBody_queue {o : ScaleF} (h : s.QueueIs rest) : (productBody c o s e).QueueIs rest := by
  refine Ran.QueueIs.ite (scaleReserved_queue h) ?_
  dsimp only
  split
  · exact Ran.QueueIs.checked h (withReads_queue h fun _ _ hs => withStores_queue hs)
  · exact Ran.QueueIs.checked h h

theorem voteBody_queue {o : VoteF} (h : s.QueueIs rest) : (voteBody c o s e).QueueIs rest := by
  unfold voteBody
  dsimp only
  split
  · exact Ran.QueueIs.checked h (withReads_queue h fun _ _ hs => hs.modCtx)
  · exact Ran.QueueIs.checked h h

end Bodies

/-! ### The matrix commands (R235 to R275) -/

theorem State.QueueIs.blockDone {o : BlockOut} (h : s.QueueIs rest) : (s.blockDone e c i o).QueueIs rest := h.sendStores.modList

theorem blocks_queue {q : Nat} {fail : Option (Nat × Nat)} : ∀ (os : List BlockOut) (last : Nat) {s : State},
    s.QueueIs rest → (s.blocks e c i q fail os last).QueueIs rest
  | [], _, _, h => by
    unfold State.blocks
    split
    · exact h
    · exact Ran.QueueIs.ite h h
  | o :: os, _, s, h => by
    unfold State.blocks
    dsimp only
    split
    · exact blocks_queue os _ h.blockDone
    · split
      · exact h.blockDone
      · exact Ran.QueueIs.ite (blocks_queue os _ h.blockDone.modCtx) h.blockDone

theorem MatJob.run_queue {j : MatJob} (h : s.QueueIs rest) : (j.run s e).QueueIs rest := by
  unfold MatJob.run
  dsimp only
  split
  · exact h
  · exact Ran.QueueIs.ite h (blocks_queue _ _ (State.QueueIs.ite h.modCtx h.modCtx.charge))

theorem matBody_queue {kind : Nat} {o : MatF} (h : s.QueueIs rest) : (matBody i c kind o s e).QueueIs rest := by
  unfold matBody
  dsimp only
  split
  · exact Ran.QueueIs.checked h (MatJob.run_queue h)
  · exact Ran.QueueIs.checked h h

theorem convBody_queue {o : ConvF} (h : s.QueueIs rest) : (convBody c o s e).QueueIs rest := by
  unfold convBody
  dsimp only
  split
  · exact Ran.QueueIs.checked h (MatJob.run_queue h)
  · exact Ran.QueueIs.checked h h

/-! ### Attention and the page movers (R293 to R317) -/

theorem attnRun_queue {o : AttnF} {x : Site} {p : AttnOps} {h' : Option SplH} {spl : Nat} {pages : List Nat}
    (h : s.QueueIs rest) : (attnRun c o s e x p h' spl pages).QueueIs rest := by
  unfold attnRun
  dsimp only
  split
  · exact faultPinned_queue h
  · exact storePinned_queue h.modCtx.addVoids.chargeReads

theorem pinFrom_queue {h' : SplH} {par seq n k : Nat} {pins : List Nat} {held : Nat → List Nat → HeldOp}
    {run : State → List Nat → Ran} (h : s.QueueIs rest) (hrun : ∀ s ps, s.QueueIs rest → (run s ps).QueueIs rest) :
    (pinFrom s h' par seq n k pins held run).QueueIs rest := by
  unfold pinFrom pinned
  split
  · exact hrun _ _ (State.QueueIs.withDev h)
  · exact State.QueueIs.withDev h
  · exact State.QueueIs.withDev h

theorem attnBody_queue {o : AttnF} (h : s.QueueIs rest) : (attnBody c o s e).QueueIs rest := by
  unfold attnBody
  dsimp only
  split
  · exact Ran.QueueIs.checked h h
  · refine Ran.QueueIs.checked h (withReads_queue h fun s x hs => ?_)
    split
    · exact attnRun_queue hs
    · split
      · exact hs
      · exact pinFrom_queue hs fun _ _ ht => attnRun_queue ht

theorem gatherRun_queue {o : PagesF} {h' : SplH} {pages : List Nat} (h : s.QueueIs rest) :
    (gatherRun c o s e h' pages).QueueIs rest := by
  unfold gatherRun
  dsimp only
  split
  · exact faultPinned_queue h
  · exact storePinned_queue h.chargeReads

theorem gatherBody_queue {o : PagesF} (h : s.QueueIs rest) : (gatherBody c o s e).QueueIs rest := by
  unfold gatherBody
  dsimp only
  split
  · exact Ran.QueueIs.checked h h
  · refine Ran.QueueIs.checked h ?_
    split
    · exact h
    · exact pinFrom_queue h fun _ _ ht => gatherRun_queue ht

theorem writeSlots_queue {x : Site} {o : PagesF} {h' : SplH} {kt vt : Option Opnd} {seq : Nat} :
    ∀ (ks : List Nat) {s : State}, s.QueueIs rest → (writeSlots x e o h' kt vt seq ks s).QueueIs rest
  | [], _, h => h
  | k :: ks, s, h => by
    unfold writeSlots
    split
    · exact h
    · dsimp only
      split
      · exact h
      · exact writeSlots_queue ks (State.QueueIs.commit h)

theorem writeBody_queue {o : PagesF} (h : s.QueueIs rest) : (writeBody c o s e).QueueIs rest := by
  unfold writeBody
  dsimp only
  split
  · exact Ran.QueueIs.checked h h
  · refine Ran.QueueIs.checked h (withReads_queue h fun s x hs => ?_)
    split
    · exact hs
    · exact writeSlots_queue _ hs

theorem scatterReserved_queue {o : PagesF} (h : s.QueueIs rest) : (scatterReserved o s e).QueueIs rest := by
  unfold scatterReserved
  exact Ran.QueueIs.checked h h

theorem forkFrom_queue {o : PagesF} {h' : SplH} {k : Nat} (h : s.QueueIs rest) : (forkFrom o s e h' k).QueueIs rest := by
  unfold forkFrom
  dsimp only
  split
  · exact h
  · exact h
  · exact h

theorem freeRun_queue {o : PagesF} {h' : SplH} (h : s.QueueIs rest) : (freeRun o e s h').QueueIs rest := by
  unfold freeRun
  split
  · exact h
  · exact h
  · exact h

theorem slotsBody_queue {fork : Bool} {o : PagesF} {run : State → SplH → Ran} (h : s.QueueIs rest)
    (hrun : ∀ h', (run s h').QueueIs rest) : (slotsBody fork o s e run).QueueIs rest := by
  unfold slotsBody
  dsimp only
  split
  · exact Ran.QueueIs.checked h h
  · refine Ran.QueueIs.checked h ?_
    split
    · exact h
    · exact hrun _

/-! ### Every engine command -/

theorem engineBody_queue (h : s.QueueIs rest) : (engineBody i s e).QueueIs rest := by
  cases i
  case copy => exact copyBody_queue h
  case predSet => exact h.modCtx
  case fence => exact Ran.QueueIs.ite h h
  case matmul => exact matBody_queue h
  case matmulAcc => exact matBody_queue h
  case matmulGated => exact matBody_queue h
  case act => exact actBody_queue h
  case normRow => exact normBody_queue h
  case softmaxRow => exact softBody_queue h
  case attnBlock => exact attnBody_queue h
  case gatherPages => exact gatherBody_queue h
  case scatterWrite c o =>
    change (if formReserved o then scatterReserved o else writeBody c o : State → Env → Ran) s e |>.QueueIs rest
    split
    · exact scatterReserved_queue h
    · exact writeBody_queue h
  case scatterFork => exact Ran.QueueIs.ite (scatterReserved_queue h) (slotsBody_queue h fun _ => forkFrom_queue h)
  case scatterFree => exact Ran.QueueIs.ite (scatterReserved_queue h) (slotsBody_queue h fun _ => freeRun_queue h)
  case conv2d => exact convBody_queue h
  case pool2d => exact poolBody_queue h
  case resample => exact resampBody_queue h
  case rngFill => exact rngBody_queue h
  case amax => exact reduceBody_queue h
  case sumsq => exact reduceBody_queue h
  case push => exact pushBody_queue h
  case clip => exact clipBody_queue h
  case product => exact productBody_queue h
  case nonfiniteVote => exact voteBody_queue h
  all_goals exact h

end Sys2Proof.Machine
end

section
/-! SUPPORT. What collectives, waking and the Hawser links leave of the queue (R463 to R498, R541, R543). -/

namespace Sys2Proof.Machine

/-- The answer is a next state in which the commands that wait are `rest`. -/
def Res.QueueIs (rest : List Instr) (r : Res) : Prop := ∃ t, r = .next t ∧ t.QueueIs rest

theorem Res.QueueIs.next {rest : List Instr} {s : State} (h : s.QueueIs rest) : Res.QueueIs rest (.next s) := ⟨s, rfl, h⟩

theorem Res.QueueIs.ite {rest : List Instr} {c : Prop} [Decidable c] {r r' : Res} (h : Res.QueueIs rest r)
    (h' : Res.QueueIs rest r') : Res.QueueIs rest (if c then r else r') := by
  split
  · exact h
  · exact h'

theorem engineCmd_queue {rest : List Instr} {s : State} {i : Instr} {x : Cmd × Bool × Nat × List Nat}
    (hx : engineCmd i = some x) (h : s.QueueIs rest) : Res.QueueIs rest (exec i s) := by
  rw [exec_engineCmd hx]
  exact .next (h.command fun _ _ hs => engineBody_queue hs)

namespace State.QueueIs
variable {rest : List Instr} {s t : State} {a b c d i j k l n p q : Nat} {up on : Bool} {e : Env} {cmd : Cmd}
  {u : UnitKey} {r : ErrRec} {key : CollKey} {h' : HawFrame} {bs : List Byte} {loc : Loc}

/-! ### Collectives (R486 to R495) -/

theorem modColl {f : Coll → Coll} (h : s.QueueIs rest) : (s.modColl key f).QueueIs rest := h

theorem collJoin {cs : List Nat} {x : CollMember} (h : s.QueueIs rest) : (s.collJoin key cs on x).QueueIs rest := by
  unfold State.collJoin
  split
  · exact h.modColl
  · exact h

theorem collBody {x : CollKind} {o : CollF} (h : s.QueueIs rest) : (collBody x cmd o s e).QueueIs rest := by
  unfold Machine.collBody
  refine Ran.QueueIs.checked h (Ran.QueueIs.ite ?_ ?_)
  · exact h.forAll fun _ _ hs => hs.sendCtrl
  · exact h.collJoin.forAll fun _ _ hs => hs.sendCtrl

theorem collFault {x : Coll} (h : s.QueueIs rest) : (s.collFault x n).QueueIs rest := by
  have hclosed : ((s.sendAborts x n).dropColl x.key).QueueIs rest := h.sendAborts.dropColl
  unfold State.collFault
  dsimp only
  split
  · exact hclosed
  · refine forAll ?_ fun _ _ hs => hs.raise
    split
    · exact hclosed.faultCmd
    · exact hclosed

theorem sendNodes {x : Coll} {ns : List CollNode} (h : s.QueueIs rest) : (s.sendNodes x a b ns).QueueIs rest :=
  h.forAll fun _ _ hs => hs.forAll fun _ _ ht => ht.sendSeq

theorem giveOne (h : s.QueueIs rest) : (s.giveOne key i).QueueIs rest := by
  unfold State.giveOne
  split
  · exact h
  split
  · exact h
  split
  · exact h
  split
  · exact h
  refine ite h ?_
  dsimp only
  split
  · exact (h.forAll fun _ _ hs => hs.sendCtrl).modColl
  · split
    · exact h.faultCmd
    · exact h.chargeReads.sendNodes.modColl

theorem finishColl {x : CollMember} {rows : List (List Nat)} (h : s.QueueIs rest) : (s.finishColl x rows on).QueueIs rest := by
  unfold State.finishColl
  split
  · exact h
  · split
    · exact h
    · split
      · exact h.modCtx.finish
      · dsimp only
        split
        · exact h.modCtx.faultCmd
        · exact h.modCtx.commit.finish

theorem finishAll {x : Coll} {rows : List (List (List Nat))} (h : s.QueueIs rest) : (s.finishAll x rows on).QueueIs rest :=
  h.dropColl.forAll fun _ _ hs => hs.finishColl

theorem pump (h : s.QueueIs rest) : (s.pump key).QueueIs rest := by
  unfold State.pump
  split
  · exact h
  · refine ite h (ite h.collFault ?_)
    have hgiven : ∀ l : List Nat, (Machine.forAll l (fun s i => s.giveOne key i)
        (s.modColl key fun c => { c with agreed := true })).QueueIs rest :=
      fun _ => h.modColl.forAll fun _ _ hs => hs.giveOne
    dsimp only
    split
    · exact hgiven _
    · refine ite ?_ (hgiven _)
      split
      · exact ite (hgiven _).finishAll (hgiven _)
      · exact (hgiven _).finishAll
      · exact hgiven _

theorem takeBlocks (h : s.QueueIs rest) : (s.takeBlocks loc).QueueIs rest := by
  unfold State.takeBlocks
  split
  · split
    · exact ite h.faultCmd (ite h.modCtx h.modCtx.modList)
    · exact h
  · exact h

theorem collGo (h : s.QueueIs rest) : (s.collGo loc).QueueIs rest := by
  unfold State.collGo
  dsimp only
  split
  · exact h.takeBlocks.pump
  · exact h.takeBlocks

theorem collCommand {x : CollKind} {o : CollF} (h : s.QueueIs rest) : (collCommand x cmd o s).QueueIs rest :=
  (h.command fun _ _ hs => hs.collBody).collGo

/-! ### Waking (R541, R543) -/

theorem setWdn {x : WdnS} (h : s.QueueIs rest) : State.QueueIs rest { s with wdn := x } := h

theorem setPwr {x : PwrSt} (h : s.QueueIs rest) : (s.setPwr x).QueueIs rest := h

theorem leaveDoze (h : s.QueueIs rest) : s.leaveDoze.QueueIs rest := h

theorem wakeUp (h : s.QueueIs rest) : s.wakeUp.QueueIs rest := by
  unfold State.wakeUp
  split
  · exact ite h h
  · exact h.leaveDoze
  · exact h

/-! ### Errors of units (R557, R588) -/

theorem readmitFails (h : s.QueueIs rest) : (s.readmitFails u).QueueIs rest := by
  have hout : ∀ x, State.QueueIs rest { s.setUnit u .retired with repair := x } := fun _ => h
  exact raise1 (ite (hout _).modPort (hout _))

theorem unitErr (h : s.QueueIs rest) : (s.unitErr u n p r).QueueIs rest := by
  unfold State.unitErr
  dsimp only
  split
  · exact ite h.raiseW.readmitFails h.raiseW
  · exact h.raiseW

theorem portErr (h : s.QueueIs rest) : (s.portErr a b c d i j k l).QueueIs rest := h.unitErr

/-! ### Commands that go on after remote accesses (R181, R483) -/

theorem instrBody {x : Instr} (h : s.QueueIs rest) : (instrBody x s e).QueueIs rest := by
  unfold Machine.instrBody
  split
  · exact copyBody_queue h
  · exact matBody_queue h
  · exact matBody_queue h
  · exact matBody_queue h
  · exact actBody_queue h
  · exact normBody_queue h
  · exact softBody_queue h
  · exact attnBody_queue h
  · exact gatherBody_queue h
  · exact writeBody_queue h
  · exact convBody_queue h
  · exact poolBody_queue h
  · exact resampBody_queue h
  · exact rngBody_queue h
  · exact reduceBody_queue h
  · exact reduceBody_queue h
  · exact pushBody_queue h
  · exact clipBody_queue h
  · exact productBody_queue h
  · exact voteBody_queue h
  · exact h

theorem remoteDone {x : RemoteOp} (h : s.QueueIs rest) : (s.remoteDone x).QueueIs rest := by
  unfold State.remoteDone
  refine ite (h.dropRemote.resume fun _ _ y r hr => ?_) (h.resume fun _ _ y r hr => ?_)
  · split at hr
    · cases hr
      exact h.dropRemote.unpinAll
    · cases hr
  · split at hr
    · cases hr
      exact h.instrBody
    · cases hr

theorem answer (h : s.QueueIs rest) : (s.answer n bs).1.QueueIs rest := by
  unfold State.answer
  split
  · exact h
  · exact h

theorem answered (h : s.QueueIs rest) : (s.answered n bs).QueueIs rest := by
  have ha := h.answer (n := n) (bs := bs)
  unfold State.answered
  split
  · next heq =>
    rw [heq] at ha
    exact ha.remoteDone
  · next heq =>
    rw [heq] at ha
    exact ha

theorem remoteFault (h : s.QueueIs rest) : (s.remoteFault n k).QueueIs rest := by
  unfold State.remoteFault
  split
  · exact h
  · split
    · exact h.faultCmd
    · exact h

/-! ### Connections and planes (R475 to R477, R492, R496) -/

theorem xmit1 {op : List Byte} (h : s.QueueIs rest) : (s.xmit1 on a b c d i j op bs).QueueIs rest := by
  have hadv : s.advanceTxc.QueueIs rest := h.of_sansLink s.advanceTxc_sansLink
  unfold State.xmit1
  dsimp only
  split
  · exact ite h h.modPort.emit
  · exact ite hadv hadv.modPort.emit

theorem ackUpTo (h : s.QueueIs rest) : (s.ackUpTo a b c).QueueIs rest := by
  unfold State.ackUpTo
  dsimp only
  split
  · exact h
  · exact h.setConn.modPort.forAll fun _ _ hs => hs.answered

theorem resend (h : s.QueueIs rest) : (s.resend a b c).QueueIs rest := by
  unfold State.resend
  dsimp only
  split
  · exact h
  · exact ite h.setConn (h.setConn.forAll fun _ _ hs => hs.xmit1)

theorem sendAck (h : s.QueueIs rest) : (s.sendAck a b).QueueIs rest := h.setConn.sendCtrl
theorem refuse (h : s.QueueIs rest) : (s.refuse h' a b).QueueIs rest := h.sendCtrl
theorem tellUp (h : s.QueueIs rest) : (s.tellUp p).QueueIs rest := h.forAll fun _ _ hs => hs.xmit
theorem tellDown (h : s.QueueIs rest) : (s.tellDown p).QueueIs rest := h.forAll fun _ _ hs => hs.forAll fun _ _ ht => ht.xmit
theorem cutColls (h : s.QueueIs rest) : s.cutColls.QueueIs rest := h.forAll fun _ _ hs => hs.collFault

theorem portOut {x : PortSt} (h : s.QueueIs rest) : (s.portOut p x on).QueueIs rest :=
  ite h.modPort (h.modPort.tellDown.forAll fun _ _ hs => hs.resend).cutColls

theorem bound (h : s.QueueIs rest) : (s.bound p).QueueIs rest := by
  unfold State.bound
  split
  · refine ite ?_ h.modPort.tellUp
    refine forAll ?_ fun _ _ hs => hs.xmit
    exact h
  · exact h.modPort.tellUp

theorem unbound (h : s.QueueIs rest) : (s.unbound p).QueueIs rest := ite h.readmitFails (ite h h.modPort.raise)

theorem startPort (h : s.QueueIs rest) : (s.startPort p).QueueIs rest := ite h.modPort h

/-! ### Frames that arrive (R474 to R485) -/

theorem receive {g : State → State} (h : s.QueueIs rest) (hg : ∀ s, s.QueueIs rest → (g s).QueueIs rest) :
    (s.receive h' g).QueueIs rest := ite h (ite h.modPort.portErr (hg _ h.ackUpTo))

theorem inOrder {g : State → State} (h : s.QueueIs rest) (hg : ∀ s, s.QueueIs rest → (g s).QueueIs rest) :
    (s.inOrder h' g).QueueIs rest := ite (ite (hg _ h.setConn).sendAck (hg _ h.setConn)) h.sendCtrl

theorem check2011 (h : s.QueueIs rest) : (s.check2011 a n).QueueIs rest := ite h.raise1 h

theorem serveWrite (h : s.QueueIs rest) : (serveWrite h' s).QueueIs rest := by
  unfold Machine.serveWrite
  dsimp only
  split
  · exact h.refuse
  · exact ite h.refuse.check2011 (ite h.storeDev h.storeDev.charge)

theorem serveRead (h : s.QueueIs rest) : (serveRead h' s).QueueIs rest := by
  unfold Machine.serveRead
  dsimp only
  split
  · exact h.refuse
  · exact ite h.refuse.check2011 (ite h.refuse (sendSeq (ite h h.charge)))

theorem serveCollData (h : s.QueueIs rest) : (serveCollData h' s).QueueIs rest := by
  unfold Machine.serveCollData
  dsimp only
  split
  · exact h
  · exact h.modColl.pump

theorem serveCollCtrl (h : s.QueueIs rest) : (serveCollCtrl h' s).QueueIs rest := by
  unfold Machine.serveCollCtrl
  dsimp only
  refine ite (ite h h.collJoin.pump) (ite ?_ (ite h.modColl.pump h))
  split
  · exact h.collFault
  · exact h

theorem replay (h : s.QueueIs rest) : (s.replay p).QueueIs rest := ite h (ite h.portOut.portErr h.modPort)

theorem serveNak (h : s.QueueIs rest) : (serveNak h' s).QueueIs rest :=
  ite (ite h.ackUpTo.resend h.ackUpTo) (ite h.remoteFault (ite h.replay h))

theorem serveProbe (h : s.QueueIs rest) : (serveProbe h' s).QueueIs rest := ite h.xmit h.modPort

theorem servePortState (h : s.QueueIs rest) : (servePortState h' s).QueueIs rest := by
  have hplanes : ∀ x, State.QueueIs rest { s with haw := { s.haw with planes := x } } := fun _ => h
  exact ite (hplanes _) (cutColls ((hplanes _).forAll fun _ _ hs => hs.resend))

/-! ### Pauses and timers (R471, R475 to R477) -/

theorem unpause (h : s.QueueIs rest) : (s.unpause p k).QueueIs rest := by
  have hctrl : ∀ l : List TxHeld, (Machine.forAll l (fun s f => s.xmit p f.chip f.lane f.type 0 f.job f.op f.data)
      (s.modPort p fun q => { q with held := [] })).QueueIs rest := fun _ => h.modPort.forAll fun _ _ hs => hs.xmit
  unfold State.unpause
  dsimp only
  refine ite (forAll (ite (hctrl _) h) fun _ _ hs => ?_) (ite (hctrl _) h)
  exact hs.setConn.forAll fun _ _ ht => ht.xmit

theorem lostFrame {f : TxFrame} (h : s.QueueIs rest) : (s.lostFrame f).QueueIs rest := by
  refine ite h.remoteFault (ite ?_ h)
  split
  · exact h
  · split
    · exact h
    · split
      · exact h.faultCmd
      · exact h

end State.QueueIs

end Sys2Proof.Machine
end

section
/-! SUPPORT. The events of the Hawser links, of memory errors, scrubbing, slices, pseudo-channels and regulators leave the
queue as it was (R359 to R407, R463 to R498, R558 to R560). -/

namespace Sys2Proof.Machine

namespace State.QueueIs
variable {rest : List Instr} {s t : State} {a b c d i j k l n p q : Nat} {up on both : Bool} {u : UnitKey}
  {r : ErrRec} {h' : HawFrame} {x : EccSite} {ls : List Nat}

/-! ### Events of the links -/

theorem execRetransmitTimer (h : s.QueueIs rest) : Res.QueueIs rest (execRetransmitTimer c l s) := by
  unfold Machine.execRetransmitTimer
  dsimp only
  split
  · exact .next h
  · exact .ite (.next h) (.ite (.next h.resend) (.next (h.setConn.forAll fun _ _ hs => hs.lostFrame)))

/-! ### Memory errors (R365, R366, R558 to R560, R646, R647) -/

theorem poisonDev (h : s.QueueIs rest) : (s.poisonDev a).QueueIs rest := h

theorem hbmErr (h : s.QueueIs rest) : (s.hbmErr a b c d r).QueueIs rest := by
  have hbucket : ∀ (x : Prop) [Decidable x] (w : Nat),
      (if x then (s.rowSet a b w).bucketAdd (pcUnit a) d else s.rowSet a b w).QueueIs rest :=
    fun _ _ _ => ite (h.rowSet).bucketAdd h.rowSet
  exact ite (h.rowSet).unitErr (ite (hbucket _ _).raise (ite (hbucket _ _).drew.raise (hbucket _ _).drew.raise))

theorem execEccUncorrectable (h : s.QueueIs rest) : Res.QueueIs rest (execEccUncorrectable x on s) :=
  .ite (.next h) (.ite (.ite (.next h.unitErr) (.next h.poisonDev.unitErr))
    (.ite (.next h.hbmErr) (.next h.poisonDev.hbmErr)))

theorem execObAmEccError (h : s.QueueIs rest) : Res.QueueIs rest (execObAmEccError b up on a s) :=
  .ite (.next h) (.ite (.next h.unitErr) (.next h.modBrick.unitErr))

theorem execEngineError {loc : Loc} (h : s.QueueIs rest) : Res.QueueIs rest (execEngineError b on loc s) := by
  unfold Machine.execEngineError
  refine .ite (.next h) ?_
  dsimp only
  split
  · exact .next h.unitErr
  · exact .ite (.next h.unitErr) (.next h.endList.raiseW)

theorem execPatrolScrub {x : ScrubResult} (h : s.QueueIs rest) : Res.QueueIs rest (execPatrolScrub x s) := by
  have hnext : ∀ y, State.QueueIs rest { s with mortar := y } := fun _ => h
  unfold Machine.execPatrolScrub
  refine .ite (.next h) ?_
  dsimp only
  split
  · exact .next (hnext _)
  · exact .next (hnext _).hbmErr
  · refine .ite (.next (hnext _).hbmErr) (.next (hbmErr ?_))
    split
    · exact (hnext _).poisonDev
    · exact hnext _

/-! ### Slices and ways (R394 to R400, R560, R584) -/

theorem retiredRec (h : s.QueueIs rest) : (s.retiredRec n u p).QueueIs rest := h.raise

theorem endMove {x : SliceMove} (h : s.QueueIs rest) : (s.endMove x).QueueIs rest := by
  have hmoved : ∀ y, State.QueueIs rest { s with mortar := y } := fun _ => h
  refine ite (hmoved _) (retiredRec (setUnit ?_))
  have hways : ∀ l : List Nat, State.QueueIs rest (Machine.forAll l (fun s w => s.setUnit (wayUnit x.slice w) .retired)
      { s with mortar := { s.mortar with moves := s.mortar.moves.tail } }) :=
    fun _ => (hmoved _).forAll fun _ _ hs => hs.setUnit
  exact hways _

theorem nodeMove (h : s.QueueIs rest) : (nodeMove ls s).QueueIs rest := by
  unfold Machine.nodeMove
  split
  · exact h
  · dsimp only
    split
    · exact h.endMove
    · split
      · exact h
      · have hmoved : ∀ (l : List Nat) y, State.QueueIs rest { s with
            mem := l.foldl (fun (q : Mem) l => (q.poisonAt (2 * l)).poisonAt (2 * l + 1)) s.mem, mortar := y } := by
          exact fun _ _ => h
        exact ite (hmoved _ _).endMove (hmoved _ _)

theorem retireSlice (h : s.QueueIs rest) : (s.retireSlice k).QueueIs rest := ite h.raise1 h

theorem retireWay (h : s.QueueIs rest) : (s.retireWay i).QueueIs rest := by
  have hout : ∀ w : UnitKey, ((s.setUnit w .retired).retiredRec 0x2032 w 0).QueueIs rest := fun _ => h.setUnit.retiredRec
  exact ite (ite (hout _).bucketAdd.retireSlice (hout _).bucketAdd) (hout _)

/-! ### Pseudo-channels and rows (R368 to R372) -/

theorem setMigr {x : List Migration} (h : s.QueueIs rest) : (s.setMigr n x).QueueIs rest := h

theorem retirePc (h : s.QueueIs rest) : (s.retirePc p).QueueIs rest := ite h.raise1 h.setUnit.setMigr

theorem chunkCopyDone (h : s.QueueIs rest) : (chunkCopyDone n s).QueueIs rest := by
  unfold Machine.chunkCopyDone
  split
  · exact h
  · refine ite h ?_
    split
    · exact h.setMigr.setUnit.retiredRec
    · split
      · exact h
      · have hcopied : ∀ y l, (State.setMigr { s with mortar := y } n l).QueueIs rest := fun _ _ => h
        exact ite (hcopied _ _).setMigr.setUnit.retiredRec (hcopied _ _)

theorem copyBackChunkDone (h : s.QueueIs rest) : (copyBackChunkDone n s).QueueIs rest := by
  unfold Machine.copyBackChunkDone
  split
  · exact h
  · refine ite h ?_
    split
    · exact h.setMigr
    · exact ite h h

theorem repairRow (h : s.QueueIs rest) : (s.repairRow a b c).QueueIs rest := by
  have hrow : ∀ x y e, (State.raise (((State.drew { s with mortar := x, flash := y } 1).rowSet a b 0)) e).QueueIs rest :=
    fun _ _ _ => raise h
  exact ite (ite (hrow ..).bucketAdd.retirePc (hrow ..).bucketAdd) (hrow ..)

end State.QueueIs

end Sys2Proof.Machine
end

section
/-! SUPPORT. The ingest ports, the fusion unit and the error rings leave the queue as it was (R408 to R462). -/

namespace Sys2Proof.Machine
namespace State.QueueIs
variable {rest : List Instr} {s : State} {n p q x y : Nat} {on : Bool} {hd : Strip} {src : SrcCfg} {bs : List Byte}

/-! ### Epochs (R428 to R431) -/

theorem modStr {g : IngStream → IngStream} (h : s.QueueIs rest) : (s.modStr n g).QueueIs rest := h

theorem modIport {g : IngPort → IngPort} (h : s.QueueIs rest) : (s.modIport q g).QueueIs rest := h

theorem modEpoch {g : Epoch → Epoch} (h : s.QueueIs rest) : (s.modEpoch n x g).QueueIs rest := h

theorem armEpoch (h : s.QueueIs rest) : (s.armEpoch p n x y).QueueIs rest := h

theorem abandon {g : Epoch → Bool} (h : s.QueueIs rest) : (s.abandon n g).QueueIs rest := h

theorem abandonPart (h : s.QueueIs rest) : (s.abandonPart p).QueueIs rest := h.forAll fun _ _ hs => hs.abandon

theorem closeEpoch (h : s.QueueIs rest) : (s.closeEpoch n x y).QueueIs rest := by
  unfold State.closeEpoch
  split
  · exact h
  · exact ite h (wakeUp (modStr h.modEpoch))

theorem streamErr {a b c d e i : Nat} (h : s.QueueIs rest) : (s.streamErr a b c d e i n).QueueIs rest := h.raise

theorem iportErr {a b c : Nat} (h : s.QueueIs rest) : (s.iportErr q a b c).QueueIs rest := h.unitErr

/-! ### Packets (R409 to R421, R427 to R431) -/

theorem dropPkt (h : s.QueueIs rest) : (s.dropPkt q n).QueueIs rest := h.modIport

theorem storeStrip {f : Frame} (h : s.QueueIs rest) : (s.storeStrip n hd src f bs).QueueIs rest := h.stores.charge.modEpoch

theorem tabFull (h : s.QueueIs rest) : (s.tabFull q n hd).QueueIs rest := ite h.dropPkt (streamErr (modStr h.dropPkt))

theorem acceptStrip (h : s.QueueIs rest) : (s.acceptStrip q n on hd src bs).QueueIs rest := by
  unfold State.acceptStrip
  extract_lets k frame done room
  have hdone : ∀ s f, s.QueueIs rest → (done s f).QueueIs rest := by
    intro s f hs
    have hstored : (s.storeStrip n hd src f bs).QueueIs rest := hs.storeStrip
    dsimp only [done]
    split
    · exact ite (closeEpoch (ite hstored.modEpoch hstored)) (ite hstored.modEpoch hstored)
    · exact ite hstored.modEpoch hstored
  have hroom : room.QueueIs rest := by
    refine ite h ?_
    split
    · exact h.closeEpoch
    · exact h
  clear_value frame room done
  split
  · exact hdone _ _ h
  · split
    · exact h.tabFull
    · exact ite (hdone _ _ h.modEpoch) (hdone _ _ (armEpoch hroom.modStr))

theorem epochStrip (h : s.QueueIs rest) : (s.epochStrip q n on hd src bs).QueueIs rest := by
  unfold State.epochStrip
  extract_lets k t z late
  have hz : z.QueueIs rest := by
    dsimp only [z]
    split
    · exact h.modIport
    · exact h
  have hlate : late.QueueIs rest := modStr hz.dropPkt
  split
  · exact ite hlate hz.acceptStrip
  · exact ite hlate (ite hz.dropPkt.modStr (ite hz.dropPkt (ite hz.dropPkt (ite hlate hz.acceptStrip))))

theorem classify {pk : Packet} (h : s.QueueIs rest) : (s.classify pk hd).QueueIs rest := by
  unfold State.classify
  refine ite h.dropPkt.raise ?_
  split
  · exact h.dropPkt
  · extract_lets r multi w z c
    have hz : z.QueueIs rest := ite h h
    exact ite hz.dropPkt (ite hz.dropPkt (ite hz.dropPkt hz.epochStrip))

theorem latchWake (h : s.QueueIs rest) : s.latchWake.QueueIs rest := ite h h

theorem ingestPacket {pk : Packet} (h : s.QueueIs rest) : (ingestPacket pk s).QueueIs rest := by
  have hd : (s.dropPkt pk.port 11).QueueIs rest := h.dropPkt
  unfold Machine.ingestPacket
  extract_lets asleep good z w w'
  have hw : w.QueueIs rest := ite h.wakeUp h
  have hw' : w'.QueueIs rest := ite hw.iportErr hw
  refine ite h (ite (ite h (ite hd.latchWake hd)) (ite h (ite (ite hd.wakeUp hd) (ite hw' ?_))))
  split
  · exact hw'.dropPkt
  · exact hw'.classify

theorem execGatherLimit (h : s.QueueIs rest) : Res.QueueIs rest (execGatherLimit n x s) := by
  unfold Machine.execGatherLimit
  split
  · exact .ite (.next h.closeEpoch) (.next h)
  · exact .next h

/-! ### Fusion (R432 to R456) -/

theorem fusionErrs {f : Fused} (h : s.QueueIs rest) : (s.fusionErrs n x f).QueueIs rest := by
  unfold State.fusionErrs
  extract_lets o z w
  have hz : z.QueueIs rest := h.forAll fun _ _ hs => hs.streamErr
  have hw : w.QueueIs rest := ite hz.streamErr (ite hz.streamErr (ite hz.streamErr hz))
  exact ite hw hw.streamErr

theorem fusionStart (h : s.QueueIs rest) : (fusionStart n x s).QueueIs rest := by
  unfold Machine.fusionStart
  split
  · exact h
  · exact ite h (fusionErrs (ite (abandon (modStr (modEpoch (ite h h.commit)))) (modEpoch (ite h h.commit))))

theorem epochWritten (h : s.QueueIs rest) : (epochWritten n x s).QueueIs rest := by
  unfold Machine.epochWritten
  split
  · exact h
  · split
    · exact h
    · exact setWdn (modStr (drew (ite h h.commit)))

end State.QueueIs
end Sys2Proof.Machine
end

section
/-! SUPPORT. The host rings, the start of a list and the resets leave the queue as it was (R118 to R177, R582, R633). -/

namespace Sys2Proof.Machine
namespace State.QueueIs
variable {rest : List Instr} {s t : State} {a b c f k n p q x y : Nat} {on : Bool} {d : Desc} {e : Ending} {r : ErrRec}
  {u : UnitKey} {bs : List Byte}

/-! ### Error rings (R132, R144 to R146) -/

theorem putRec (h : s.QueueIs rest) : (s.putRec f r).QueueIs rest := msix (emit h)

theorem loseRec (h : s.QueueIs rest) : (s.loseRec f).QueueIs rest := h.modPage

theorem writeRec (h : s.QueueIs rest) : (s.writeRec f r).1.QueueIs rest := by
  unfold State.writeRec
  dsimp only
  split
  · exact h.loseRec
  · split
    · exact h.putRec
    · split
      · exact h.modPage
      · exact h.loseRec

theorem flushRecs : ∀ (k : Nat) {s : State}, s.QueueIs rest → (State.flushRecs f k s).QueueIs rest
  | 0, _, h => h
  | k + 1, s, h => by
    unfold State.flushRecs
    split
    · exact h
    · exact ite h (flushRecs k h.modPage.putRec)

/-! ### Sweeps and descriptors (R118 to R138) -/

theorem ringError (h : s.QueueIs rest) : (s.ringError f n a b c k).QueueIs rest := raise h.modSq

theorem sweepRing (h : s.QueueIs rest) : (sweepRing f n p s).QueueIs rest := by
  unfold Machine.sweepRing
  dsimp only
  split
  · exact h.modSq
  · exact ite h.modSq h.modSq
  · exact ite h.modSq.ringError h.modSq

theorem execDoorbellSweep (h : s.QueueIs rest) : Res.QueueIs rest (execDoorbellSweep f bs s) :=
  .next (ite h (forAll (flushRecs 16 (forAll h.modPage fun _ _ hs => hs.modPage)) fun _ _ hs => hs.sweepRing))

theorem joinChain (h : s.QueueIs rest) : (s.joinChain f n d).QueueIs rest := ite h (ite h h)

theorem dropChain (h : s.QueueIs rest) : (s.dropChain f n).QueueIs rest := h

theorem bindSlot (h : s.QueueIs rest) : (s.bindSlot f n d).QueueIs rest := by
  unfold State.bindSlot
  split
  · exact h
  · exact h.putSlot

theorem letRun {x : Option Ending} (h : s.QueueIs rest) : (s.letRun f n d x).QueueIs rest := h.modSq

/-- The head of a ring that starts is only moved within its ring. -/
theorem starting {z : State × Desc} (h : s.QueueIs rest) (hz : s.starting f n k = some z) : z.1.QueueIs rest := by
  unfold State.starting at hz
  split at hz
  · split at hz
    · split at hz
      · cases hz
        exact h.letRun
      · cases hz
    · cases hz
  · cases hz

theorem okDesc (h : s.QueueIs rest) : (s.okDesc f n k).QueueIs rest := h.endDesc

theorem malDesc (h : s.QueueIs rest) : (s.malDesc f n k).QueueIs rest := h.endDesc

theorem faultDesc (h : s.QueueIs rest) : (s.faultDesc f n r k).QueueIs rest := by
  unfold State.faultDesc
  split
  · exact h
  · exact h.endDesc.raise

theorem execNop (h : s.QueueIs rest) : Res.QueueIs rest (execNop f n s) := by
  unfold Machine.execNop
  split
  · next hz => exact .next (h.starting hz).okDesc
  · exact .next h

theorem execRunList (h : s.QueueIs rest) : Res.QueueIs rest (execRunList f n s) := by
  unfold Machine.execRunList
  split
  · next hz => exact .ite (.next (h.starting hz).malDesc) (.next (h.starting hz))
  · exact .next h

/-! ### HOST_COPY (R135, R143) -/

theorem moveCopy (h : s.QueueIs rest) : (s.moveCopy f d n bs).QueueIs rest := by
  unfold State.moveCopy
  extract_lets z w v
  have hz : z.QueueIs rest := h.forAll fun _ _ hs => hs.emit
  have hw : w.QueueIs rest := h.forAll fun _ _ hs => hs.emit
  exact ite h (ite hz.storeDev.charge (charge (ite hw hw.emit)))

theorem failCopy (h : s.QueueIs rest) : (s.failCopy f n d k bs a b).QueueIs rest := faultDesc (ite h h.moveCopy)

theorem hostCopy (h : s.QueueIs rest) : (s.hostCopy f n d bs).QueueIs rest := by
  unfold State.hostCopy
  split
  · exact h.faultDesc
  · split
    · exact h.faultDesc
    · split
      · exact h.moveCopy.faultDesc
      · exact h.moveCopy.okDesc

theorem execHostCopy (h : s.QueueIs rest) : Res.QueueIs rest (execHostCopy f n bs s) := by
  unfold Machine.execHostCopy
  split
  · next hz => exact .next (h.starting hz).hostCopy
  · exact .next h

theorem failHio1 {ps : List Progress} (h : s.QueueIs rest) : (s.failHio1 k ps).QueueIs rest := by
  unfold State.failHio1
  extract_lets z
  have hz : z.QueueIs rest := by
    refine h.forAll fun s x hs => ?_
    split
    · next hc => exact ite hs (hs.starting hc).failCopy
    · exact hs
  exact hz

theorem hostFails {x : HostReq} (h : s.QueueIs rest) : (s.hostFails f n x a b).QueueIs rest := by
  unfold State.hostFails
  split
  · split
    · next hc => exact (h.starting hc).failCopy
    · split
      · next hz => exact (h.starting hz).faultDesc
      · exact h
  · exact ite h.ringError h
  · exact ite (h.forAll fun _ _ hs => hs.ringError) h

/-! ### Waits and completions (R131 to R142, R149, R456) -/

theorem execWaitRing (h : s.QueueIs rest) : Res.QueueIs rest (execWaitRing f n s) := by
  unfold Machine.execWaitRing
  split
  · next hz => exact .ite (.next (h.starting hz).malDesc) (.ite (.next (h.starting hz).okDesc) (.next (h.starting hz)))
  · exact .next h

theorem endWait {x : ClosedEpoch} (h : s.QueueIs rest) : (s.endWait f n d x).QueueIs rest := ite h.faultDesc h.endDesc

theorem execWaitEpoch (h : s.QueueIs rest) : Res.QueueIs rest (execWaitEpoch f n s) := by
  unfold Machine.execWaitEpoch
  split
  · next hz =>
    refine .ite (.next (h.starting hz).faultDesc) ?_
    split
    · exact .next (h.starting hz).endWait
    · exact .next (h.starting hz)
  · exact .next h

theorem execTimestamp (h : s.QueueIs rest) : Res.QueueIs rest (execTimestamp f n s) := by
  unfold Machine.execTimestamp
  split
  · next hz => exact .next (h.starting hz).emit.okDesc
  · exact .next h

theorem dueNow (h : s.QueueIs rest) : (s.dueNow f n).QueueIs rest := by
  unfold State.dueNow
  split
  · refine ite (ite h.okDesc h) (ite ?_ h)
    split
    · exact h.endWait
    · exact h
  · exact h
  · split
    · split
      · exact h.letRun
      · exact h
    · exact h

theorem signal (h : s.QueueIs rest) : (s.signal f n).QueueIs rest := h.modPage.msix

theorem putCompletion (h : s.QueueIs rest) : (s.putCompletion f n d e on).QueueIs rest :=
  ite h.emit.modPage (ite h.emit.modPage.signal h.emit.modPage)

theorem retireDesc (h : s.QueueIs rest) : (s.retireDesc f n d e).QueueIs rest := by
  unfold State.retireDesc
  extract_lets ended chained freed dropped
  have hfreed : freed.QueueIs rest := freeSlots (ite h.modSq h.modSq.abortChain)
  have hdropped : dropped.QueueIs rest := ite hfreed.dropChain hfreed
  exact hdropped

theorem complete (h : s.QueueIs rest) : (s.complete f n).QueueIs rest := by
  unfold State.complete
  split
  · refine ite ?_ h
    extract_lets z
    have hz : z.QueueIs rest := by
      dsimp only [z]
      split
      · exact h.missSlot
      · exact h
    clear_value z
    split
    · exact ite (retireDesc (ite hz hz.putCompletion)) hz
    · exact hz
  · exact h

theorem unmask (h : s.QueueIs rest) : (s.unmask f n).QueueIs rest := ite h.modPage.emit h.modPage

/-! ### List start (R163 to R177) -/

theorem bindEntry {z : Nat × Nat × Nat} (h : s.QueueIs rest) : (s.bindEntry f n k d z).QueueIs rest := by
  unfold State.bindEntry
  split
  · exact h
  · exact h.putSlot

theorem startFault (h : s.QueueIs rest) : (s.startFault f n d k).QueueIs rest := h.faultList

theorem startList {z : Plan} (h : s.QueueIs rest) : (s.startList f n d z).QueueIs rest :=
  tryComplete (forAll h fun _ _ hs => hs.bindEntry)

theorem listStart (h : s.QueueIs rest) : (listStart f n s).QueueIs rest := by
  unfold Machine.listStart
  split
  · refine ite h ?_
    split
    · exact h.startFault
    · exact ite h.wakeUp.startList h
  · exact h

/-! ### Partition resets and drains (R153 to R157, R543, R582, R584) -/

theorem modPart {g : Partition → Partition} (h : s.QueueIs rest) : (s.modPart n g).QueueIs rest := h

theorem resetRing (h : s.QueueIs rest) : (resetRing f n on s).QueueIs rest := by
  unfold Machine.resetRing
  split
  · exact h
  · dsimp only
    split
    · exact ite h.endList.putCompletion h.endList
    · exact h.endList

theorem clearWork (h : s.QueueIs rest) : (s.clearWork n).QueueIs rest := abandonPart (p := n) h

theorem endReset (h : s.QueueIs rest) : (s.endReset n).QueueIs rest := ite (modPart (ite h.modPage h)) h

theorem partReset (h : s.QueueIs rest) : (s.partReset n on).QueueIs rest := by
  unfold State.partReset
  extract_lets rings cleared silenced drains
  have hrings : rings.QueueIs rest := h.forAll fun _ _ hs => hs.resetRing
  have hcleared : cleared.QueueIs rest := hrings.clearWork.modPage
  have hsilenced : silenced.QueueIs rest := ite hcleared.modPage hcleared
  have hdrains : drains.QueueIs rest := hsilenced.forAll fun _ _ hs => hs.modBrick
  exact ite (ite h.modPart.modPage h) hdrains.modPart.endReset

theorem dozeDone (h : s.QueueIs rest) : s.dozeDone.QueueIs rest := ite (ite h.setPwr.leaveDoze h.setPwr) h

theorem brickGone (h : s.QueueIs rest) : (s.brickGone b).QueueIs rest := by
  have hgone : ((s.modBrick b fun k => { k.fresh with powered := false }).setUnit (brickUnit b) .retired).QueueIs rest :=
    setUnit (h.modBrick)
  unfold State.brickGone
  dsimp only
  split
  · exact hgone.raise
  · exact hgone.forAll fun _ _ hs => hs.raise

theorem drained (h : s.QueueIs rest) : (drained b s).QueueIs rest := by
  unfold Machine.drained
  split
  · exact h
  · exact dozeDone (h.modBrick)
  · exact endReset (h.modBrick)
  · exact h.brickGone

theorem dropStores {ls : List Nat} (h : s.QueueIs rest) : (s.dropStores b ls).QueueIs rest := ite h (raise1 h)

theorem execDrainTimeout {ls : List Nat} (h : s.QueueIs rest) : Res.QueueIs rest (execDrainTimeout b ls s) := by
  refine .ite (.next ?_) (.next h)
  unfold Machine.drainTimeout
  split
  · exact h
  · exact raise1 (ite h h)
  · exact h.dropStores.drained

/-! ### The warm reset (R63, R582, R587, R611, R633) -/

theorem warmReset {w : WarmIn} (h : s.QueueIs rest) : (warmReset w s).QueueIs rest :=
  (congrArg State.pending (warmReset_sansWarmMem w s) :).trans h

theorem warm {w : WarmIn} (h : s.QueueIs rest) : (s.warm w).QueueIs rest := ite h.warmReset h

end State.QueueIs
end Sys2Proof.Machine
end

section
/-! SUPPORT. The error handler and the warden leave the queue as it was (R517 to R590). -/

namespace Sys2Proof.Machine
namespace State.QueueIs
variable {rest : List Instr} {s t : State} {a b c f i k n p q x y : Nat} {on : Bool} {r : ErrRec} {u : UnitKey} {w : Word}

/-! ### Records and the DEVICE sequence (R562, R572, R573) -/

theorem noteRec {x : ErrScope} {i : Option Nat} (h : s.QueueIs rest) : (s.noteRec x i).QueueIs rest := by
  unfold State.noteRec
  split
  · exact h
  · exact h.modSq
  · exact h.modSq

theorem deliver {x : ErrScope} (h : s.QueueIs rest) : (s.deliver r x).QueueIs rest :=
  noteRec (ite h.writeRec.writeRec h.writeRec)

theorem fatal (h : s.QueueIs rest) : s.fatal.QueueIs rest := h

theorem halted {x : Phase} (h : s.QueueIs rest) : (s.halted x).QueueIs rest := h

theorem lastGasp (h : s.QueueIs rest) : (s.lastGasp a b c k u).QueueIs rest := h

theorem deviceEnd {l : RunningList} {is : List (Nat × Option Nat)} (h : s.QueueIs rest) :
    (s.deviceEnd n is l).QueueIs rest := by
  unfold State.deviceEnd
  dsimp only
  split
  · exact ite h.endList.putCompletion h.endList
  · exact h.endList

/-- The record of a DEVICE fault in every ring. -/
theorem writeRecs {g : Nat → ErrRec} {l : List Nat} {is : List (Nat × Option Nat)} (h : s.QueueIs rest) :
    (l.foldl (fun (a : State × List (Nat × Option Nat)) n =>
      let w := a.1.writeRec n (g n)
      (w.1, a.2 ++ [(n, w.2)])) (s, is)).1.QueueIs rest := by
  induction l generalizing s is with
  | nil => exact h
  | cons n l ih => exact ih h.writeRec

theorem device (h : s.QueueIs rest) : (s.device r).QueueIs rest := by
  unfold State.device
  extract_lets k ws ended
  have hws : ws.1.QueueIs rest := writeRecs h
  have hended : ended.QueueIs rest := hws.forAll fun _ _ hs => hs.deviceEnd
  exact halted (fatal (hended.forAll fun _ _ hs => hs.sendAborts.dropColl))

/-! ### Retirement and handling (R552 to R570, R584 to R586) -/

theorem retireBrick (h : s.QueueIs rest) : (s.retireBrick b).QueueIs rest := by
  unfold State.retireBrick
  extract_lets marked ended was drains
  have hended : ended.QueueIs rest := h.setUnit.forAll fun _ _ hs => hs.endList
  have hdrains : drains.QueueIs rest := hended.modBrick
  clear_value was drains
  refine ite ?_ hended.brickGone
  split
  · exact hdrains.endReset
  · exact hdrains.dozeDone
  · exact hdrains

theorem dropReadmit (h : s.QueueIs rest) : (s.dropReadmit u).QueueIs rest := by
  unfold State.dropReadmit
  split
  · exact ite h h
  · exact h

theorem retire (h : s.QueueIs rest) : (s.retire u x p).QueueIs rest := by
  have hd : (s.dropReadmit u).QueueIs rest := h.dropReadmit
  exact ite hd.retireBrick (ite hd.retireWay (ite hd.retireSlice (ite hd.repairRow (ite hd.retirePc
    (ite hd.setUnit.portOut.retiredRec (ite hd.setUnit.modIport.retiredRec hd))))))

theorem consequence {e : ErrEvt} (h : s.QueueIs rest) : (s.consequence e).QueueIs rest := by
  have hr := ite (c := s.retires e = true) (h.retire (u := e.unit) (x := e.row) (p := e.rec0.part)) h
  have hu := ite (c := e.unit.kind = 1 ∧ e.rec0.permanent = true) (hr.setUnit (u := e.unit) (x := .retired)) hr
  refine ite ?_ hr
  split
  · exact ite hu.partReset hu
  · exact hu

theorem nextError (h : s.QueueIs rest) : s.nextError.QueueIs rest := h

theorem errorHandle (h : s.QueueIs rest) : (errorHandle s).QueueIs rest := by
  unfold Machine.errorHandle
  split
  · exact h
  · exact ite h.device h.deliver.nextError.consequence

theorem execHandlerTimeout (h : s.QueueIs rest) : Res.QueueIs rest (execHandlerTimeout s) := by
  unfold Machine.execHandlerTimeout
  split
  · exact .next h
  · exact .ite (.next h.lastGasp.fatal.halted) (.next h)

theorem setStatus (h : s.QueueIs rest) : (s.setStatus n).QueueIs rest := h

theorem retireReq (h : s.QueueIs rest) : (s.retireReq w).QueueIs rest :=
  ite h.setStatus (ite h.setStatus (ite h.setStatus (ite h.setStatus h.setStatus.retire)))

theorem readmitReq (h : s.QueueIs rest) : (s.readmitReq w).QueueIs rest :=
  ite h.setStatus (ite h.setStatus (ite h.setStatus (ite h.setStatus h)))

/-! ### Readmission (R587 to R590) and deadlines -/

theorem setReadmit {x : Option Readmit} (h : s.QueueIs rest) : (s.setReadmit x).QueueIs rest := h

theorem advanceTxc (h : s.QueueIs rest) : s.advanceTxc.QueueIs rest := h.of_sansLink s.advanceTxc_sansLink

theorem zeroise (h : s.QueueIs rest) : (s.zeroise u).QueueIs rest :=
  ite (setReadmit (h.modBrick)) (ite h.modPort.advanceTxc.setReadmit h.setReadmit)

theorem execSelfTestDone (h : s.QueueIs rest) : Res.QueueIs rest (execSelfTestDone on s) := by
  unfold Machine.execSelfTestDone
  split
  · exact .ite (.next h) (.ite (.next h.zeroise) (.next h.readmitFails))
  · exact .next h

theorem execProbationEnd (h : s.QueueIs rest) : Res.QueueIs rest (execProbationEnd on s) := by
  refine .ite (.next ?_) (.next h)
  unfold Machine.probationEnd
  split
  · exact ite h.readmitFails (ite h (ite h.readmitFails h.setReadmit))
  · exact h

theorem offer (h : s.QueueIs rest) : (s.offer u).QueueIs rest := by
  unfold State.offer
  extract_lets z ways back y st cs
  have hback : back.QueueIs rest := h.forAll fun _ _ hs => hs.setUnit
  exact ite h (ite hback (ite h.setMigr (ite h.modPort.tellUp (ite h.modIport h))))

theorem execHandOver (h : s.QueueIs rest) : Res.QueueIs rest (execHandOver s) := by
  refine .ite (.next ?_) (.next h)
  unfold Machine.handOver
  split
  · exact ite h h.setReadmit.setUnit.bucketClear.offer.raise1
  · exact h

/-! ### Sensors (R521 to R533) -/

theorem alert (h : s.QueueIs rest) : s.alert.QueueIs rest := by
  unfold State.alert
  extract_lets x z
  have hz : z.QueueIs rest := deviceEvent h
  exact ite hz.wakeUp hz

theorem wardenErr (h : s.QueueIs rest) : (s.wardenErr r).QueueIs rest := h.alert.raise

theorem modSensor {g : Sensor → Sensor} (h : s.QueueIs rest) : (s.modSensor i g).QueueIs rest := h

theorem sensorFails (h : s.QueueIs rest) : (s.sensorFails i).QueueIs rest := ite h.modSensor.wardenErr h.modSensor

theorem modBp {g : BrickPower → BrickPower} (h : s.QueueIs rest) : (s.modBp b g).QueueIs rest := h

theorem setRails (h : s.QueueIs rest) : (s.setRails n).QueueIs rest := ite h h

theorem emergency (h : s.QueueIs rest) : (s.emergency c r).QueueIs rest :=
  setRails (wardenStop (h.forAll fun _ _ hs => hs.writeRec))

theorem droop (h : s.QueueIs rest) : (s.droop x y).QueueIs rest :=
  wardenErr (ite (h.modSensor.forAll fun _ _ hs => hs.modBp) h.modSensor)

theorem liftVolt (h : s.QueueIs rest) : (s.liftVolt c).QueueIs rest := h.forAll fun _ _ hs => hs.modBp

theorem checkVolt (h : s.QueueIs rest) : (s.checkVolt x).QueueIs rest :=
  ite h.modSensor.emergency (ite (ite h.modSensor.droop h.modSensor).liftVolt (ite h.modSensor.droop h.modSensor))

theorem execSensorSample (h : s.QueueIs rest) : Res.QueueIs rest (execSensorSample i x s) := by
  refine .next ?_
  unfold Machine.sensorSample
  refine ite h ?_
  split
  · exact ite h.modSensor h.modSensor.checkVolt
  · exact ite h.modSensor.sensorFails h.modSensor

/-! ### Pairs (R525 to R529) -/

theorem modPair {g : Pair → Pair} (h : s.QueueIs rest) : (s.modPair p g).QueueIs rest := h

theorem noTrust (h : s.QueueIs rest) : (s.noTrust n).QueueIs rest := h.wardenErr

theorem testPair (h : s.QueueIs rest) : (s.testPair p).QueueIs rest := by
  unfold State.testPair
  dsimp only
  split
  · exact h.modPair.noTrust
  · exact ite h.modPair.sensorFails (ite h.modPair.sensorFails h.modPair.noTrust)

theorem stepPair (h : s.QueueIs rest) : (s.stepPair p).QueueIs rest :=
  ite h.modPair (ite (ite h.modPair.testPair h.modPair) h.modPair.modPair)

/-! ### Levels and power (R530 to R539, R550) -/

theorem avsWrite (h : s.QueueIs rest) : (s.avsWrite x y).QueueIs rest := h

theorem lowerRails (h : s.QueueIs rest) : s.lowerRails.QueueIs rest := by
  unfold State.lowerRails
  split
  · exact h
  · split
    · exact h.avsWrite
    · exact h

theorem startChange (h : s.QueueIs rest) : (s.startChange b n).QueueIs rest :=
  ite h.modBp (ite (ite h.modBp (ite h.modBp.avsWrite h)) h)

theorem execLevelChange (h : s.QueueIs rest) : Res.QueueIs rest (execLevelChange b s) := by
  refine .ite (.next ?_) (.next h)
  unfold Machine.levelChange
  dsimp only
  split
  · exact h
  · exact ite h.modBp.lowerRails (ite h.modBp.lowerRails h)

theorem execAvsResponse (h : s.QueueIs rest) : Res.QueueIs rest (execAvsResponse on s) := by
  refine .ite (.next ?_) (.next h)
  unfold Machine.avsResponse
  split
  · exact h
  · exact ite h.setWdn (ite h.setWdn.emit (wardenErr (ite (h.setWdn.forAll fun _ _ hs => hs.modBp) h.setWdn)))

theorem railFails {rs : List RailRead} (h : s.QueueIs rest) : (s.railFails rs).QueueIs rest :=
  h.forAll fun _ _ hs => hs.wardenErr

theorem spike (h : s.QueueIs rest) : s.spike.QueueIs rest := wardenErr (h.forAll fun _ _ hs => hs.modBp.startChange)

theorem execPowerEstimate {rs : List RailRead} (h : s.QueueIs rest) : Res.QueueIs rest (execPowerEstimate rs n s) :=
  .ite (.next (ite h.setWdn.railFails.spike h.setWdn.railFails)) (.next h)

/-! ### The decision period (R531) -/

theorem tellDies {l : List Nat} (h : s.QueueIs rest) : (s.tellDies a b c l).QueueIs rest := h.forAll fun _ _ hs => hs.wardenErr

theorem thermalStep (h : s.QueueIs rest) : (s.thermalStep b).QueueIs rest := h.modBp

theorem thermal (h : s.QueueIs rest) : s.thermal.QueueIs rest := by
  have hmarked : ∀ x y, State.QueueIs rest { s with wdn := x, mortar := y } := fun _ _ => h
  exact tellDies (tellDies (tellDies ((hmarked _ _).forAll fun _ _ hs => hs.thermalStep)))

theorem powerStep (h : s.QueueIs rest) : s.powerStep.QueueIs rest :=
  ite h (ite h.modBp (ite (h.forAll fun _ _ hs => hs.modBp) h))

theorem budgetStep (h : s.QueueIs rest) : s.budgetStep.QueueIs rest := ite h.setWdn.wardenErr h.setWdn

theorem levels (h : s.QueueIs rest) : s.levels.QueueIs rest := by
  unfold State.levels
  extract_lets g z
  have hz : z.QueueIs rest := h.forAll fun _ _ hs => hs.startChange
  exact hz.lowerRails

theorem decisionPeriod (h : s.QueueIs rest) : (decisionPeriod s).QueueIs rest := by
  unfold Machine.decisionPeriod
  extract_lets pairs none0 w1 temps told w2 hot
  have hpairs : pairs.QueueIs rest := h.forAll fun _ _ hs => hs.stepPair
  clear_value pairs
  have htemps : temps.QueueIs rest := hpairs
  have htold : told.QueueIs rest := htemps.forAll fun _ _ hs => hs.noTrust
  clear_value told
  have hhot : hot.QueueIs rest := htold
  clear_value hot
  split
  · exact hhot.emergency
  · exact ite hhot.thermal.powerStep.levels.budgetStep hhot

/-! ### Power states (R540 to R548) -/

theorem enterDoze (h : s.QueueIs rest) : s.enterDoze.QueueIs rest := dozeDone h

theorem setTime {x : TimeSt} (h : s.QueueIs rest) : (s.setTime x p).QueueIs rest := by
  have htime : ∀ y, (State.deviceEvent { s with time := y }).QueueIs rest := fun _ => deviceEvent h
  exact ite h (ite (htime _).raise (ite (htime _).raise (htime _)))

theorem loseSync (h : s.QueueIs rest) : s.loseSync.QueueIs rest := by
  have htime : (s.setTime s.time.st.toWarden 0).QueueIs rest := h.setTime
  exact htime

theorem enterWarden (h : s.QueueIs rest) : s.enterWarden.QueueIs rest := by
  have hlost : s.loseSync.QueueIs rest := h.loseSync
  exact setRails hlost

theorem enterOff (h : s.QueueIs rest) : s.enterOff.QueueIs rest := by
  have hoff : ((s.setPwr .off).setRails 0).QueueIs rest := h.setPwr.setRails
  exact hoff

theorem powerReq (h : s.QueueIs rest) : (s.powerReq on).QueueIs rest :=
  ite h.setWdn (ite h.setWdn.enterOff (ite h.setWdn h.setWdn.enterWarden))

theorem execPowerLoss (h : s.QueueIs rest) : Res.QueueIs rest (execPowerLoss s) := by
  have hoff : ∀ x, (if s.phase = .seized then { s with pins := x } else State.lastGasp { s with pins := x } 5 0 0 0x27
      noUnit).QueueIs rest := fun _ => ite h h
  exact .ite (.next h) (.next (hoff _))

end State.QueueIs
end Sys2Proof.Machine
end

section
/-! SUPPORT. The boot sequence and the return from WARDEN leave the queue as it was (R63 to R97, R467 to R469, R547,
R594). -/

namespace Sys2Proof.Machine
namespace State.QueueIs
variable {rest : List Instr} {s t : State} {a b c d f i k n p q x y : Nat} {on up : Bool} {r : ErrRec} {u : UnitKey} {w : Word}
  {bk : Bank} {bi : BootIn} {wi : WarmIn} {ps : List Progress} {bs : List Byte} {sg : Signer}

/-! ### Images and banks (R68 to R82, R594, R648) -/

theorem extendMr (h : s.QueueIs rest) : (s.extendMr i bs).QueueIs rest := h

theorem logFlash {e : LogEntry} (h : s.QueueIs rest) : (s.logFlash e).QueueIs rest := h

/-! ### The boot sequence (R63 to R97, R467 to R469, R547) -/

/-- No step of the boot sequence touches the queue. -/
theorem bootStep (h : s.QueueIs rest) (ht : BootStep s t) : t.QueueIs rest := (ht.keeps State.pending).trans h

theorem bootFails (h : s.QueueIs rest) : s.bootFails.QueueIs rest := deviceEvent h

theorem boot (h : s.QueueIs rest) : (Machine.boot bi s).QueueIs rest := bootStep (s := s.coldClear) h (boot_step bi s)

theorem ignoreTop (h : s.QueueIs rest) : (s.ignoreTop a b).QueueIs rest := h

theorem railsUp {x : TrainIn} {us : List UnitKey} (h : s.QueueIs rest) : (railsUp x us s).QueueIs rest := by
  unfold Machine.railsUp
  refine ite h ?_
  split
  · exact h.bootFails
  · next u hu =>
    have htrained : u.QueueIs rest := h.bootStep ((BootStep.refl s).train hu)
    split
    · exact htrained.bootFails
    · next v hv =>
      have hpassed : v.QueueIs rest := bootStep (s := { u with mem := Mem.empty }) htrained ((BootStep.refl _).selfTests hv)
      exact forAll (forAll hpassed fun _ _ hs => hs.startPort) fun _ _ hs => hs.raise1

end State.QueueIs
end Sys2Proof.Machine
end

section
/-! SUPPORT. Device time, the pins and security leave the queue as it was (R40 to R51, R153 to R158, R591 to R628). -/

namespace Sys2Proof.Machine
namespace State.QueueIs
variable {rest : List Instr} {s t : State} {a b c d f i k n p q x y : Nat} {on up : Bool} {r : ErrRec} {u : UnitKey} {w : Word}
  {bi : BootIn} {wi : WarmIn} {ps : List Progress} {bs : List Byte} {sg : Signer}

/-! ### Device time (R42 to R51) -/

theorem execPtpAnnounce {z : PtpMaster} (h : s.QueueIs rest) : Res.QueueIs rest (execPtpAnnounce p d z s) := by
  have hptp : ∀ x, State.QueueIs rest { s with ptp := x } := fun _ => h
  refine .next ?_
  unfold Machine.ptpAnnounce
  refine ite h ?_
  split
  · exact hptp _
  · exact ite (hptp _) (ite (hptp _) h)

theorem stepTime (h : s.QueueIs rest) : (s.stepTime d).QueueIs rest := setTime h

theorem slew {z : Int} (h : s.QueueIs rest) : (s.slew z).QueueIs rest := h

theorem measured {z : Int} (h : s.QueueIs rest) : (s.measured p z).QueueIs rest := by
  have htime : ∀ x, State.QueueIs rest { s with time := x } := fun _ => h
  unfold State.measured
  split
  · exact ite h.setTime (ite (htime _).setTime h.stepTime)
  · exact ite (htime _).setTime (htime _)
  · exact ite h.setTime h.slew
  · exact ite h.setTime h.setTime.slew
  · exact h

theorem execPtpSync (h : s.QueueIs rest) : Res.QueueIs rest (execPtpSync p d i x s) := by
  refine .next ?_
  unfold Machine.ptpSync
  extract_lets y z
  have hz : z.QueueIs rest := h
  refine ite h (ite hz.setTime ?_)
  split
  · exact hz
  · exact hz.measured

/-! ### Reset pins and host links (R63, R67, R143, R155 to R158) -/

theorem hio0Lost (h : s.QueueIs rest) : s.hio0Lost.QueueIs rest := h

theorem hio1Lost (h : s.QueueIs rest) : (s.hio1Lost ps).QueueIs rest := ite h h.failHio1

/-! ### References and mesh links (R30, R40, R41) -/

theorem linkClockOut (h : s.QueueIs rest) : (linkClockOut s p).QueueIs rest := ite h h.portOut.portErr

theorem ingClockOut (h : s.QueueIs rest) : (ingClockOut s q).QueueIs rest := ite h.modIport.iportErr h

theorem execReferenceLost {z : RefClk} (h : s.QueueIs rest) : Res.QueueIs rest (execReferenceLost z ps wi s) := by
  have hpins : ∀ x, State.QueueIs rest { s with pins := x } := fun _ => h
  refine .next (ite (hpins _) ?_)
  split
  · exact (hpins _).wardenStop
  · exact (hpins _).hio0Lost.warm
  · exact (hpins _).hio1Lost
  · exact ite (hpins _) ((hpins _).forAll fun _ _ hs => hs.linkClockOut)
  · exact ite (hpins _) (loseSync ((hpins _).forAll fun _ _ hs => hs.ingClockOut))
  · exact (hpins _).alert

/-! ### The flash mailbox (R68, R75, R636) -/

theorem gated {g : State → State} (h : s.QueueIs rest) (hg : s.QueueIs rest → (g s).QueueIs rest) :
    (s.gated n g).QueueIs rest := ite h (ite (hg h) h.ignoreTop)

theorem flashResult (h : s.QueueIs rest) : (s.flashResult n).QueueIs rest := h

theorem flashFree {g : State → State} (h : s.QueueIs rest) (hg : s.QueueIs rest → (g s).QueueIs rest) :
    (s.flashFree g).QueueIs rest := h.gated fun hs => ite hs.flashResult (hg hs)

theorem flashStart {z : FlashCmd} (h : s.QueueIs rest) : (s.flashStart z).QueueIs rest := h

theorem flashWritable {g : State → State} (h : s.QueueIs rest) (hg : s.QueueIs rest → (g s).QueueIs rest) :
    (s.flashWritable g).QueueIs rest := ite (hg h) (ite h.flashResult.raise1 h.flashResult)

theorem putFlash {z : List Host.Cell} (h : s.QueueIs rest) : (s.putFlash a z).QueueIs rest := h

theorem execFlashCommandDone (h : s.QueueIs rest) : Res.QueueIs rest (execFlashCommandDone on s) := by
  have hflash : ∀ x, State.QueueIs rest { s with flash := x } := fun _ => h
  refine .next (ite h ?_)
  unfold Machine.flashCommandDone
  split
  · exact h
  · refine ite (hflash _) ?_
    split
    · exact hflash _
    · exact (hflash _).putFlash
    · exact (hflash _).putFlash

/-! ### The security mailbox and its records (R75, R86, R597 to R616, R642) -/

theorem mailbox {g : State → State} (h : s.QueueIs rest) (hg : s.QueueIs rest → (g s).QueueIs rest) :
    (s.mailbox g).QueueIs rest := h.gated fun hs => ite hs.ignoreTop (hg hs)

theorem mboxAnswer (h : s.QueueIs rest) : (s.mboxAnswer n).QueueIs rest := h

theorem secRefuse (h : s.QueueIs rest) : (s.secRefuse a b c d).QueueIs rest := h.raise

theorem execOverride {z : OverrideRec} (h : s.QueueIs rest) : Res.QueueIs rest (execOverride z s) := by
  refine .next (h.mailbox fun hs => ite ?_ hs.raise1.mboxAnswer)
  have hanswered : ∀ x, ((State.applyOverride { s with flash := x } z).reclass.mboxAnswer 0).QueueIs rest :=
    fun _ => hs
  exact ite (hanswered _) (hanswered _).deviceEvent

theorem eraseSecrets (h : s.QueueIs rest) : (s.eraseSecrets on).QueueIs rest := h

theorem execLifecycleRecord (h : s.QueueIs rest) : Res.QueueIs rest (execLifecycleRecord sg s) := by
  refine .next (h.mailbox fun hs => ?_)
  extract_lets b kind erased old
  have herased : erased.QueueIs rest := ite hs.eraseSecrets hs
  clear_value erased
  split
  · exact hs.secRefuse.mboxAnswer
  · exact herased

/-! ### Debug levels (R601 to R607) -/

theorem zeroKey (h : s.QueueIs rest) : (s.zeroKey i).QueueIs rest := ite h h

theorem enterInvasive (h : s.QueueIs rest) : s.enterInvasive.QueueIs rest :=
  forAll (forAll (h.forAll fun _ _ hs => hs.partReset.raise) fun _ _ hs => hs.modPart) fun _ _ hs => hs.zeroKey

theorem setLevel {z : Option Token} (h : s.QueueIs rest) : (s.setLevel n z).QueueIs rest := by
  unfold State.setLevel
  extract_lets entered taken measured
  have hentered : entered.QueueIs rest := ite h.enterInvasive h
  clear_value entered
  have htaken : taken.QueueIs rest := by
    dsimp only [taken]
    split
    · exact hentered.extendMr
    · exact hentered
  clear_value taken
  exact htaken

theorem tokenRefused (h : s.QueueIs rest) : (s.tokenRefused a b c).QueueIs rest := secRefuse h

theorem withToken (h : s.QueueIs rest) : (s.withToken on n).QueueIs rest := by
  unfold State.withToken
  split
  · exact h.tokenRefused
  · exact ite h.setLevel h.tokenRefused

theorem levelRequest (h : s.QueueIs rest) : (s.levelRequest on n).QueueIs rest :=
  ite h (ite h.setLevel (ite (ite h.setLevel h.secRefuse) (ite h.setLevel h.withToken)))

theorem execSecMboxDone (h : s.QueueIs rest) : Res.QueueIs rest (execSecMboxDone bi s) := by
  refine .next ?_
  unfold Machine.secMboxDone
  split
  · exact h
  · exact ite h (ite h.boot h)

/-! ### Seizing and triggers (R618 to R624) -/

theorem seizeRefused (h : s.QueueIs rest) : s.seizeRefused.QueueIs rest := logFlash h.secRefuse

theorem seized (h : s.QueueIs rest) : s.seized.QueueIs rest := h

theorem seizeTrigger (h : s.QueueIs rest) : s.seizeTrigger.QueueIs rest := ite h (ite h.seized h.seizeRefused)

theorem triggered {on : Nat → Bool} (h : s.QueueIs rest) : (s.triggered on).QueueIs rest := by
  unfold State.triggered
  extract_lets dbg traced shot told
  have htraced : traced.QueueIs rest := ite h (ite h h)
  have hshot : shot.QueueIs rest := ite htraced htraced
  have htold : told.QueueIs rest := ite hshot.deviceEvent hshot
  exact ite h.seizeTrigger (ite htold.seizeTrigger htold)

theorem execDebugTrigger {es : List MuxSig} (h : s.QueueIs rest) : Res.QueueIs rest (execDebugTrigger es s) := by
  have hcounted : (s.counted es).QueueIs rest := h.forAll fun _ _ hs => hs
  rw [Machine.execDebugTrigger, debugTrigger_eq]
  exact .next (ite h hcounted.triggered)

/-! ### Attestation (R595, R596) -/

theorem spdmSend (h : s.QueueIs rest) : (s.spdmSend n bs).QueueIs rest := ite h.emit h

end State.QueueIs
end Sys2Proof.Machine
end

section
/-! SUPPORT. Register accesses leave the queue as it was (R108 to R117, R377 to R426, R629 to R644). -/

namespace Sys2Proof.Machine
namespace State.QueueIs
variable {rest : List Instr} {s t : State} {a b c d e f i k n o p q v x y z : Nat} {on : Bool} {w : Word} {wi : WarmIn}
  {fn : Func}

/-! ### Windows, partitions, pin areas (R113 to R116, R378, R389) -/

theorem openWindow (h : s.QueueIs rest) : (s.openWindow a b c d on).QueueIs rest := h

theorem closeWindow (h : s.QueueIs rest) : (s.closeWindow i).QueueIs rest := h

theorem setReg (h : s.QueueIs rest) : (s.setReg o w).QueueIs rest := h

theorem setPlain (h : s.QueueIs rest) : (s.setPlain o v).QueueIs rest := h.setReg

theorem allocate (h : s.QueueIs rest) : (s.allocate n).QueueIs rest := ite h.modPart h.openWindow.modPart

theorem allocDone (h : s.QueueIs rest) : (s.allocDone n).QueueIs rest := by
  unfold State.allocDone
  extract_lets part wiped blanked y full
  have hblanked : blanked.QueueIs rest := h.wipeDev.forAll fun _ _ hs => hs.modBrick
  have hfull : full.QueueIs rest := hblanked
  exact hfull.modPart

theorem pinWrite (h : s.QueueIs rest) : (s.pinWrite n e on).QueueIs rest := by
  unfold State.pinWrite
  extract_lets o z y laid r judged
  have hlaid : laid.QueueIs rest := h
  exact ite hlaid (ite hlaid.modPart.setReg hlaid.modPart)

theorem pinMoved (h : s.QueueIs rest) : (s.pinMoved n e).QueueIs rest := ite h.pinWrite h

theorem strStop (h : s.QueueIs rest) : (s.strStop n).QueueIs rest := h.setReg.abandon

theorem release (h : s.QueueIs rest) : (s.release n).QueueIs rest := by
  unfold State.release
  extract_lets unpinned stopped y dropped
  have hstopped : stopped.QueueIs rest := (h.forAll fun _ _ hs => hs.pinWrite).forAll fun _ _ hs => hs.strStop
  have hdropped : dropped.QueueIs rest := hstopped
  exact ite h.modPart (ite h.modPart hdropped.closeWindow.modPart)

/-! ### Reserved windows and ingest tables (R378, R417 to R426, R640, R641) -/

theorem reserve (h : s.QueueIs rest) : (s.reserve k v).QueueIs rest := ite h (ite h (ite h h))

theorem ingCtrl (h : s.QueueIs rest) : (s.ingCtrl v).QueueIs rest := ite (ite h.closeWindow.setReg h) (ite h (ite h h))

theorem srcWord (h : s.QueueIs rest) : (s.srcWord n v).QueueIs rest := ite h.setReg.setReg h.setReg

theorem ruleWord (h : s.QueueIs rest) : (s.ruleWord n v).QueueIs rest := ite h h

theorem strReason (h : s.QueueIs rest) : (s.strReason n k).QueueIs rest := h.modStr

theorem strWord (h : s.QueueIs rest) : (s.strWord n v).QueueIs rest :=
  ite (ite h.strReason (strReason (setReg (ite h.strStop h))))
    (ite h.setReg.strReason (ite h.strReason h.setReg.setReg.strReason))

/-! ### Hawser set-up and ports (R408, R472, R481) -/

theorem jobWrite (h : s.QueueIs rest) : (s.jobWrite n v).QueueIs rest := ite h h

theorem portCtrl (h : s.QueueIs rest) : (s.portCtrl p v).QueueIs rest :=
  ite h.setReg.startPort (ite h.setReg h.setReg.portOut)

theorem ingPortCtrl (h : s.QueueIs rest) : (s.ingPortCtrl q v).QueueIs rest := ite h.setReg h.setReg.modIport

/-! ### Words of PF0 BAR0 (R630 to R644) -/

theorem flashCmd (h : s.QueueIs rest) : (s.flashCmd v).QueueIs rest :=
  h.flashFree fun hs => ite hs.flashStart (hs.flashWritable fun ht => ht.flashStart)

theorem setupEffect (h : s.QueueIs rest) : (setupEffect o v s).QueueIs rest :=
  ite h (ite h.flashCmd (ite h (ite h (ite h (ite h.partReset h.setPlain)))))

theorem partEffect (h : s.QueueIs rest) : (partEffect o v s).QueueIs rest :=
  ite (ite h.allocate (ite h.release h)) (ite h.setPlain (ite h.pinWrite h.setPlain.pinMoved))

theorem ingEffect (h : s.QueueIs rest) : (ingEffect o v s).QueueIs rest :=
  ite h.reserve (ite h.ingCtrl (ite h.setPlain (ite (ite h.ingPortCtrl h.setPlain) (ite (ite h.srcWord h.setPlain)
    (ite (ite h.ruleWord h.setPlain) (ite h.strWord (ite h.modStr h.setPlain)))))))

theorem controlEffect (h : s.QueueIs rest) : (controlEffect o v s).QueueIs rest :=
  ite h.setPlain (ite h.jobWrite (ite h.portCtrl (ite h.powerReq (ite h.levelRequest (ite h (ite h
    (ite h.retireReq (ite h.readmitReq (ite h h.setPlain)))))))))

theorem topEffect (h : s.QueueIs rest) : (topEffect o v s).QueueIs rest :=
  ite h.setupEffect (ite h.partEffect (ite h.ingEffect h.controlEffect))

theorem takeTop (h : s.QueueIs rest) : (s.takeTop o x y).QueueIs rest := by
  have htaken : ∀ z, ((State.setPlain { s with lowWords := z } o x).setPlain (o + 4) y).QueueIs rest := fun _ => h
  exact ite (htaken _).pinMoved (htaken _)

theorem writeTop (h : s.QueueIs rest) : (writeTop o v s).QueueIs rest := by
  unfold Machine.writeTop
  refine ite h ?_
  dsimp only
  split
  · exact ite h (ite h.takeTop h.topEffect)
  · exact h.ignoreTop

/-! ### Words of a function page (R98 to R102, R126, R144 to R151) -/

theorem ignorePage (h : s.QueueIs rest) : (s.ignorePage f a b).QueueIs rest := h.modPage

theorem sqCtrl (h : s.QueueIs rest) : (s.sqCtrl f n v).QueueIs rest := by
  unfold State.sqCtrl
  refine ite h.modSq ?_
  split
  · exact h.modSq
  · exact h.modSq

theorem cqCtrl (h : s.QueueIs rest) : (s.cqCtrl f n v).QueueIs rest := h.modPage

theorem errCtrl (h : s.QueueIs rest) : (s.errCtrl f v).QueueIs rest := h.modPage

theorem msixWord (h : s.QueueIs rest) : (s.msixWord f o v).QueueIs rest := by
  unfold State.msixWord
  dsimp only
  split
  · exact h.modPage
  · exact h.modPage
  · exact h.modPage
  · exact ite h.modPage h.unmask

theorem pageEffect (h : s.QueueIs rest) : (pageEffect f o v s).QueueIs rest :=
  ite h.modPage (ite h.modPage (ite h.errCtrl (ite (ite h.sqCtrl h.modSq) (ite h.cqCtrl (ite h.modPage h.msixWord)))))

theorem vfEnabled (h : s.QueueIs rest) : State.QueueIs rest { s with vfEnable := true } := h

theorem writePage (h : s.QueueIs rest) : (writePage f o v s).QueueIs rest := by
  have hseen : (if f = 0 then s else { s with vfEnable := true }).QueueIs rest := ite h h.vfEnabled
  unfold Machine.writePage
  refine ite h ?_
  dsimp only
  split
  · exact ite hseen.modPage (ite hseen.modPage hseen.pageEffect)
  · exact hseen.ignorePage

/-! ### Register accesses -/

theorem ignore (h : s.QueueIs rest) : (s.ignore fn a b).QueueIs rest := by
  unfold State.ignore
  split
  · exact ite h.ignorePage h.ignoreTop
  · exact ite h.ignorePage.vfEnabled h
  · exact h.ignoreTop

theorem writeFour (h : s.QueueIs rest) : (write4 fn o v s).QueueIs rest := by
  unfold Machine.write4
  split
  · exact ite h.writePage h.writeTop
  · exact ite h h.writePage
  · exact ite h h.ignoreTop

theorem writePart (h : s.QueueIs rest) : (writePart n o v s).QueueIs rest := ite h.writeTop h

theorem writeRing (h : s.QueueIs rest) : (writeRing f n o v s).QueueIs rest := ite h.writePage h

theorem writeStr (h : s.QueueIs rest) : (writeStr n o v s).QueueIs rest := ite h.writeTop h

theorem latchPut {z : Option Nat} (h : s.QueueIs rest) : (s.latchPut fn o z).QueueIs rest := by
  unfold State.latchPut
  dsimp only
  split
  · exact ite h.modPage h
  · exact h.modPage
  · exact h

theorem execRegisterRead (h : s.QueueIs rest) : Res.QueueIs rest (execRegisterRead fn o n s) := by
  refine .next ?_
  unfold Machine.registerRead
  extract_lets seen plain
  have hseen : seen.QueueIs rest := by
    dsimp only [seen]
    split
    · exact ite h.vfEnabled h
    · exact h
  have hplain : ∀ s, s.QueueIs rest → (plain s).QueueIs rest := fun _ hs => hs.emit
  clear_value seen plain
  refine ite hseen (ite (hplain _ hseen.latchPut) (ite ?_ (hplain _ hseen)))
  split
  · exact hseen.latchPut.emit
  · exact hplain _ hseen

end State.QueueIs
end Sys2Proof.Machine
end

section
/-! SUPPORT and O2. Every command and the tick leave the queue as it was, so every step takes exactly its front command (log
entry 1). -/

namespace Sys2Proof.Machine
namespace State.QueueIs
variable {rest : List Instr} {s : State} {f k n : Nat} {c : Cmd} {i : Instr} {loc : Loc} {x : CollKind} {o : CollF}

/-! ### Commands of a list outside `engineCmd`, and what goes on with a held one (R188 to R193, R260, R310, R490) -/

theorem engine {z : Cmd × Bool × Nat × List Nat} (h : s.QueueIs rest) (hz : engineCmd i = some z) :
    Res.QueueIs rest (exec i s) :=
  engineCmd_queue hz h

theorem execLoopEnd (h : s.QueueIs rest) : Res.QueueIs rest (execLoopEnd c n s) := by
  refine .next ?_
  unfold Machine.loopEnd
  split
  · exact h
  · refine ite h (ite h.modCtx.endStream ?_)
    split
    · exact h.faultCmd
    · exact ite h.modCtx h.modCtx.modList.finish.modCtx

theorem execContextDeadlock (h : s.QueueIs rest) : Res.QueueIs rest (execContextDeadlock f n s) := by
  unfold Machine.execContextDeadlock
  split
  · exact .next h
  · exact .ite (.next h.faultList) (.next h)

theorem execPinResume (h : s.QueueIs rest) : Res.QueueIs rest (execPinResume loc s) := by
  refine .next (ite h (h.resume fun e c held r hr => ?_))
  split at hr
  · dsimp only at hr
    split at hr
    · cases hr
    · cases hr
      exact pinFrom_queue h fun _ _ hs => attnRun_queue hs
  · cases hr
    exact pinFrom_queue h fun _ _ hs => gatherRun_queue hs
  · cases hr

theorem execForkResume (h : s.QueueIs rest) : Res.QueueIs rest (execForkResume loc s) := by
  refine .next (ite h (h.resume fun e c held r hr => ?_))
  split at hr
  · cases hr
    exact forkFrom_queue h
  · cases hr

theorem handOff (h : s.QueueIs rest) : (handOff loc s).QueueIs rest := by
  refine ite h (h.resume fun e c held r hr => ?_)
  split at hr
  · split at hr
    · cases hr
      exact blocks_queue _ _ h
    · cases hr
  · cases hr

theorem execCollTimeout (h : s.QueueIs rest) : Res.QueueIs rest (execCollTimeout loc s) := by
  unfold Machine.execCollTimeout
  split
  · exact .ite (.next h.collFault) (.next h)
  · exact .next h

/-! ### Every command, and the step -/

theorem exec (h : s.QueueIs rest) : ∀ i : Instr, Res.QueueIs rest (exec i s)
  | .pwrGoodRise .. => .next (ite (boot h) h)
  | .coldReset .. => .next (ite (boot h) h)
  | .setupColdReq .. => .next (ite h (ite h.boot h.ignoreTop))
  | .warmResetN .. => .next h.warm
  | .setupReset .. => .next (ite h.warm h.writeTop)
  | .i3cWarmResetRequest .. => .next (ite h.warm h)
  | .perst0N .. => .next (ite h (warm h))
  | .perst1N .. => .next (hio1Lost h)
  | .hio0LinkLoss .. => .next (ite h h.hio0Lost.warm)
  | .hio1LinkLoss .. => .next h.hio1Lost
  | .flrVf .. => .ite (.next h.partReset) (.next h)
  | .flrPf0 .. => .next (ite h (warm h))
  | .flrPf1 .. => .next (ite h h.failHio1)
  | .setupPartReset .. => .next h.writeTop
  | .powerLoss => h.execPowerLoss
  | .thermTrip .. => .ite (.next h) (.next h)
  | .referenceLost .. => h.execReferenceLost
  | .meshLinkFail .. => .next (ite h.raise1 h)
  | .ptpSync .. => h.execPtpSync
  | .ptpAnnounce .. => h.execPtpAnnounce
  | .syncTimeout => .ite (.next h.loseSync) (.next h)
  | .deviceTimeStep => .ite (.next h.stepTime) (.next h)
  | .ppsInEdge => .ite (.next h) (.next h)
  | .ppsOut => .ite (.next h) (.next h)
  | .seizeN => .next h.seizeTrigger
  | .jtagSeize => .next h.seizeTrigger
  | .seizeExit .. => .next (ite h.boot h)
  | .flashRead => .next (h.flashFree fun hs => hs.flashStart)
  | .flashErase => .next (h.flashFree fun hs => hs.flashWritable fun ht => ht.flashStart)
  | .flashProgram => .next (h.flashFree fun hs => hs.flashWritable fun ht => ht.flashStart)
  | .flashCommandDone .. => h.execFlashCommandDone
  | .override .. => h.execOverride
  | .goldenUpdate .. => .next (h.mailbox fun hs => ite (mboxAnswer hs) hs.raise1.mboxAnswer)
  | .lifecycleRecord .. => h.execLifecycleRecord
  | .debugToken .. => .next (ite (ite h h) (h.mailbox fun hs => mboxAnswer hs))
  | .linkSecretRecord .. => .next (h.mailbox fun hs => ite (mboxAnswer hs) hs.secRefuse.mboxAnswer)
  | .debugLevelRequest .. => .next (ite (ite h h.levelRequest) (h.gated fun hs => hs.levelRequest))
  | .partDrvIfver .. => .next h.writePage
  | .setupLock .. => .next h.writeTop
  | .functionSetupLock .. => .next h.writePage
  | .registerWrite .. =>
    .next (ite h (ite h.ignore (ite h.writeFour (ite h.writeFour.writeFour (ite h.writeFour.writeFour h.ignore)))))
  | .partitionAlloc .. => .next h.writePart
  | .allocClearDone .. => .ite (.next h.allocDone) (.next h)
  | .partitionRelease .. => .next h.writePart
  | .pinEntryWrite .. => .next (ite h.writePart h)
  | .reservedRegionWrite .. => .next (ite h.writeTop h)
  | .sqEnable .. => .next h.writeRing
  | .sqDisable .. => .next h.writeRing
  | .cqEnable .. => .next h.writeRing
  | .cqDisable .. => .next h.writeRing
  | .errRingEnable .. => .next h.writePage
  | .errRingDisable .. => .next h.writePage
  | .ringSqnRestart .. => .next h.writeRing
  | .doorbellSweep .. => h.execDoorbellSweep
  | .descriptorFetch .. => .next (ite h (modSq (ite h.wakeUp.joinChain.bindSlot h.wakeUp.joinChain)))
  | .nop .. => h.execNop
  | .runList .. => h.execRunList
  | .hostCopy .. => h.execHostCopy
  | .waitRing .. => h.execWaitRing
  | .waitEpoch .. => h.execWaitEpoch
  | .timestamp .. => h.execTimestamp
  | .pcieErrorResponse .. => .next h.hostFails
  | .pcieCompletionTimeout .. => .next h.hostFails
  | .completionWrite .. => .ite (.next h.dueNow.complete) (.next h)
  | .irqTimer .. => .ite (.next h.signal) (.next h)
  | .msixUnmask .. => .ite (.next h) (.next h.unmask)
  | .listStart .. => .next h.listStart
  | .contextDeadlock .. => h.execContextDeadlock
  | .copy .. => h.engine rfl
  | .loopBegin .. => .next (h.command fun _ _ hs => Ran.QueueIs.ite hs.modCtx hs.modCtx)
  | .loopEnd .. => h.execLoopEnd
  | .predSet .. => h.engine rfl
  | .fence .. => h.engine rfl
  | .matmul .. => h.engine rfl
  | .matmulAcc .. => h.engine rfl
  | .matmulGated .. => h.engine rfl
  | .epilogueStreamHandoff .. => .ite (.next h) (.ite (.next h.collGo) (.next h.handOff))
  | .act .. => h.engine rfl
  | .normRow .. => h.engine rfl
  | .softmaxRow .. => h.engine rfl
  | .attnBlock .. => h.engine rfl
  | .pinResume .. => h.execPinResume
  | .gatherPages .. => h.engine rfl
  | .scatterWrite .. => h.engine rfl
  | .scatterFork .. => h.engine rfl
  | .scatterFree .. => h.engine rfl
  | .conv2d .. => h.engine rfl
  | .pool2d .. => h.engine rfl
  | .resample .. => h.engine rfl
  | .rngFill .. => h.engine rfl
  | .allReduce .. => .next h.collCommand
  | .reduceScatter .. => .next h.collCommand
  | .vetoOr .. => .next h.collCommand
  | .allGather .. => .next h.collCommand
  | .broadcast .. => .next h.collCommand
  | .collTimeout .. => h.execCollTimeout
  | .amax .. => h.engine rfl
  | .sumsq .. => h.engine rfl
  | .push .. => h.engine rfl
  | .clip .. => h.engine rfl
  | .product .. => h.engine rfl
  | .nonfiniteVote .. => h.engine rfl
  | .eccCorrected .. => .ite (.next h) (.ite (.next h.unitErr) (.next h.hbmErr))
  | .eccUncorrectable .. => h.execEccUncorrectable
  | .tagCopyError .. => .ite (.next h) (.ite (.next h.raise1) (.next h.unitErr))
  | .obAmEccError .. => h.execObAmEccError
  | .engineError .. => h.execEngineError
  | .patrolScrub .. => h.execPatrolScrub
  | .chunkCopyDone .. => .ite (.next h.chunkCopyDone) (.next h)
  | .copyBackChunkDone .. => .ite (.next h.copyBackChunkDone) (.next h)
  | .nodeMove .. => .ite (.next h.nodeMove) (.next h)
  | .bucketRefill .. => .ite (.next h) (.next h)
  | .ingestPortEnable .. => .next (ite h.writeTop h)
  | .ingestEnable => .next h.writeTop
  | .sourceWrite .. => .next (ite h.writeTop h)
  | .ruleWrite .. => .next (ite h.writeTop h)
  | .streamEnable .. => .next h.writeStr
  | .streamDisable .. => .next h.writeStr
  | .ingStrmnResume .. => .next h.writeStr
  | .ingestPacket .. => .next h.ingestPacket
  | .arpRequest .. => .ite (.next h.emit) (.next h)
  | .gatherLimit .. => h.execGatherLimit
  | .fusionStart .. => .next h.fusionStart
  | .epochWritten .. => .ite (.next h.epochWritten) (.next h)
  | .ingestLinkLost .. => .ite (.next h.modIport.iportErr) (.next h)
  | .hawserPortEnable .. => .next (ite h.writeTop h)
  | .linkTrained .. => .ite (.next h.modPort) (.next h)
  | .lldpSend .. => .ite (.next h.emit) (.next h)
  | .lldpReceived .. => .ite (.ite (.ite (.next h.modPort) (.next h.modPort.bound)) (.next h.unbound)) (.next h)
  | .bindingTimeout .. => .ite (.next h.unbound) (.next h)
  | .hawserLinkLost .. => .ite (.next h.portOut.portErr) (.next h)
  | .write .. => .next (h.receive fun _ hs => hs.wakeUp.inOrder fun _ ht => ht.serveWrite)
  | .readReq .. => .next (h.receive fun _ hs => hs.wakeUp.inOrder fun _ ht => ht.serveRead)
  | .readResp .. => .next (h.receive fun _ hs => hs.inOrder fun _ ht => ht.answered)
  | .collData .. => .next (h.receive fun _ hs => hs.wakeUp.inOrder fun _ ht => ht.serveCollData)
  | .collCtrl .. => .next (h.receive fun _ hs => hs.wakeUp.serveCollCtrl)
  | .ack .. => .next (h.receive fun _ hs => hs)
  | .nak .. => .next (h.receive fun _ hs => hs.serveNak.ackUpTo)
  | .probe .. => .next (h.receive fun _ hs => hs.serveProbe)
  | .portState .. => .next (h.receive fun _ hs => hs.servePortState)
  | .hawserReservedFrame .. => .ite (.next h) (.next h)
  | .pfcPause .. => .ite (.next h) (.ite (.next h.modPort) (.next h.modPort.unpause))
  | .ackTimer .. => .ite (.next h.sendAck) (.next h)
  | .replayTimer .. => .ite (.next h.replay) (.next h)
  | .retransmitTimer .. => h.execRetransmitTimer
  | .hawJobWrite .. => .next (ite h.writeTop h)
  | .sensorSample .. => h.execSensorSample
  | .decisionPeriod => .ite (.next h.decisionPeriod) (.next h)
  | .levelChange .. => h.execLevelChange
  | .powerEstimate .. => h.execPowerEstimate
  | .avsResponse .. => h.execAvsResponse
  | .wardenWatchdog => .ite (.next (wardenErr (h.forAll fun _ _ hs => hs.modBp))) (.next h)
  | .idleTimeout => .ite (.next h.setPwr) (.next h)
  | .dozeTimeout => .ite (.next h.enterDoze) (.next h)
  | .wardenTimeout => .ite (.next h.enterWarden) (.next h)
  | .enterWarden => .next h.writeTop
  | .enterOff => .next h.writeTop
  | .hostWakeRequest .. => .ite (.next h) (.ite (.next (ite h.latchWake h)) (.ite (.next h.wakeUp) (.next h)))
  | .wakeTime => .ite (.next (ite h.latchWake (ite h.wakeUp h))) (.next h)
  | .railsInRegulation .. => .next h.railsUp
  | .storeDrain .. => .ite (.next h.drained) (.next h)
  | .drainTimeout .. => h.execDrainTimeout
  | .errorHandle => .ite (.next h.errorHandle) (.next h)
  | .handlerTimeout => h.execHandlerTimeout
  | .bucketLeak .. => .ite (.next h.rowSet) (.next h.bucketAdd)
  | .errRetireReq .. => .next h.writeTop
  | .errReadmitReq .. => .next h.writeTop
  | .selfTestDone .. => h.execSelfTestDone
  | .probationEnd .. => h.execProbationEnd
  | .handOver => h.execHandOver
  | .deadlineTest => .ite (.next (h.deadlineTests _)) (.next h)
  | .debugTrigger .. => h.execDebugTrigger
  | .getVersion => .next h.spdmSend
  | .getCapabilities => .next h.spdmSend
  | .negotiateAlgorithms .. => .next (ite h.spdmSend h.spdmSend)
  | .getDigests => .next h.spdmSend
  | .getCertificate .. => .next (ite h.spdmSend (ite h.spdmSend h.spdmSend))
  | .challenge .. => .next (ite h.spdmSend (ite h.spdmSend h.spdmSend.drew))
  | .getMeasurements .. => .next (ite h.spdmSend (ite h.spdmSend.drew (ite h.spdmSend.drew (ite h.spdmSend.drew h.spdmSend))))
  | .spdmUnsupportedRequest .. => .next h.spdmSend
  | .coldResetNAssert => .next h
  | .perstNDeassert .. => .next h
  | .pcieLinkTrained .. => .next (ite h (ite (ite h h) (ite h h)))
  | .pf1FlrReadiness => .next (ite h h)
  | .ingestLinkUp .. => .ite (.next h.modIport) (.next h)
  | .delayResp .. => .ite (.next h) (.next h)
  | .hawserFcsFailure .. => .ite (.next (ite (ite h.portErr h).xmit (ite h.portErr h))) (.next h)
  | .forkResume .. => h.execForkResume
  | .secMboxDone .. => h.execSecMboxDone
  | .registerRead .. => h.execRegisterRead
  | .ppsOutFall => .ite (.next h) (.next h)

theorem tick (h : s.QueueIs rest) : s.tick.QueueIs rest := by
  unfold State.tick
  split
  · exact h
  · exact h
  · exact h
  · exact h
  · exact h

end State.QueueIs

/-- Settles O2: the front command runs with the rest of the queue, and no command touches the queue. -/
theorem everyStepAnswersAndConsumesOne : Obligations.EveryStepAnswersAndConsumesOne := by
  intro s
  unfold step
  cases hq : s.pending with
  | nil => exact ⟨s.tick, rfl, State.QueueIs.tick hq⟩
  | cons c rest => exact State.QueueIs.exec (s := { s with pending := rest }) rfl c

end Sys2Proof.Machine
end
